-- ==== Sys2Proof/Word.lean ====
section
/-!
DEFINITION. Word.lean: the words of the machine and their plainest arithmetic (00_scope.md R2, R3).
-/

namespace Sys2Proof

/-- One byte. -/
abbrev Byte := BitVec 8

/-- A 32-bit word: an instruction word, or one lane of a v register (R75). -/
abbrev Word := BitVec 32

/-- A 64-bit doubleword: an s or k register, a pair, a pointer (R75, R224). -/
abbrev Dword := BitVec 64

/-- One value for each of the 32 lanes (R46). -/
abbrev Lanes (α : Type) := Vector α 32

/-- A PC: a 56-bit virtual address (R71). -/
abbrev Pc := BitVec 56

/-- One bit as a one-bit word. -/
abbrev bit1 (b : Bool) : BitVec 1 := BitVec.ofBool b

/-- The lanes as a list, for folds in ascending lane order (R15 leaves no other order a meaning). -/
def laneList : List (Fin 32) := List.finRange 32

/-- The signed value of a word of `w` bits. -/
abbrev sval {w : Nat} (x : BitVec w) : Int := x.toInt

/-- The unsigned value of a word of `w` bits. -/
abbrev uval {w : Nat} (x : BitVec w) : Nat := x.toNat

/-- The bytes of `n` at the low end first, `k` of them (R3: byte 0 lies at the lowest address). -/
def natBytes : Nat → Nat → List Byte
  | 0, _ => []
  | k + 1, n => BitVec.ofNat 8 n :: natBytes k (n / 256)

/-- The number whose little-endian bytes are the list (R3). -/
def bytesNat : List Byte → Nat
  | [] => 0
  | b :: t => b.toNat + 256 * bytesNat t

end Sys2Proof
end

