-- ==== Sys2Proof/Config.lean ====
section
/-!
DEFINITION. Config.lean: what the manual leaves to the part, as constants without a body. No proof can see a value of
one, so a statement holds whatever it is. Each is named in a log entry.
-/

namespace Sys2Proof.Config

/-- R68: which of the results within the bound FEXP2 returns for an input (log entry 7). -/
opaque fexp2 : Word → Nat
/-- R68: FLOG2, as above. -/
opaque flog2 : Word → Nat
/-- R68: FSIN, as above. -/
opaque fsin : Word → Nat
/-- R68: FCOS, as above. -/
opaque fcos : Word → Nat
/-- R68: FTANH, as above. -/
opaque ftanh : Word → Nat
/-- R68: FRCP, as above. -/
opaque frcp : Word → Nat
/-- R68: FRSQ, as above. -/
opaque frsq : Word → Nat
/-- R53 gives no tie-break for a format with M = 0: true rounds a tie up in magnitude; by code and encoding of the
lower neighbour (log entry 9). -/
opaque tieUpM0 : Nat → Nat → Bool
/-- R50 gives a largest value that a format with E = 1, M = 0, IE = 0 cannot encode (log entry 9). -/
opaque largestE1M0 : Nat → Nat

/-- R427: how far a package's rack time count runs ahead of the slowest, modulo 65 core cycles (log entry 124). -/
opaque rackSkew : Nat → Nat

/-- Whether module `m` of a direction of a link trains at 48 GT/s, at the training of a given number (R434; log entry 78). -/
opaque trains : Nat → Nat → Nat → Bool

/-- R263 does not say how many home-slice comparators a slice has (log entry 10). -/
opaque comparators : Nat

/-- R406: a bin's entry line is resident in the requesting core's L1 instruction cache, whose contents the state does not
hold; by free-value number, core and entry (log entry 11). -/
opaque codeResident : Nat → Nat → Nat → Bool

/-- Host memory as a read through a host window finds it (R470, log entry 2): by cycle, link (2 x package + n), host address. -/
opaque hostByte : Nat → Nat → Nat → Byte

/-- A free 64-bit value, a fresh one for each number (log entry 6). -/
opaque free64 : Nat → Dword
/-- A free byte. -/
opaque freeByte : Nat → Nat → Byte

/-- SM2 signature check of a claim or an image over its bytes (16 R488, R493; log entry 8). -/
opaque sm2Verify : List Byte → List Byte → Bool
/-- The SM2 signature that a package's key makes over a report (R494; log entry 8). -/
opaque sm2Sign : Nat → List Byte → List Byte
/-- The SM3 hash of a byte string (R493; log entry 8). -/
opaque sm3 : List Byte → List Byte

/-- The challenge that a mailbox copy shows (R488, R491), by copy and by the number of claims taken; 32 bytes (log entry 8). -/
opaque challenge : Nat → Nat → List Byte
/-- The image of a die (0-7, the host die 8) in a bundle, whose layout the manual does not give (R492; log entry 8). -/
opaque bundleImage : Nat → List Byte → List Byte
/-- The SM2 signature of an image holds against the Faviuri key (R492; log entry 8). -/
opaque imageOk : List Byte → Bool
/-- The version of an image (R494; log entry 8). -/
opaque imageVersion : List Byte → Nat
/-- The public key of a package's identity (R494; log entry 8). -/
opaque packageKey : Nat → List Byte

end Sys2Proof.Config
end

