-- ==== Sys2Proof/Syntax.lean ====
section
/-!
DEFINITION. Syntax.lean: the instruction formats (03_instruction_word.md R83, R86), the operands of the part's
other steps (95_what_each_step_holds.md), and `Instr`, one constructor for each row of opcode_table.json.
-/

namespace Sys2Proof

/-- Lane format LR (R83), also the word of the packed, cross-lane and transaction forms. -/
structure LR where
  d : BitVec 7
  a : BitVec 7
  b : BitVec 7
  ea : Bool
  eb : Bool
  deriving DecidableEq, Repr

/-- Lane format LI (R83). -/
structure LI where
  d : BitVec 7
  a : BitVec 7
  ea : Bool
  imm : BitVec 8
  deriving DecidableEq, Repr

/-- Lane format LC (R83): a compare into mask `md`. -/
structure LC where
  md : BitVec 3
  cc : BitVec 4
  a : BitVec 7
  b : BitVec 7
  ea : Bool
  eb : Bool
  deriving DecidableEq, Repr

/-- Lane format LCI (R83). -/
structure LCI where
  md : BitVec 3
  cc : BitVec 4
  a : BitVec 7
  ea : Bool
  imm : BitVec 8
  deriving DecidableEq, Repr

/-- Lane format LM (R83): data register `r`, offset `o`, base `b`, `p` = k[3:2] (policy or anchor slot),
`sh` = k[1:0] (offset shift). -/
structure LM where
  r : BitVec 7
  o : BitVec 7
  b : BitVec 5
  p : BitVec 2
  sh : BitVec 2
  deriving DecidableEq, Repr

/-- Lane long format LL (R83, R85): word 0 then the fields of word 1. -/
structure LL where
  d : BitVec 7
  a : BitVec 7
  o : BitVec 7
  ea : Bool
  eb : Bool
  fn : BitVec 6
  b : BitVec 5
  scope : BitVec 5
  ord : BitVec 2
  wd : BitVec 2
  c : BitVec 7
  x : BitVec 5
  deriving DecidableEq, Repr

/-- Uniform format UR (R86). -/
structure UR where
  d : BitVec 7
  a : BitVec 7
  b : BitVec 7
  ea : Bool
  eb : Bool
  x : Bool
  deriving DecidableEq, Repr

/-- Uniform format UI (R86). -/
structure UI where
  d : BitVec 7
  a : BitVec 7
  ea : Bool
  imm : BitVec 9
  deriving DecidableEq, Repr

/-- Uniform format UK (R86, R88): `z` is bit [18]. -/
structure UK where
  d : BitVec 5
  z : Bool
  h : BitVec 2
  imm : BitVec 16
  deriving DecidableEq, Repr

/-- Uniform format UB (R86). -/
structure UB where
  cond : BitVec 5
  off : BitVec 19
  deriving DecidableEq, Repr

/-- Uniform format UJ (R86). -/
structure UJ where
  off : BitVec 24
  deriving DecidableEq, Repr

/-- Uniform format US (R86). -/
structure US where
  m : BitVec 3
  off : BitVec 21
  deriving DecidableEq, Repr

/-- A uniform long form (R86): word 0 in the UR layout, and word 1, laid out by its instruction. -/
structure UL where
  d : BitVec 7
  a : BitVec 7
  b : BitVec 7
  ea : Bool
  eb : Bool
  x : Bool
  w1 : Word
  deriving DecidableEq, Repr

/-- The causes of the K5 (17_trap_unit.md R500). -/
inductive Cause where
  | none | illegalOpcode | illegalOperand | reservedField | privileged
  | misalignedFetch | fetchFault | joinMismatch | divstackOverflow | divstackUnderflow
  | feEmpty | queueEmpty | breakpoint | singleStep | watchHit
  | pageNotPresent | protectionRead | protectionWrite | protectionExec | tagMismatch
  | misalignedAccess | noncanonicalAddress | attributeConflict | poisonConsumed
  | scratchRange | homeUnreachable | copyAlign | copyDescriptor | anchorOverflow
  | anchorPhase | anchorMisaligned | pitchRange
  | tileConfig | matrixFormat | swizzleMismatch | weightSlot | raggedNotCapable
  | ropeMismatch | mstreamIllegal | scaleFetch
  | groupPermission | peerRange | flowLate | flowFailed | layoutMap | collectiveAborted
  | linkDown | fetchNotBound | binRange | preempted | thermalHold | wdoneNoitem
  | ibNestDepth | ibSelfReference | boundFieldFault | commandMalformed | deadlineReject
  | commandFault | dumpSecondary | machineCheck
  | trap (n : BitVec 5)
  deriving DecidableEq, Repr

/-- PC slot A or B of a strand (R115). -/
inductive SlotId where
  | a | b
  deriving DecidableEq, Repr

/-- How a line is reached (08 R229): timestamp-leased, self-invalidating, never cached. -/
inductive LineMode where
  | ts | si | never
  deriving DecidableEq, Repr

/-- One party's core. -/
structure CoreRef where
  core : Nat
  deriving DecidableEq, Repr

/-- A numbered item of one core: an access, a command, a stream operation, a buffered store. -/
structure CoreItem where
  core : Nat
  id : Nat
  deriving DecidableEq, Repr

structure PkgRef where
  pkg : Nat
  deriving DecidableEq, Repr

/-- A compute die, numbered package x 8 + die (the rack die index of R402). -/
structure DieRef where
  die : Nat
  deriving DecidableEq, Repr

structure StrandRef where
  core : Nat
  strand : Nat
  deriving DecidableEq, Repr

structure SlotRef where
  core : Nat
  strand : Nat
  slot : SlotId
  deriving DecidableEq, Repr

/-- The words of an instruction that decode rejects (R93, R94, R91). -/
structure Words where
  w0 : Word
  w1 : Word
  deriving DecidableEq, Repr

/-- A fetch that fails (R71, R164): the cause and the address that failed. -/
structure FetchFault where
  cause : Cause
  addr : Dword
  deriving DecidableEq, Repr

/-- A write of a system register with an effect of its own: the register's index in its family, the value. -/
structure SysValue where
  n : Nat
  value : Dword
  deriving DecidableEq, Repr

/-- A debug halt of a party (R509): under ALL or not, and the cause that its inventory names. -/
structure HaltReq where
  core : Nat
  all : Bool
  cause : Cause
  deriving DecidableEq, Repr

/-- A walk of a missing translation (R225): cluster, root table, address, and whether a store needs it. -/
structure WalkReq where
  cluster : Nat
  root : Nat
  va : Pc
  write : Bool
  deriving DecidableEq, Repr

/-- What a page-not-present fault stops (R144, R306, R327): an access of a strand, a segment of an engine command, the
sequencer. -/
inductive FaultWho where
  | access (id : Nat)
  | segment (cmd : Nat) (seg : Nat)
  | sequencer
  deriving DecidableEq, Repr

/-- A page-not-present fault that reaches the fault service (R238, R482): access kind 0 read, 1 write,
2 execute, 3 engine. -/
structure FaultReq where
  core : Nat
  va : Pc
  kind : Nat
  who : FaultWho
  deriving DecidableEq, Repr

/-- A record of the fault ring, by its number. -/
structure FaultRef where
  id : Nat
  deriving DecidableEq, Repr

/-- A read or renewal at a home (R270). `named` is the wts of the copy that the core holds; `evict` is a line
that leaves L2 to make room (R266), if one does. -/
structure ReadReq where
  core : Nat
  acc : Nat
  line : Nat
  mode : LineMode
  pts : Nat
  named : Option Nat
  evict : Option Nat
  deriving DecidableEq, Repr

/-- A read response (R269, R270): no data is a bare renewal. -/
structure ReadResp where
  core : Nat
  acc : Nat
  line : Nat
  mode : LineMode
  wts : Nat
  rtsCopy : Nat
  data : Option (BitVec 1024)
  poison : BitVec 4
  tags : BitVec 16
  deriving DecidableEq, Repr

/-- A store on its way to a home (R271): byte mask, data, granule tags to set, the clock it carries; a buffered store, or the write of a
segment of an engine command, with the sectors that its source's poison marks (R326, R436). -/
structure StoreMsg where
  core : Nat
  sb : Nat
  line : Nat
  mask : BitVec 128
  data : BitVec 1024
  tagMask : BitVec 4
  tags : BitVec 16
  pts : Nat
  evict : Option Nat
  /-- the command and the segment -/
  seg : Option (Nat × Nat)
  psn : BitVec 4
  deriving DecidableEq, Repr

/-- The acknowledgement of a buffered store; of a command's segment; of an access's lane at another core's scratchpad. -/
structure StoreAck where
  core : Nat
  sb : Nat
  line : Nat
  wts : Nat
  part : Option (Nat × Nat)
  deriving DecidableEq, Repr

/-- One lane's atomic request (R431): function, width, operands. -/
structure AtomMsg where
  core : Nat
  acc : Nat
  lane : Nat
  pa : Nat
  fn : BitVec 6
  wide : Bool
  x : Dword
  y : Dword
  pts : Nat
  deriving DecidableEq, Repr

/-- The response of an atomic: the old value, or none when it met poison (R286). -/
structure AtomResp where
  core : Nat
  acc : Nat
  lane : Nat
  line : Nat
  old : Option Dword
  wts : Nat
  /-- the granule's tag did not match at the home (R256) -/
  mistag : Bool
  deriving DecidableEq, Repr

/-- One line of an ADD drain (R377): the stream operation and the line; `home` is its segment and the physical
line once it is a message to the line's home on another die (R431). -/
structure DrainLine where
  core : Nat
  op : Nat
  line : Nat
  home : Option (Nat × Nat)
  deriving DecidableEq, Repr

/-- A step of a strand's commit (R283): at the core, or as a message that locks a line at its home on another die (R431). -/
structure CommitStep where
  core : Nat
  strand : Nat
  line : Option Nat
  deriving DecidableEq, Repr

/-- An access at a named core's scratchpad port (R230): data to write, or none for a read; `atom` for a lane of an atomic. -/
structure CoreBacked where
  core : Nat
  acc : Nat
  lane : Nat
  target : Nat
  off : Nat
  size : Nat
  data : Option Nat
  atom : Bool
  deriving DecidableEq, Repr

/-- An uncorrectable error found in one 32-byte sector of memory, by physical byte address (R285). -/
structure EccError where
  pa : Nat
  deriving DecidableEq, Repr

/-- A line stamp that the sweep rewrites (R280). -/
structure SweepReq where
  pkg : Nat
  line : Nat
  deriving DecidableEq, Repr

/-- A segment of an engine command (R324). -/
structure SegRef where
  core : Nat
  cmd : Nat
  seg : Nat
  deriving DecidableEq, Repr

structure SegFail where
  core : Nat
  cmd : Nat
  seg : Nat
  cause : Cause
  addr : Nat
  deriving DecidableEq, Repr

/-- A count event on its way to an anchor (R314), with what its ANCHOR_PHASE notice would name (R325). -/
structure CountEvent where
  core : Nat
  off : Nat
  tag : BitVec 4
  na : Nat
  ns : Nat
  err : Bool
  pitch : BitVec 16
  packet : Bool
  seq : Bool
  strand : BitVec 4
  deriving DecidableEq, Repr

/-- A core and the temperature its sensor reads, in units of 0.25 degrees (R395, R498). -/
structure ThermalRef where
  core : Nat
  temp : Nat
  deriving DecidableEq, Repr

/-- A bin of a grid on a die (R401). -/
structure BinRef where
  grid : BitVec 32
  die : Nat
  bin : Nat
  deriving DecidableEq, Repr

structure GridPkg where
  grid : BitVec 32
  pkg : Nat
  deriving DecidableEq, Repr

/-- A collective packet in flight, by its number. -/
structure PacketRef where
  id : Nat
  deriving DecidableEq, Repr

/-- A packet whose outcome its sender asks for (R428); `sent` says that the query has reached the destination die. -/
structure OutcomeQuery where
  id : Nat
  sent : Bool
  deriving DecidableEq, Repr

/-- One direction of a die-to-die link or of a fabric port, by its number. -/
structure LinkRef where
  link : Nat
  deriving DecidableEq, Repr

/-- The oldest flit on a link's wire reaches the receiver; `ok` says that its CRC passes (R433). -/
structure FlitRecv where
  link : Nat
  ok : Bool
  deriving DecidableEq, Repr

/-- The end of a module's check (R434): whether a failing lane lies in the low half, in the high half. -/
structure ModuleCheck where
  link : Nat
  module : Nat
  low : Bool
  high : Bool
  deriving DecidableEq, Repr

/-- A heartbeat interval of a die ends (a host die as 576 + package); `heard` says that its heartbeat came (R486). -/
structure Heartbeat where
  die : Nat
  heard : Bool
  deriving DecidableEq, Repr

/-- A role (0 rack, 1 + t the tray t) whose holder stopped answering (R468). -/
structure RoleRef where
  role : Nat
  deriving DecidableEq, Repr

/-- The package power averaged over 1 ms, in watts (R499). -/
structure PowerSample where
  pkg : Nat
  watts : Nat
  deriving DecidableEq, Repr

/-- Who writes a register or a mailbox copy (R491): the host on PCI Express link `n` of a package, or its
application cores, or a strand of a privileged grid (R470). -/
inductive HostId where
  | pcie (pkg : Nat) (n : Nat)
  | app (pkg : Nat)
  | device (core : Nat)
  deriving DecidableEq, Repr

/-- A write of a queue or parameter register (R471): who writes, at which package and offset, what. -/
structure RegWrite where
  host : HostId
  pkg : Nat
  off : Nat
  value : Dword
  deriving DecidableEq, Repr

/-- A mailbox request of a host, whose data lie in its mailbox copy (R490, R491). -/
structure MailReq where
  host : HostId
  deriving DecidableEq, Repr

/-- A host access to the second tier of a package, at an offset of it (R495), or of a package's application cores to device memory, at
a physical address (R496, `app`): bytes to write, or none for a read of `len` bytes. -/
structure HostAccess where
  pkg : Nat
  off : Nat
  len : Nat
  data : Option Nat
  app : Bool
  deriving DecidableEq, Repr

/-- A sensor value that the world gives (R498): kind 0 core temperature, 1 die droop count, 2 stack
temperature, 3 die power, 4 package power. -/
structure SensorSample where
  pkg : Nat
  kind : Nat
  index : Nat
  value : Nat
  deriving DecidableEq, Repr

/-- A host link goes down or comes up (R489). -/
structure LinkChange where
  host : HostId
  up : Bool
  deriving DecidableEq, Repr

/-- A command packet as Base Camp holds it after step 1 of R474 (R473): its address, dispatch depth, SEQ, and
the eight doublewords, with bound operands already replaced once step 3 is done. -/
structure Cmd where
  addr : Nat
  depth : Nat
  seq : Nat
  dw0 : Dword
  sem : Dword
  semval : Dword
  dw3 : Dword
  dw4 : Dword
  dw5 : Dword
  dw6 : Dword
  dw7 : Dword
  deriving DecidableEq, Repr

/-- A command that completes (R484): the record's fields. -/
structure CmdResult where
  tag : BitVec 32
  op : BitVec 8
  cause : Cause
  seq : Nat
  result : Dword
  irq : Bool
  deriving DecidableEq, Repr

/-- The steps of the part, one constructor for each row of opcode_table.json. The rows with an encoding are
instructions; the others are steps that no word encodes, which the agenda of the state holds. -/
inductive Instr where
  /-- PACKAGE_COLD_RESET (R497): Package cold reset starts the boot ROMs, resets every register to its reset value, and begins bring-up, which ends with READY set. -/
  | packageColdReset (o : PkgRef)
  /-- ILLEGAL_OPCODE (R93): Issuing a reserved opcode of either half, or lane opcode 0x00, raises ILLEGAL_OPCODE and performs nothing. -/
  | illegalOpcode (o : Words)
  /-- SLEEP_EXPIRY (R167): The sleep count of a slot expires and the slot becomes ready. -/
  | sleepExpiry (o : SlotRef)
  /-- RNGSEED_WRITE (R57): A write of RNGSEED reseeds the stochastic-rounding state of every lane of the strand. -/
  | rngseedWrite (o : SysValue)
  /-- BARCFG_WRITE (R141): A write of BARCFGn sets COUNT and SEQ and reloads PEND with the new expectation. -/
  | barcfgWrite (o : SysValue)
  /-- SCOPE_WRITE (R260): A privileged write of SCOPE7-31 reads the core-set bitmap and sets SET and COVER. -/
  | scopeWrite (o : SysValue)
  /-- WPCTL_WRITE (R263): A write of WPnCTL that sets EN at die scope or wider translates the range and reserves home-slice comparators or sets TCAUSE.WPF. -/
  | wpctlWrite (o : SysValue)
  /-- MATRIX_OP_COMPLETE (R370): A stream operation that took time finishes writing its tile, slot or drain and completes. -/
  | matrixOpComplete (o : CoreItem)
  /-- PRODUCER_WRITEBACK (R131): A producer writes its result and marks its destination full. -/
  | producerWriteback (o : CoreItem)
  /-- TRAP_DELIVERY (R174): The trap unit delivers a fault to the handler, writing the trap record and redirecting the slot to THND. -/
  | trapDelivery (o : StrandRef)
  /-- PARTY_HALT (R507): A halting fault stops the party, drains or stops its engines, writes the inventory and ends the party. -/
  | partyHalt (o : CoreRef)
  /-- DEBUG_HALT (R509): Stops a party without ending it, writes its inventory and holds it until a DEBUG resume. -/
  | debugHalt (o : HaltReq)
  /-- PARTY_END (R114): The party ends when its last strand has ended, its sequencer is Idle and its engine commands have finished; its items retire and its range may return. -/
  | partyEnd (o : CoreRef)
  /-- PARTY_SAVE (R148): Saves a party's context after its producers and engine commands finish. -/
  | partySave (o : CoreRef)
  /-- PAGE_WALK (R227): The walker resolves a TLB miss from the page tables, setting A and D or faulting. -/
  | pageWalk (o : WalkReq)
  /-- FAULT_SERVICE (R238): Base Camp's fault service maps a not-present page from the tables or records the fault in the fault ring. -/
  | faultService (o : FaultReq)
  /-- FAULT_TIMEOUT (R482): A page fault not served within 1 ms of its record becomes fatal. -/
  | faultTimeout (o : FaultRef)
  /-- READ_REQUEST (R270): A home slice takes a load or lease renewal, extends rts and replies with data or a bare renewal. -/
  | readRequest (o : ReadReq)
  /-- READ_RESPONSE (R270): A read response reaches the core, filling the L1 copy and folding wts into pts. -/
  | readResponse (o : ReadResp)
  /-- STORE_DRAIN (R241): A store leaves the store buffer toward its home carrying the core's pts. -/
  | storeDrain (o : CoreItem)
  /-- HOME_STORE (R271): The home applies a store, stamps the line and sends an acknowledgement with wts. -/
  | homeStore (o : StoreMsg)
  /-- STORE_ACKNOWLEDGEMENT (R271): A store acknowledgement reaches the core, updating its copy and clock. -/
  | storeAcknowledgement (o : StoreAck)
  /-- ATOMIC_REQUEST (R272): The home applies an atomic step indivisibly with store stamping and returns the old value. -/
  | atomicRequest (o : AtomMsg)
  /-- ATOMIC_RESPONSE (R440): An atomic response reaches the core; the destination fills when the last lane's response arrives. -/
  | atomicResponse (o : AtomResp)
  /-- ADD_DRAIN_LINE (R377): The home applies one line of an ADD drain as one indivisible step. -/
  | addDrainLine (o : DrainLine)
  /-- TRANSACTION_COMMIT_STEP (R283): The homes lock write lines, choose a commit time, validate read lines, apply writes and unlock. -/
  | transactionCommitStep (o : CommitStep)
  /-- CORE_BACKED_ACCESS (R230): An access to a core-backed page is performed at the named core's scratchpad port. -/
  | coreBackedAccess (o : CoreBacked)
  /-- POISON_DETECT (R285): An uncorrectable ECC error sets the sector poison bits and logs the address. -/
  | poisonDetect (o : EccError)
  /-- DRIFT_TICK (R274): A core clock that has not advanced for DRIFT cycles advances by one tick. -/
  | driftTick (o : CoreRef)
  /-- REBASE (R280): When a clock or stamp reaches 2^23, the controller pauses issue, drops and lowers stamps and clocks, and increments the era. -/
  | rebase (o : PkgRef)
  /-- REBASE_SWEEP (R280): The background sweep rewrites the remaining L2 line stamps of a slice after a rebase. -/
  | rebaseSweep (o : SweepReq)
  /-- SEGMENT_LAND (R297): A copy or engine segment lands at its destination and its sectors become countable. -/
  | segmentLand (o : SegRef)
  /-- SEGMENT_FAIL (R324): A segment fails, its sectors count with ER and a notice goes to q4. -/
  | segmentFail (o : SegFail)
  /-- COPY_COMPLETION (R298): A copy completes, counts its sectors after any release, performs its arrival and advances its pitch. -/
  | copyCompletion (o : CoreItem)
  /-- ANCHOR_COUNT_EVENT (R314): The scratchpad port applies one count event to an anchor as an indivisible read-modify-write. -/
  | anchorCountEvent (o : CountEvent)
  /-- THERMAL_HOLD_ENTER (R395): A core's temperature or droop count puts it on thermal hold and a notice is pushed. -/
  | thermalHoldEnter (o : ThermalRef)
  /-- THERMAL_HOLD_END (R395): A thermal hold ends when the temperature falls below T_LO or HOLDMAX expires. -/
  | thermalHoldEnd (o : ThermalRef)
  /-- DROOP_EVENT (R395): A voltage-droop event on a core is counted in its sliding window. -/
  | droopEvent (o : CoreRef)
  /-- BIN_TIMER_EXPIRY (R406): A bin's timer expires and the bin becomes ready. -/
  | binTimerExpiry (o : BinRef)
  /-- HASHED_STEAL (R394): An idle package in HASHED mode takes half of a sibling's queue after STEALIDLE x 256 cycles. -/
  | hashedSteal (o : GridPkg)
  /-- PACKET_ACCEPT (R424): A waiting collective packet takes its sequence number when its flow's window has room. -/
  | packetAccept (o : PacketRef)
  /-- COLLECTIVE_PACKET (R426): A destination die takes a packet, discarding duplicates, holding out-of-order ones and admitting signalling ones. -/
  | collectivePacket (o : PacketRef)
  /-- PACKET_APPLY (R447): The destination performs a packet's writes, applies its count event and sends the outcome. -/
  | packetApply (o : PacketRef)
  /-- PACKET_OUTCOME (R428): A packet outcome reaches the sender, resolving the packet and pushing any collective notice. -/
  | packetOutcome (o : PacketRef)
  /-- OUTCOME_QUERY_TIMER (R428): A sender with no outcome 8B after acceptance asks the destination for it. -/
  | outcomeQueryTimer (o : OutcomeQuery)
  /-- FLIT_RECEIVE (R433): A link receiver checks a flit's CRC and sequence, delivers its messages and handles acknowledgements and replays. -/
  | flitReceive (o : FlitRecv)
  /-- ACK_TIMEOUT (R433): No acknowledgement of the oldest flit for 2,048 cycles triggers a replay. -/
  | ackTimeout (o : LinkRef)
  /-- MODULE_CHECK_END (R434): A module's 4,096-cycle check ends in its previous state, ACTIVE32 or OFF. -/
  | moduleCheckEnd (o : ModuleCheck)
  /-- HEARTBEAT (R486): Ring neighbours exchange heartbeats every 100 microseconds. -/
  | heartbeat (o : Heartbeat)
  /-- DIE_ADOPTION (R487): After three missed heartbeats the neighbour fences the die, fails its items and takes over its work. -/
  | dieAdoption (o : DieRef)
  /-- ROLE_TAKEOVER (R468): The next package takes a silent role holder's role from its mirror and fails its started commands. -/
  | roleTakeover (o : RoleRef)
  /-- POWER_CAP_CHECK (R499): Averaged package power above PWRCAP gates matrix-array issue. -/
  | powerCapCheck (o : PowerSample)
  /-- NOP_COMMAND (R476): Command NOP does nothing and completes at once. -/
  | nopCommand (o : Cmd)
  /-- LAUNCH (R386): Accepts a grid when enough cores are free and starts its parties. -/
  | launch (o : Cmd)
  /-- PREEMPT (R410): Suspends every party of a grid, or named cores of a MOVABLE grid. -/
  | preempt (o : Cmd)
  /-- RESUME (R410): Resumes a suspended grid on its own cores or on free cores. -/
  | resume (o : Cmd)
  /-- SEMSIG (R476): Waits for earlier commands, then sets or adds to a semaphore. -/
  | semsig (o : Cmd)
  /-- SEMWAIT (R476): Only the semaphore wait of dispatch. -/
  | semwait (o : Cmd)
  /-- IBUF (R480): Runs a buffer of packets one depth deeper in place of the IBUF. -/
  | ibuf (o : Cmd)
  /-- MAPUPDATE (R481): Applies page-table changes across the rack, rereads group descriptors and serves or fails faults. -/
  | mapupdate (o : Cmd)
  /-- HOSTCOPY (R476): Copies bytes with a release at its end. -/
  | hostcopy (o : Cmd)
  /-- TIMESTAMP (R476): Writes the rack time count at start. -/
  | timestamp (o : Cmd)
  /-- DEBUG (R478): Halts or resumes named parties of a grid for debugging, optionally stepping. -/
  | debugCmd (o : Cmd)
  /-- COMMAND_COMPLETION (R484): A command completes and its completion record is written to the ring. -/
  | commandCompletion (o : CmdResult)
  /-- QTAIL_WRITE (R472): A write of QTAIL makes new packets available to dispatch, or is dropped if it overfills the ring. -/
  | qtailWrite (o : RegWrite)
  /-- QBASE_WRITE (R474): A write of QBASE sets the command ring and restarts SEQ at 0. -/
  | qbaseWrite (o : RegWrite)
  /-- QCTL_EN (R471): A write of QCTL.EN starts or stops dequeuing. -/
  | qctlEn (o : RegWrite)
  /-- QCTL_SKIP (R480): A write of QCTL.SKIP writes the halting command's record and resumes dispatch. -/
  | qctlSkip (o : RegWrite)
  /-- CQHEAD_WRITE (R484): A write of CQHEAD frees completion-ring room for waiting records. -/
  | cqheadWrite (o : RegWrite)
  /-- FQHEAD_WRITE (R482): A write of FQHEAD frees fault-ring room for waiting faults. -/
  | fqheadWrite (o : RegWrite)
  /-- COHPARAM_WRITE (R267): A write of LEASE and DRIFT takes effect only while no grid has a party in the package, else it is dropped. -/
  | cohparamWrite (o : RegWrite)
  /-- HOLD_WRITE (R471): A write of HOLD0 or HOLD1 sets thermal-hold parameters unless a grid has a party in the package. -/
  | holdWrite (o : RegWrite)
  /-- REGISTER_WRITE (R471): A write to a queue or parameter register with no behaviour of its own, dropped if out of range or not from the owner. -/
  | registerWrite (o : RegWrite)
  /-- CLAIM (R488): A host places a signed ownership claim against the current challenge. -/
  | claim (o : MailReq)
  /-- CLAIM_WINDOW_EXPIRY (R489): After 10 ms of collecting claims the highest-priority claim becomes owner. -/
  | claimWindowExpiry
  /-- OWNER_LINK_TIMEOUT (R489): The owner loses ownership when its link stays DOWN for 100 ms. -/
  | ownerLinkTimeout
  /-- HANDOVER (R490): The owner hands ownership to a host with a standing claim. -/
  | handover (o : MailReq)
  /-- RELEASE (R490): The owner releases ownership. -/
  | releaseOwner (o : MailReq)
  /-- LOADFW (R492): Loads and checks the firmware bundle and sets the direct HBM size, before READY. -/
  | loadFw (o : MailReq)
  /-- STAGE (R493): Places, measures and checks a new firmware image for one die. -/
  | stageFw (o : MailReq)
  /-- SWITCH (R493): Moves a die's policy core to its staged image at a quiescent point. -/
  | switchFw (o : MailReq)
  /-- ATTEST (R494): Returns a signed report of the executing firmware images. -/
  | attest (o : MailReq)
  /-- RETRAIN (R490): Retrains a named link module or fabric port and returns its state. -/
  | retrain (o : MailReq)
  /-- HOST_MEMORY_ACCESS (R495): A host access to the second tier through CXL.mem is performed at its home as never cached at scope system. -/
  | hostMemoryAccess (o : HostAccess)
  /-- INSTRUCTION_FETCH_FAULT (R71): A slot whose next PC is misaligned, untranslatable, not executable or core-backed takes MISALIGNED_FETCH, FETCH_FAULT or PROTECTION_EXEC at fetch. -/
  | instructionFetchFault (o : FetchFault)
  /-- RESERVED_FIELD (R91): A word with a defined opcode but a fixed or unused field at a wrong value raises RESERVED_FIELD at issue and performs nothing. -/
  | reservedField (o : Words)
  /-- FLIT_START (R432): A link sender starts a flit carrying every waiting message slot as soon as a message waits and the next module in rotation is free. -/
  | flitStart (o : LinkRef)
  /-- HOST_LINK_CHANGE (R489): A PCI Express host link goes DOWN or comes back up, starting or cancelling the owner's 100 ms loss timer. -/
  | hostLinkChange (o : LinkChange)
  /-- SENSOR_REFRESH (R498): The sensor block refreshes core and HBM temperatures and die and package power at their stated intervals. -/
  | sensorRefresh (o : SensorSample)
  /-- LDB (R243): Per-lane byte load, zero-extended; a producer. -/
  | ldb (o : LM)
  /-- LDBS (R243): Per-lane byte load, sign-extended. -/
  | ldbs (o : LM)
  /-- LDH (R243): Per-lane halfword load, zero-extended. -/
  | ldh (o : LM)
  /-- LDHS (R243): Per-lane halfword load, sign-extended. -/
  | ldhs (o : LM)
  /-- LDW (R243): Per-lane word load. -/
  | ldw (o : LM)
  /-- LDD (R243): Per-lane doubleword load into a pair. -/
  | ldd (o : LM)
  /-- LDQ (R243): Per-lane 16-byte load into a quad. -/
  | ldq (o : LM)
  /-- STB (R243): Per-lane byte store. -/
  | stb (o : LM)
  /-- STH (R243): Per-lane halfword store. -/
  | sth (o : LM)
  /-- STW (R243): Per-lane word store. -/
  | stw (o : LM)
  /-- STD (R243): Per-lane doubleword store from a pair. -/
  | std (o : LM)
  /-- STQ (R243): Per-lane 16-byte store from a quad. -/
  | stq (o : LM)
  /-- TAGST (R257): Per-lane write of a 32-byte granule's memory tag. -/
  | tagst (o : LM)
  /-- TAGLD (R257): Per-lane read of a granule's memory tag; a producer. -/
  | tagld (o : LM)
  /-- CPW (R300): Per-lane 4-byte copy from global memory into scratchpad, accepted as one copy command. -/
  | cpw (o : LM)
  /-- CPD (R300): Per-lane 8-byte copy into scratchpad. -/
  | cpd (o : LM)
  /-- CPQ (R300): Per-lane 16-byte copy into scratchpad. -/
  | cpq (o : LM)
  /-- CPWS (R300): Per-lane 4-byte copy from scratchpad to global memory. -/
  | cpws (o : LM)
  /-- CPDS (R300): Per-lane 8-byte copy out of scratchpad. -/
  | cpds (o : LM)
  /-- CPQS (R300): Per-lane 16-byte copy out of scratchpad. -/
  | cpqs (o : LM)
  /-- TBEGIN (R251): Opens the strand's transaction with the lanes of m0 as members. -/
  | tbegin (o : LR)
  /-- TCOMMIT (R254): Settles lane conflicts, commits surviving lanes at their homes and writes the committed-lane mask to md. -/
  | tcommit (o : LC)
  /-- TCANCEL (R255): Discards the write sets of member lanes in m0 and removes them from the transaction. -/
  | tcancel (o : LR)
  /-- ATOM (R248): Per-lane indivisible read-modify-write at the home, returning the old value; a producer. -/
  | atom (o : LL)
  /-- LDO (R249): Ordered load of 32, 64 or 128 bits, optionally followed by an acquire at its scope. -/
  | ldo (o : LL)
  /-- STO (R249): Ordered store, optionally preceded by a release at its scope. -/
  | sto (o : LL)
  /-- CPROW (R303): Each active lane gathers one contiguous row from global memory into scratchpad as one copy command. -/
  | cprow (o : LL)
  /-- XPUT (R449): Per-lane write into group members' regions, optionally signalling their anchors or pushing to their mailboxes, sent as flow packets. -/
  | xput (o : LL)
  /-- XGET (R450): Per-lane read from group members' regions; a producer filled when the last response arrives. -/
  | xget (o : LL)
  /-- XRED (R451): Per-lane indivisible reduction into a member's word, returning nothing. -/
  | xred (o : LL)
  /-- XAMO (R452): Per-lane atomic at a member, returning the old value. -/
  | xamo (o : LL)
  /-- XSIG (R453): Sends one count-only packet of arrivals to each member named by an active lane. -/
  | xsig (o : LL)
  /-- EMIT (R405): Appends each active lane's record to its bin's ring on the die, waiting for free slots. -/
  | emit (o : LL)
  /-- SADD (R154): Uniform wrapping add. -/
  | sadd (o : UR)
  /-- SSUB (R154): Uniform wrapping subtract. -/
  | ssub (o : UR)
  /-- SMUL (R154): Uniform wrapping multiply. -/
  | smul (o : UR)
  /-- SMULH (R154): Uniform high half of the signed product. -/
  | smulh (o : UR)
  /-- SMULHN (R154): Uniform high half of the unsigned product. -/
  | smulhn (o : UR)
  /-- SDIV (R154): Uniform signed division, a producer. -/
  | sdiv (o : UR)
  /-- SDIVN (R154): Uniform unsigned division, a producer. -/
  | sdivn (o : UR)
  /-- SREM (R154): Uniform signed remainder, a producer. -/
  | srem (o : UR)
  /-- SREMN (R154): Uniform unsigned remainder, a producer. -/
  | sremn (o : UR)
  /-- SAND (R154): Uniform bitwise AND. -/
  | sand (o : UR)
  /-- SOR (R154): Uniform bitwise OR. -/
  | sor (o : UR)
  /-- SXOR (R154): Uniform bitwise XOR. -/
  | sxor (o : UR)
  /-- SANDN (R154): Uniform AND with complement. -/
  | sandn (o : UR)
  /-- SSHL (R154): Uniform shift left. -/
  | sshl (o : UR)
  /-- SSHR (R154): Uniform logical shift right. -/
  | sshr (o : UR)
  /-- SSAR (R154): Uniform arithmetic shift right. -/
  | ssar (o : UR)
  /-- SMIN (R154): Uniform signed minimum. -/
  | smin (o : UR)
  /-- SMAX (R154): Uniform signed maximum. -/
  | smax (o : UR)
  /-- SMINN (R154): Uniform unsigned minimum. -/
  | sminn (o : UR)
  /-- SMAXN (R154): Uniform unsigned maximum. -/
  | smaxn (o : UR)
  /-- SCLZ (R154): Uniform count of leading zeros. -/
  | sclz (o : UR)
  /-- SPOP (R154): Uniform population count. -/
  | spop (o : UR)
  /-- SBFX (R155): Uniform bit-field extract. -/
  | sbfx (o : UR)
  /-- SBFI (R155): Uniform bit-field insert into d. -/
  | sbfi (o : UR)
  /-- SCMP (R156): Sets the slot's N, Z, C and V from a minus b. -/
  | scmp (o : UR)
  /-- SSEL (R156): Selects a if the slot's Z is 1, otherwise b. -/
  | ssel (o : UR)
  /-- SMOV (R154): Uniform move. -/
  | smov (o : UR)
  /-- SROT (R154): Uniform rotate left. -/
  | srot (o : UR)
  /-- SADDI (R157): Uniform add of a sign-extended immediate. -/
  | saddi (o : UI)
  /-- SANDI (R157): Uniform AND with an immediate. -/
  | sandi (o : UI)
  /-- SORI (R157): Uniform OR with an immediate. -/
  | sori (o : UI)
  /-- SXORI (R157): Uniform XOR with an immediate. -/
  | sxori (o : UI)
  /-- SSHLI (R157): Uniform shift left by an immediate count. -/
  | sshli (o : UI)
  /-- SSHRI (R157): Uniform logical shift right by an immediate count. -/
  | sshri (o : UI)
  /-- SSARI (R157): Uniform arithmetic shift right by an immediate count. -/
  | ssari (o : UI)
  /-- SCMPI (R157): Sets the slot's flags from a minus an immediate. -/
  | scmpi (o : UI)
  /-- SMULI (R157): Uniform multiply by an immediate. -/
  | smuli (o : UI)
  /-- SCSET (R158): Writes 1 or 0 according to a branch condition of the slot. -/
  | scset (o : UI)
  /-- SLIMZ (R159): Writes a zero-extended 16-bit immediate at chunk h of an s or k register. -/
  | slimz (o : UK)
  /-- SLIMK (R159): Replaces 16-bit chunk h of an s or k register with an immediate. -/
  | slimk (o : UK)
  /-- SLDW (R245): Uniform word load from memory or scratchpad; a producer. -/
  | sldw (o : UI)
  /-- SLDD (R245): Uniform doubleword load; a producer. -/
  | sldd (o : UI)
  /-- SSTW (R245): Uniform word store of d[31:0]. -/
  | sstw (o : UI)
  /-- SSTD (R245): Uniform doubleword store of d. -/
  | sstd (o : UI)
  /-- MAND (R160): 32-bit mask AND. -/
  | mand (o : UR)
  /-- MOR (R160): 32-bit mask OR. -/
  | mor (o : UR)
  /-- MXOR (R160): 32-bit mask XOR. -/
  | mxor (o : UR)
  /-- MANDN (R160): 32-bit mask AND with complement. -/
  | mandn (o : UR)
  /-- MNOT (R160): 32-bit mask complement. -/
  | mnot (o : UR)
  /-- MPOP (R160): Counts the 1 bits of a 32-bit mask. -/
  | mpop (o : UR)
  /-- MFFS (R160): Index of the lowest set bit of a mask, or 32. -/
  | mffs (o : UR)
  /-- MTEST (R161): Sets the slot's flags from a AND b on 32 bits. -/
  | mtest (o : UR)
  /-- BR (R163): Branches by a word offset when the condition holds for the issuing slot. -/
  | br (o : UB)
  /-- JMP (R163): Unconditional branch by a word offset. -/
  | jmp (o : UJ)
  /-- CALL (R163): Branch that writes PC + 4 into s23. -/
  | call (o : UJ)
  /-- JMPR (R164): Jump to the address in a register. -/
  | jmpr (o : UR)
  /-- CALLR (R164): Jump to a register address, writing PC + 4 into s23. -/
  | callr (o : UR)
  /-- RET (R164): Return through a register, s23 by default. -/
  | ret (o : UR)
  /-- SPLIT (R117): Splits the slot's lanes into slots A and B, pushing the other slot to the divergence stack if a pair is live. -/
  | split (o : US)
  /-- JOIN (R118): Waits at the JOIN and merges the slot pair when the other slot joins at the same address or is vacant. -/
  | join (o : UJ)
  /-- BAR (R166): Arrives once at a numbered party barrier with a release and waits for the phase to complete. -/
  | bar (o : UI)
  /-- WAITP (R322): Waits until the named pitch is complete, then acquires at scope party. -/
  | waitp (o : UR)
  /-- PCLOSE (R321): Closes the open pitch, returning its number and opening the next. -/
  | pclose (o : UR)
  /-- ANSET (R319): Sets anchor slot ANCn to an anchor offset. -/
  | anset (o : UR)
  /-- ANWAIT (R319): Waits until the anchor's phase differs from the named one, acquires and writes the status. -/
  | anwait (o : UR)
  /-- ANARR (R319): Releases at scope party and applies an arrival count event to the anchor's current phase. -/
  | anarr (o : UR)
  /-- ANINIT (R319): Initialises an anchor with its expected arrivals and sectors at phase 0. -/
  | aninit (o : UR)
  /-- ANEXP (R319): Adds expected sectors to the anchor's pending count, or takes ANCHOR_OVERFLOW. -/
  | anexp (o : UR)
  /-- FENCE (R250): Advances the clock (CLK kind) or orders the strand's accesses by an acquire, a release or both at a scope. -/
  | fence (o : UI)
  /-- SLEEP (R167): Makes the slot not ready for 16 x n core cycles or until a push to q2 or q4. -/
  | sleep (o : UI)
  /-- YIELD (R168): Marks the slot as most recently issued for every pipe class. -/
  | yield (o : UJ)
  /-- NOP (R168): Has no effect. -/
  | nop (o : UJ)
  /-- WAITF (R169): Holds the slot until a register is full or a queue holds a poppable entry. -/
  | waitf (o : UR)
  /-- FETCH (R398): Obtains the next work item's id from the dispenser or sets EX; a producer. -/
  | fetch (o : UR)
  /-- FETCHB (R407): Waits for a ready bin, claims a batch, writes its descriptor and handle and acquires at scope package. -/
  | fetchb (o : UR)
  /-- WDONE (R400): Retires the open item or batch whose id or handle matches. -/
  | wdone (o : UR)
  /-- SYSRD (R171): Reads a system register. -/
  | sysrd (o : UI)
  /-- SYSWR (R171): Writes the RW and W1C fields of a system register. -/
  | syswr (o : UI)
  /-- TRAP (R176): Raises cause 0x60 + n. -/
  | trap (o : UI)
  /-- ERET (R178): Returns from the handler, restoring PC, m0, flags and the other slot. -/
  | eret (o : UJ)
  /-- BRK (R177): Raises BREAKPOINT. -/
  | brk (o : UI)
  /-- CLKRD (R173): Reads the core's logical clock value CLK. -/
  | clkrd (o : UR)
  /-- END (R170): Ends the issuing strand, or takes JOIN_MISMATCH while a slot pair is live. -/
  | endStrand (o : UJ)
  /-- KADD (R361): Stream register add. -/
  | kadd (o : UR)
  /-- KADDI (R361): Stream register add of an immediate. -/
  | kaddi (o : UI)
  /-- KLIM (R361): Sets the stream loop limit. -/
  | klim (o : UI)
  /-- KLOOP (R361): Increments a k register and branches while it is below the loop limit. -/
  | kloop (o : UI)
  /-- KBAR (R362): Sequencer arrival at a party barrier after its reads and drains, with an optional rope rendezvous. -/
  | kbar (o : UI)
  /-- TZERO (R366): Sets every element of a tile to zero. -/
  | tzero (o : UI)
  /-- MFENCE (R363): Holds stream issue until every earlier stream operation has completed. -/
  | mfence (o : UJ)
  /-- MEND (R364): Moves the sequencer to Idle once earlier stream operations have completed. -/
  | mend (o : UJ)
  /-- CPBOX (R308): Copies a box of up to five dimensions between a tensor in memory and scratchpad, under a tensor descriptor. -/
  | cpbox (o : UL)
  /-- TXA (R464): Transposing all-to-all: sends every element of the local array to its destination rank under a layout map. -/
  | txa (o : UL)
  /-- XFLOW (R457): Opens an ordered or unordered flow with its reservations, or closes a flow after its packets resolve. -/
  | xflow (o : UL)
  /-- MSTART (R357): Releases at scope party, loads k registers and starts the matrix stream. -/
  | mstart (o : UL)
  /-- XABORT (R459): Sends abort packets to every member on the flow and writes the outcome vector. -/
  | xabort (o : UL)
  /-- TAGFILL (R258): Sets the tag of every granule of a range in ascending order. -/
  | tagfill (o : UL)
  /-- TCFG (R337): Checks and installs a tile configuration after any rope rendezvous and clears the accumulator store. -/
  | tcfg (o : UL)
  /-- WLOAD (R368): Copies bytes verbatim into a weight slot, making it valid when all segments land. -/
  | wload (o : UL)
  /-- MMA (R370): Multiplies A and B in chunked order and accumulates into a tile. -/
  | mma (o : UL)
  /-- MMAR (R342): Ragged matrix multiply on an edge core with M, N and K from a k register. -/
  | mmar (o : UL)
  /-- DRAIN (R376): Reads a tile and writes, adds or pushes its converted elements to memory, scratchpad or q1. -/
  | drain (o : UL)
  /-- TLOAD (R373): Writes tile elements from memory with an exact conversion. -/
  | tload (o : UL)
  /-- VADD (R189): Per-lane 32-bit wrapping add. -/
  | vadd (o : LR)
  /-- VSUB (R189): Per-lane 32-bit wrapping subtract. -/
  | vsub (o : LR)
  /-- VADDS (R191): Per-lane signed saturating add. -/
  | vadds (o : LR)
  /-- VSUBS (R191): Per-lane signed saturating subtract. -/
  | vsubs (o : LR)
  /-- VADDSN (R191): Per-lane unsigned saturating add. -/
  | vaddsn (o : LR)
  /-- VSUBSN (R191): Per-lane unsigned saturating subtract. -/
  | vsubsn (o : LR)
  /-- VMUL (R189): Per-lane 32-bit wrapping multiply. -/
  | vmul (o : LR)
  /-- VMULH (R189): Per-lane high 32 bits of the signed product. -/
  | vmulh (o : LR)
  /-- VMULHN (R189): Per-lane high 32 bits of the unsigned product. -/
  | vmulhn (o : LR)
  /-- VMAD (R189): Per-lane multiply and add to d, wrapping. -/
  | vmad (o : LR)
  /-- VDIV (R190): Per-lane signed division, a producer that writes back within 40 cycles. -/
  | vdiv (o : LR)
  /-- VDIVN (R190): Per-lane unsigned division, a producer. -/
  | vdivn (o : LR)
  /-- VREM (R190): Per-lane signed remainder, a producer. -/
  | vrem (o : LR)
  /-- VREMN (R190): Per-lane unsigned remainder, a producer. -/
  | vremn (o : LR)
  /-- VMIN (R189): Per-lane signed minimum. -/
  | vmin (o : LR)
  /-- VMAX (R189): Per-lane signed maximum. -/
  | vmax (o : LR)
  /-- VMINN (R189): Per-lane unsigned minimum. -/
  | vminn (o : LR)
  /-- VMAXN (R189): Per-lane unsigned maximum. -/
  | vmaxn (o : LR)
  /-- VAND (R189): Per-lane bitwise AND. -/
  | vand (o : LR)
  /-- VOR (R189): Per-lane bitwise OR. -/
  | vor (o : LR)
  /-- VXOR (R189): Per-lane bitwise XOR. -/
  | vxor (o : LR)
  /-- VANDN (R189): Per-lane AND with the complement of b. -/
  | vandn (o : LR)
  /-- VSHL (R189): Per-lane shift left by b[4:0]. -/
  | vshl (o : LR)
  /-- VSHR (R189): Per-lane logical shift right by b[4:0]. -/
  | vshr (o : LR)
  /-- VSAR (R189): Per-lane arithmetic shift right by b[4:0]. -/
  | vsar (o : LR)
  /-- VROT (R189): Per-lane rotate left by b[4:0]. -/
  | vrot (o : LR)
  /-- VABS (R189): Per-lane wrapping absolute value. -/
  | vabs (o : LR)
  /-- VNEG (R189): Per-lane wrapping negation. -/
  | vneg (o : LR)
  /-- VCLZ (R189): Per-lane count of leading zeros. -/
  | vclz (o : LR)
  /-- VPOP (R189): Per-lane population count. -/
  | vpop (o : LR)
  /-- VBREV (R189): Per-lane bit reversal. -/
  | vbrev (o : LR)
  /-- VSEL (R189): Per-lane select of a or b by bit i of m7. -/
  | vsel (o : LR)
  /-- VBFXN (R192): Per-lane zero-extended bit-field extract. -/
  | vbfxn (o : LR)
  /-- VBFXS (R192): Per-lane sign-extended bit-field extract. -/
  | vbfxs (o : LR)
  /-- VBFI (R192): Per-lane bit-field insert into d. -/
  | vbfi (o : LR)
  /-- VMOV (R189): Per-lane move. -/
  | vmov (o : LR)
  /-- VMRANK (R193): Each active lane receives the count of lower active lanes whose flag is set. -/
  | vmrank (o : LR)
  /-- VADD64 (R194): Per-lane 64-bit pair add. -/
  | vadd64 (o : LR)
  /-- VSUB64 (R194): Per-lane 64-bit pair subtract. -/
  | vsub64 (o : LR)
  /-- VMUL64 (R194): Per-lane 64-bit pair multiply. -/
  | vmul64 (o : LR)
  /-- VMULW (R194): Per-lane exact signed 32x32 to 64-bit product. -/
  | vmulw (o : LR)
  /-- VMULWN (R194): Per-lane exact unsigned 32x32 to 64-bit product. -/
  | vmulwn (o : LR)
  /-- VSHL64 (R194): Per-lane 64-bit shift left. -/
  | vshl64 (o : LR)
  /-- VSHR64 (R194): Per-lane 64-bit logical shift right. -/
  | vshr64 (o : LR)
  /-- VSAR64 (R194): Per-lane 64-bit arithmetic shift right. -/
  | vsar64 (o : LR)
  /-- VADDI (R195): Per-lane add of a sign-extended immediate. -/
  | vaddi (o : LI)
  /-- VANDI (R195): Per-lane AND with an immediate. -/
  | vandi (o : LI)
  /-- VORI (R195): Per-lane OR with an immediate. -/
  | vori (o : LI)
  /-- VXORI (R195): Per-lane XOR with an immediate. -/
  | vxori (o : LI)
  /-- VSHLI (R195): Per-lane shift left by an immediate count. -/
  | vshli (o : LI)
  /-- VSHRI (R195): Per-lane logical shift right by an immediate count. -/
  | vshri (o : LI)
  /-- VSARI (R195): Per-lane arithmetic shift right by an immediate count. -/
  | vsari (o : LI)
  /-- VMULI (R195): Per-lane multiply by an immediate. -/
  | vmuli (o : LI)
  /-- VROTI (R195): Per-lane rotate left by an immediate amount. -/
  | vroti (o : LI)
  /-- VMOVI (R195): Per-lane move of a sign-extended immediate. -/
  | vmovi (o : LI)
  /-- VCMP (R197): Per-lane 32-bit compare writing a bit of a mask register. -/
  | vcmp (o : LC)
  /-- VCMPI (R197): Per-lane compare with an immediate writing a mask bit. -/
  | vcmpi (o : LCI)
  /-- VCMP64 (R197): Per-lane 64-bit pair compare writing a mask bit. -/
  | vcmp64 (o : LC)
  /-- FCMP_F64 (R210): Per-lane F64 compare writing a mask bit. -/
  | fcmpF64 (o : LC)
  /-- FCMP_F32 (R210): Per-lane F32 compare writing a mask bit. -/
  | fcmpF32 (o : LC)
  /-- FCMP_F16 (R210): Per-lane F16 compare writing a mask bit. -/
  | fcmpF16 (o : LC)
  /-- FCMP_B16 (R210): Per-lane B16 compare writing a mask bit. -/
  | fcmpB16 (o : LC)
  /-- FCLASS (R211): Per-lane test of the operand's class against an immediate class mask, into a mask bit. -/
  | fclass (o : LCI)
  /-- VSHFL (R198): Each lane takes a from the lane named by its b value. -/
  | vshfl (o : LR)
  /-- VXCH (R199): Each lane takes a from lane i XOR n. -/
  | vxch (o : LI)
  /-- VROTL (R199): Each lane takes a from lane (i - n) mod 32. -/
  | vrotl (o : LI)
  /-- VBCAST (R199): Every lane takes a from lane n. -/
  | vbcast (o : LI)
  /-- VSCAN (R200): Segmented inclusive running sum over the active lanes. -/
  | vscan (o : LR)
  /-- VSCANX (R200): Segmented exclusive running sum over the active lanes. -/
  | vscanx (o : LR)
  /-- VREDADD (R201): Wrapping sum over the active lanes, written to every active lane. -/
  | vredadd (o : LR)
  /-- VREDMIN (R201): Signed minimum over the active lanes. -/
  | vredmin (o : LR)
  /-- VREDMAX (R201): Signed maximum over the active lanes. -/
  | vredmax (o : LR)
  /-- VREDMINN (R201): Unsigned minimum over the active lanes. -/
  | vredminn (o : LR)
  /-- VREDMAXN (R201): Unsigned maximum over the active lanes. -/
  | vredmaxn (o : LR)
  /-- VREDAND (R201): AND over the active lanes. -/
  | vredand (o : LR)
  /-- VREDOR (R201): OR over the active lanes. -/
  | vredor (o : LR)
  /-- VREDXOR (R201): XOR over the active lanes. -/
  | vredxor (o : LR)
  /-- FREDADD (R212): Fixed-tree F32 sum over the active lanes, written to every active lane. -/
  | fredadd (o : LR)
  /-- FADD_F64 (R206): Per-lane F64 addition rounded with RNE. -/
  | faddF64 (o : LR)
  /-- FADD_F32 (R206): Per-lane F32 addition. -/
  | faddF32 (o : LR)
  /-- FADD_F16 (R206): Per-lane F16 addition. -/
  | faddF16 (o : LR)
  /-- FADD_B16 (R206): Per-lane B16 addition. -/
  | faddB16 (o : LR)
  /-- FSUB_F64 (R206): Per-lane F64 subtraction. -/
  | fsubF64 (o : LR)
  /-- FSUB_F32 (R206): Per-lane F32 subtraction. -/
  | fsubF32 (o : LR)
  /-- FSUB_F16 (R206): Per-lane F16 subtraction. -/
  | fsubF16 (o : LR)
  /-- FSUB_B16 (R206): Per-lane B16 subtraction. -/
  | fsubB16 (o : LR)
  /-- FMUL_F64 (R206): Per-lane F64 multiplication. -/
  | fmulF64 (o : LR)
  /-- FMUL_F32 (R206): Per-lane F32 multiplication. -/
  | fmulF32 (o : LR)
  /-- FMUL_F16 (R206): Per-lane F16 multiplication. -/
  | fmulF16 (o : LR)
  /-- FMUL_B16 (R206): Per-lane B16 multiplication. -/
  | fmulB16 (o : LR)
  /-- FFMA_F64 (R206): Per-lane F64 fused multiply-add into d, rounded once. -/
  | ffmaF64 (o : LR)
  /-- FFMA_F32 (R206): Per-lane F32 fused multiply-add. -/
  | ffmaF32 (o : LR)
  /-- FFMA_F16 (R206): Per-lane F16 fused multiply-add. -/
  | ffmaF16 (o : LR)
  /-- FFMA_B16 (R206): Per-lane B16 fused multiply-add. -/
  | ffmaB16 (o : LR)
  /-- FNMA_F64 (R206): Per-lane F64 fused d minus a times b. -/
  | fnmaF64 (o : LR)
  /-- FNMA_F32 (R206): Per-lane F32 fused d minus a times b. -/
  | fnmaF32 (o : LR)
  /-- FNMA_F16 (R206): Per-lane F16 fused d minus a times b. -/
  | fnmaF16 (o : LR)
  /-- FNMA_B16 (R206): Per-lane B16 fused d minus a times b. -/
  | fnmaB16 (o : LR)
  /-- FMIN_F64 (R207): Per-lane F64 minimum, -0 below +0. -/
  | fminF64 (o : LR)
  /-- FMIN_F32 (R207): Per-lane F32 minimum. -/
  | fminF32 (o : LR)
  /-- FMIN_F16 (R207): Per-lane F16 minimum. -/
  | fminF16 (o : LR)
  /-- FMIN_B16 (R207): Per-lane B16 minimum. -/
  | fminB16 (o : LR)
  /-- FMAX_F64 (R207): Per-lane F64 maximum. -/
  | fmaxF64 (o : LR)
  /-- FMAX_F32 (R207): Per-lane F32 maximum. -/
  | fmaxF32 (o : LR)
  /-- FMAX_F16 (R207): Per-lane F16 maximum. -/
  | fmaxF16 (o : LR)
  /-- FMAX_B16 (R207): Per-lane B16 maximum. -/
  | fmaxB16 (o : LR)
  /-- FDIV_F64 (R208): Per-lane F64 division, a producer. -/
  | fdivF64 (o : LR)
  /-- FDIV_F32 (R208): Per-lane F32 division, a producer. -/
  | fdivF32 (o : LR)
  /-- FDIV_F16 (R208): Per-lane F16 division, a producer. -/
  | fdivF16 (o : LR)
  /-- FDIV_B16 (R208): Per-lane B16 division, a producer. -/
  | fdivB16 (o : LR)
  /-- FSQRT_F64 (R208): Per-lane F64 square root, a producer. -/
  | fsqrtF64 (o : LR)
  /-- FSQRT_F32 (R208): Per-lane F32 square root, a producer. -/
  | fsqrtF32 (o : LR)
  /-- FSQRT_F16 (R208): Per-lane F16 square root, a producer. -/
  | fsqrtF16 (o : LR)
  /-- FSQRT_B16 (R208): Per-lane B16 square root, a producer. -/
  | fsqrtB16 (o : LR)
  /-- FRCP (R213): Per-lane F32 reciprocal within 1 ulp, a producer. -/
  | frcp (o : LR)
  /-- FRSQ (R213): Per-lane F32 reciprocal square root, a producer. -/
  | frsq (o : LR)
  /-- FEXP2 (R213): Per-lane F32 base-2 exponential, a producer. -/
  | fexp2 (o : LR)
  /-- FLOG2 (R213): Per-lane F32 base-2 logarithm, a producer. -/
  | flog2 (o : LR)
  /-- FSIN (R213): Per-lane F32 sine, a producer. -/
  | fsin (o : LR)
  /-- FCOS (R213): Per-lane F32 cosine, a producer. -/
  | fcos (o : LR)
  /-- FSINCOS (R215): Per-lane F32 sine to d and cosine to d+1, written back together. -/
  | fsincos (o : LR)
  /-- FTANH (R213): Per-lane F32 hyperbolic tangent within 2 ulp, a producer. -/
  | ftanh (o : LR)
  /-- HADD2 (R216): Packed F16 pair addition. -/
  | hadd2 (o : LR)
  /-- HMUL2 (R216): Packed F16 pair multiplication. -/
  | hmul2 (o : LR)
  /-- HFMA2 (R216): Packed F16 pair fused multiply-add into d. -/
  | hfma2 (o : LR)
  /-- BADD2 (R216): Packed B16 pair addition. -/
  | badd2 (o : LR)
  /-- BMUL2 (R216): Packed B16 pair multiplication. -/
  | bmul2 (o : LR)
  /-- BFMA2 (R216): Packed B16 pair fused multiply-add into d. -/
  | bfma2 (o : LR)
  /-- B2PACK (R217): Converts two F32 values to B16 and packs them. -/
  | b2pack (o : LR)
  /-- H2PACK (R217): Converts two F32 values to F16 and packs them. -/
  | h2pack (o : LR)
  /-- FCVT (R219): Per-lane conversion between float and integer types under a named rounding mode. -/
  | fcvt (o : LI)
  /-- NCVT (R221): Per-lane conversion of F32 into a narrow format inserted at a position of d. -/
  | ncvt (o : LI)
  /-- NEXP (R222): Per-lane expansion of a narrow element to F32. -/
  | nexp (o : LI)

  deriving DecidableEq, Repr

end Sys2Proof
end

