-- ==== Sys2Proof/Machine/Roles.lean ====
section
/-!
DEFINITION. Machine/Roles.lean: what each instruction does with its fields: the pipe it issues to (R92), the
operands it reads and the one it writes (R75-R88), the fields that have a fixed value (R82, R85, R87, R91), and
the operand classes that its fields admit (R76-R79, R83-R88).
-/

namespace Sys2Proof

/-- Pipes of R92; an event belongs to none. -/
inductive Pipe where
  | lane | uniform | access | sequencer | event
  deriving DecidableEq, Repr

/-- How a field is read: a lane operand of 32, 64 or 128 bits (R76, R78), any uniform operand (R77), an s register
only, an s register or zr, a v register only, the register WAITF names (R169). -/
inductive SrcKind where
  | l32 | l64 | l128 | uni | sOnly | sZr | vOnly | vZrS | wait
  deriving DecidableEq, Repr

/-- How a field is written: lane results of 32, 64, 128 bits, an FSINCOS pair (R215), a mask md (R83), any uniform
destination (R77), an s register or zr, s0-s21 or zr (a pair follows), s0-s22. -/
inductive DstKind where
  | l32 | l64 | l128 | sincos | mask | uni | sZr | s22Zr | s23
  deriving DecidableEq, Repr

/-- One operand read: its specifier, its kind, its e bit (R81). -/
structure Src where
  spec : BitVec 7
  kind : SrcKind
  e : Bool
  deriving DecidableEq, Repr

/-- The operand written; a producer marks it empty at issue (R131). -/
structure Dst where
  spec : BitVec 7
  kind : DstKind
  producer : Bool
  deriving DecidableEq, Repr

/-- What an instruction does with its fields. `srcs` are in the order of R26. -/
structure Roles where
  pipe : Pipe
  srcs : List Src
  dst : Option Dst
  deriving DecidableEq, Repr

/-- Specifier classes (R75). -/
def isV (r : BitVec 7) : Bool := r.toNat < 88
def isS (r : BitVec 7) : Bool := 88 ≤ r.toNat && r.toNat < 112
def isM (r : BitVec 7) : Bool := 112 ≤ r.toNat && r.toNat < 120
def isQ (r : BitVec 7) : Bool := 120 ≤ r.toNat && r.toNat < 126
/-- The queues of lane class: q0, q1, q5 (R23). -/
def isLaneQ (r : BitVec 7) : Bool := r.toNat == 120 || r.toNat == 121 || r.toNat == 125
/-- The queues of uniform class: q2, q3, q4 (R23). -/
def isUniQ (r : BitVec 7) : Bool := r.toNat == 122 || r.toNat == 123 || r.toNat == 124
/-- zr, specifier 126. -/
abbrev zr : BitVec 7 := 126
/-- The specifier of s register `n`. -/
def sSpec (n : Nat) : BitVec 7 := BitVec.ofNat 7 (88 + n)
/-- The specifier of m register `n`. -/
def mSpec (n : Nat) : BitVec 7 := BitVec.ofNat 7 (112 + n)

/-- R76, R77, R78: the specifiers a source position admits, whatever the strand. -/
def SrcKind.ok : SrcKind → BitVec 7 → Bool
  | .l32, r => !isUniQ r
  | .l64, r => !isQ r && (!isV r || r.toNat % 2 == 0)
  | .l128, r => !isQ r && (!isV r || r.toNat % 4 == 0)
  | .uni, r => !isV r && !isLaneQ r
  | .sOnly, r => isS r
  | .sZr, r => isS r || r == zr
  | .vOnly, r => isV r
  | .vZrS, r => isV r || isS r || r == zr
  | .wait, _ => true

/-- R76-R78, R215, R83: the specifiers a destination position admits; a producer names no queue (R25). -/
def Dst.ok (d : Dst) : Bool :=
  match d.kind with
  | .l32 => isV d.spec || (isM d.spec && d.spec.toNat != 112) || d.spec == zr || (isLaneQ d.spec && !d.producer)
  | .l64 => (isV d.spec && d.spec.toNat % 2 == 0) || d.spec == zr
  | .l128 => (isV d.spec && d.spec.toNat % 4 == 0) || d.spec == zr
  | .sincos => isV d.spec && d.spec.toNat % 2 == 0
  | .mask => isM d.spec && d.spec.toNat != 112
  | .uni => isS d.spec || isM d.spec || d.spec == zr
  | .sZr => isS d.spec || d.spec == zr
  | .s22Zr => (isS d.spec && d.spec.toNat < 110) || d.spec == zr
  | .s23 => isS d.spec && d.spec.toNat < 111

/-- Shapes shared by many instructions. -/
def Src.lane (r : BitVec 7) (e : Bool) : Src := ⟨r, .l32, e⟩
def Src.pair (r : BitVec 7) (e : Bool) : Src := ⟨r, .l64, e⟩
def Src.uni (r : BitVec 7) (e : Bool) : Src := ⟨r, .uni, e⟩
def dstTo (r : BitVec 7) (k : DstKind) : Option Dst := some ⟨r, k, false⟩
def dstProd (r : BitVec 7) (k : DstKind) : Option Dst := some ⟨r, k, true⟩

/-- d ← a, b, all 32 bits per lane. -/
def rLane2 (o : LR) : Roles := ⟨.lane, [.lane o.a o.ea, .lane o.b o.eb], dstTo o.d .l32⟩
/-- d ← a. -/
def rLane1 (o : LR) : Roles := ⟨.lane, [.lane o.a o.ea], dstTo o.d .l32⟩
/-- d ← a, b, d. -/
def rLane3 (o : LR) : Roles := ⟨.lane, [.lane o.a o.ea, .lane o.b o.eb, .lane o.d false], dstTo o.d .l32⟩
/-- A producer d ← a, b. -/
def rLane2P (o : LR) : Roles := ⟨.lane, [.lane o.a o.ea, .lane o.b o.eb], dstProd o.d .l32⟩
/-- A producer d ← a. -/
def rLane1P (o : LR) : Roles := ⟨.lane, [.lane o.a o.ea], dstProd o.d .l32⟩
/-- Pairs: d ← a, b. -/
def rPair2 (o : LR) : Roles := ⟨.lane, [.pair o.a o.ea, .pair o.b o.eb], dstTo o.d .l64⟩
/-- Pairs: d ← a, b, d. -/
def rPair3 (o : LR) : Roles := ⟨.lane, [.pair o.a o.ea, .pair o.b o.eb, .pair o.d false], dstTo o.d .l64⟩
/-- A pair from two 32-bit operands (R194). -/
def rWiden (o : LR) : Roles := ⟨.lane, [.lane o.a o.ea, .lane o.b o.eb], dstTo o.d .l64⟩
/-- A pair shifted by a 32-bit operand (R194). -/
def rPairSh (o : LR) : Roles := ⟨.lane, [.pair o.a o.ea, .lane o.b o.eb], dstTo o.d .l64⟩
/-- A lane immediate form d ← a, imm8. -/
def rLaneI (o : LI) : Roles := ⟨.lane, [.lane o.a o.ea], dstTo o.d .l32⟩
/-- A uniform d ← a, b. -/
def rUni2 (o : UR) : Roles := ⟨.uniform, [.uni o.a o.ea, .uni o.b o.eb], dstTo o.d .uni⟩
/-- A uniform d ← a. -/
def rUni1 (o : UR) : Roles := ⟨.uniform, [.uni o.a o.ea], dstTo o.d .uni⟩
/-- A uniform producer. -/
def rUni2P (o : UR) : Roles := ⟨.uniform, [.uni o.a o.ea, .uni o.b o.eb], dstProd o.d .uni⟩
/-- A uniform immediate form. -/
def rUniI (o : UI) : Roles := ⟨.uniform, [.uni o.a o.ea], dstTo o.d .uni⟩

/-- The base of an address (R84): an s register is read as a source that always blocks; in pair mode the offset
field names a pointer pair. `po` is the offset field. -/
def addrSrcs (b : BitVec 5) (po : BitVec 7) : List Src :=
  if b.toNat < 24 then [.lane po false, ⟨sSpec b.toNat, .sOnly, false⟩]
  else if b.toNat = 25 then [.pair po false]
  else [.lane po false]

/-- The base and offset of a group instruction (R443), whose offset has an e bit. -/
def groupAddr (b : BitVec 5) (po : BitVec 7) (e : Bool) : List Src :=
  if b.toNat = 25 then [.pair po e] else [.lane po e, ⟨sSpec b.toNat, .sOnly, false⟩]

/-- Loads (R83): data register `r` of kind `k`. -/
def rLoad (o : LM) (k : DstKind) : Roles := ⟨.access, addrSrcs o.b o.o, dstProd o.r k⟩
/-- Stores, and copies (`r` is the scratchpad offset, R84): `r` is read first. -/
def rStore (o : LM) (k : SrcKind) : Roles := ⟨.access, ⟨o.r, k, false⟩ :: addrSrcs o.b o.o, none⟩

/-- Lane operand kind of an LL width field (R85). -/
def wdSrc (wd : BitVec 2) : SrcKind := if wd = 0 then .l32 else if wd = 1 then .l64 else .l128
def wdDst (wd : BitVec 2) : DstKind := if wd = 0 then .l32 else if wd = 1 then .l64 else .l128

/-- The types of FCVT (R218): true for a 64-bit type. -/
def cvtWide (t : BitVec 3) : Bool := t = 0 || t = 6 || t = 7
/-- The integer types of FCVT. -/
def cvtInt (t : BitVec 3) : Bool := 4 ≤ t.toNat
/-- Source and destination types of FCVT (R218). -/
def cvtFrom (o : LI) : BitVec 3 := o.imm.extractLsb' 5 3
def cvtTo (o : LI) : BitVec 3 := o.imm.extractLsb' 2 3

/-- CAS, INCW and DECW read c (R246). -/
def atomReadsC (fn : BitVec 6) : Bool := fn = 9 || fn = 12 || fn = 13
/-- INCW and DECW read no a (R246). -/
def atomReadsA (fn : BitVec 6) : Bool := fn != 12 && fn != 13

/-- The roles of every instruction's fields; an event has none. -/
def roles : Instr → Roles
  | .vadd o | .vsub o | .vadds o | .vsubs o | .vaddsn o | .vsubsn o | .vmul o | .vmulh o | .vmulhn o | .vmin o => rLane2 o
  | .vmax o | .vminn o | .vmaxn o | .vand o | .vor o | .vxor o | .vandn o | .vshl o | .vshr o | .vsar o => rLane2 o
  | .vrot o | .vbfxn o | .vbfxs o | .vshfl o | .vscan o | .vscanx o | .faddF32 o | .faddF16 o | .faddB16 o | .fsubF32 o => rLane2 o
  | .fsubF16 o | .fsubB16 o | .fmulF32 o | .fmulF16 o | .fmulB16 o | .fminF32 o | .fminF16 o | .fminB16 o | .fmaxF32 o | .fmaxF16 o => rLane2 o
  | .fmaxB16 o | .hadd2 o | .hmul2 o | .badd2 o | .bmul2 o | .b2pack o | .h2pack o => rLane2 o
  | .vabs o | .vneg o | .vclz o | .vpop o | .vbrev o | .vmov o | .vmrank o | .vredadd o => rLane1 o
  | .vredmin o | .vredmax o | .vredminn o | .vredmaxn o | .vredand o | .vredor o | .vredxor o | .fredadd o => rLane1 o
  | .vmad o | .vbfi o | .ffmaF32 o | .ffmaF16 o | .ffmaB16 o | .fnmaF32 o | .fnmaF16 o | .fnmaB16 o
  | .hfma2 o | .bfma2 o => rLane3 o
  | .vsel o => ⟨.lane, [.lane o.a o.ea, .lane o.b o.eb, ⟨mSpec 7, .l32, false⟩], dstTo o.d .l32⟩
  | .vdiv o | .vdivn o | .vrem o | .vremn o | .fdivF32 o | .fdivF16 o | .fdivB16 o => rLane2P o
  | .fsqrtF32 o | .fsqrtF16 o | .fsqrtB16 o | .frcp o | .frsq o | .fexp2 o | .flog2 o | .fsin o | .fcos o
  | .ftanh o => rLane1P o
  | .fsincos o => ⟨.lane, [.lane o.a o.ea], dstProd o.d .sincos⟩
  | .vadd64 o | .vsub64 o | .vmul64 o | .faddF64 o | .fsubF64 o | .fmulF64 o | .fminF64 o | .fmaxF64 o => rPair2 o
  | .ffmaF64 o | .fnmaF64 o => rPair3 o
  | .fdivF64 o => ⟨.lane, [.pair o.a o.ea, .pair o.b o.eb], dstProd o.d .l64⟩
  | .fsqrtF64 o => ⟨.lane, [.pair o.a o.ea], dstProd o.d .l64⟩
  | .vmulw o | .vmulwn o => rWiden o
  | .vshl64 o | .vshr64 o | .vsar64 o => rPairSh o
  | .vaddi o | .vandi o | .vori o | .vxori o | .vshli o | .vshri o | .vsari o => rLaneI o
  | .vmuli o | .vroti o | .vxch o | .vrotl o | .vbcast o | .nexp o => rLaneI o
  | .vmovi o => ⟨.lane, [], dstTo o.d .l32⟩
  | .ncvt o => ⟨.lane, [.lane o.a o.ea, .lane o.d false], dstTo o.d .l32⟩
  | .fcvt o => ⟨.lane, [⟨o.a, if cvtWide (cvtFrom o) then .l64 else .l32, o.ea⟩],
      dstTo o.d (if cvtWide (cvtTo o) then .l64 else .l32)⟩
  | .vcmp o | .fcmpF32 o | .fcmpF16 o | .fcmpB16 o =>
      ⟨.lane, [.lane o.a o.ea, .lane o.b o.eb], dstTo (mSpec o.md.toNat) .mask⟩
  | .vcmp64 o | .fcmpF64 o => ⟨.lane, [.pair o.a o.ea, .pair o.b o.eb], dstTo (mSpec o.md.toNat) .mask⟩
  | .vcmpi o => ⟨.lane, [.lane o.a o.ea], dstTo (mSpec o.md.toNat) .mask⟩
  | .fclass o => ⟨.lane, [⟨o.a, if o.cc = 0 then .l64 else .l32, o.ea⟩], dstTo (mSpec o.md.toNat) .mask⟩
  -- access instructions of the lane half
  | .ldb o | .ldbs o | .ldh o | .ldhs o | .ldw o | .tagld o => rLoad o .l32
  | .ldd o => rLoad o .l64
  | .ldq o => rLoad o .l128
  | .stb o | .sth o | .stw o | .tagst o | .cpw o | .cpd o | .cpq o | .cpws o | .cpds o | .cpqs o => rStore o .l32
  | .std o => rStore o .l64
  | .stq o => rStore o .l128
  | .tbegin _ | .tcancel _ => ⟨.access, [], none⟩
  | .tcommit o => ⟨.access, [], dstProd (mSpec o.md.toNat) .mask⟩
  | .atom o => ⟨.access, (if atomReadsA o.fn then [⟨o.a, wdSrc o.wd, false⟩] else []) ++ addrSrcs o.b o.o ++
      (if atomReadsC o.fn then [⟨o.c, wdSrc o.wd, false⟩] else []), dstProd o.d (wdDst o.wd)⟩
  | .ldo o => ⟨.access, addrSrcs o.b o.o, dstProd o.d (wdDst o.wd)⟩
  | .sto o => ⟨.access, ⟨o.a, wdSrc o.wd, false⟩ :: addrSrcs o.b o.o, none⟩
  | .cprow o => ⟨.access, ⟨o.a, .sZr, false⟩ :: addrSrcs o.b o.o ++ [⟨o.c, .sZr, false⟩], none⟩
  | .xput o => ⟨.access, ⟨o.a, wdSrc o.wd, o.ea⟩ :: groupAddr o.b o.o o.eb ++ [.lane o.c false], none⟩
  | .xget o => ⟨.access, groupAddr o.b o.o o.eb ++ [.lane o.c false], dstProd o.d (wdDst o.wd)⟩
  | .xred o => ⟨.access, ⟨o.a, wdSrc o.wd, o.ea⟩ :: groupAddr o.b o.o o.eb ++ [.lane o.c false], none⟩
  | .xamo o => ⟨.access, (if atomReadsA o.fn then [⟨o.a, wdSrc o.wd, o.ea⟩] else []) ++ groupAddr o.b o.o o.eb
      ++ [.lane o.c false] ++ (if atomReadsC o.fn && isV o.d then [⟨o.d, wdSrc o.wd, false⟩] else []), dstProd o.d (wdDst o.wd)⟩
  | .xsig o => ⟨.access, .lane o.a o.ea :: groupAddr o.b o.o o.eb ++ [.lane o.c false], none⟩
  | .emit o => ⟨.access, [⟨o.c, .vZrS, false⟩], none⟩
  -- uniform instructions
  | .sadd o | .ssub o | .smul o | .smulh o | .smulhn o | .sand o | .sor o | .sxor o => rUni2 o
  | .sandn o | .sshl o | .sshr o | .ssar o | .smin o | .smax o | .sminn o | .smaxn o => rUni2 o
  | .sbfx o | .ssel o | .srot o | .mand o | .mor o | .mxor o | .mandn o => rUni2 o
  | .sdiv o | .sdivn o | .srem o | .sremn o => rUni2P o
  | .sclz o | .spop o | .smov o | .mnot o | .mpop o | .mffs o => rUni1 o
  | .sbfi o => ⟨.uniform, [.uni o.a o.ea, .uni o.b o.eb, .uni o.d false], dstTo o.d .uni⟩
  | .scmp o | .mtest o => ⟨.uniform, [.uni o.a o.ea, .uni o.b o.eb], none⟩
  | .saddi o | .sandi o | .sori o | .sxori o | .sshli o | .sshri o | .ssari o | .smuli o => rUniI o
  | .scmpi o => ⟨.uniform, [.uni o.a o.ea], none⟩
  | .scset o => ⟨.uniform, [], dstTo o.d .uni⟩
  | .slimz o => ⟨.uniform, [], dstTo (sSpec o.d.toNat) .sZr⟩
  | .slimk o => ⟨.uniform, [⟨sSpec o.d.toNat, .sOnly, false⟩], dstTo (sSpec o.d.toNat) .sZr⟩
  | .sldw o | .sldd o => ⟨.access, [.uni o.a false], dstProd o.d .uni⟩
  | .sstw o | .sstd o => ⟨.access, [.uni o.d false, .uni o.a false], none⟩
  | .br _ | .jmp _ | .join _ | .bar _ | .sleep _ | .yield _ => ⟨.uniform, [], none⟩
  | .nop _ | .trap _ | .eret _ | .brk _ | .endStrand _ => ⟨.uniform, [], none⟩
  | .call _ => ⟨.uniform, [], dstTo (sSpec 23) .sZr⟩
  | .jmpr o | .ret o => ⟨.uniform, [.uni o.a false], none⟩
  | .callr o => ⟨.uniform, [.uni o.a false], dstTo (sSpec 23) .sZr⟩
  | .split o => ⟨.uniform, [⟨mSpec o.m.toNat, .uni, false⟩], none⟩
  | .waitp o => ⟨.access, [.uni o.a o.ea], none⟩
  | .pclose o => ⟨.access, [], dstTo o.d .uni⟩
  | .anset o => ⟨.access, [.uni o.a o.ea], none⟩
  | .anwait o => ⟨.access, [.uni o.a o.ea, .uni o.b o.eb], dstTo o.d .uni⟩
  | .anarr o | .aninit o | .anexp o => ⟨.access, [.uni o.a o.ea, .uni o.b o.eb], none⟩
  | .fence _ => ⟨.access, [], none⟩
  | .waitf o => ⟨.uniform, [⟨o.a, .wait, false⟩], none⟩
  | .fetch o => ⟨.access, [], dstProd o.d .sZr⟩
  | .fetchb o => ⟨.access, [⟨o.a, .sOnly, false⟩], dstProd o.d .sZr⟩
  | .wdone o => ⟨.access, [⟨o.a, .sZr, o.ea⟩], none⟩
  | .sysrd o => ⟨.uniform, [], dstTo o.d .uni⟩
  | .syswr o => ⟨.uniform, [.uni o.a o.ea], none⟩
  | .clkrd o => ⟨.uniform, [], dstTo o.d .uni⟩
  | .kadd _ | .kaddi _ | .klim _ | .kloop _ | .kbar _ | .tzero _ | .mfence _ => ⟨.sequencer, [], none⟩
  | .mend _ | .tcfg _ | .wload _ | .mma _ | .mmar _ | .drain _ | .tload _ => ⟨.sequencer, [], none⟩
  | .cpbox o => ⟨.access, [⟨o.a, .sOnly, false⟩, ⟨o.b, .sOnly, false⟩, ⟨o.d, .sZr, false⟩] ++
      (if isS o.d then [⟨o.d + 1, .sZr, false⟩, ⟨o.d + 2, .sZr, false⟩] else []), none⟩
  | .txa o => ⟨.access, [⟨o.a, .sOnly, false⟩, ⟨o.b, .sOnly, false⟩, ⟨o.d, .sOnly, false⟩, ⟨o.d + 1, .sZr, false⟩], none⟩
  | .xflow o => ⟨.access, [⟨o.a, .sZr, false⟩], dstTo o.d .sZr⟩
  | .mstart o => ⟨.uniform, [⟨o.a, .sOnly, o.ea⟩, ⟨o.b, .sZr, o.eb⟩], none⟩
  | .xabort o => ⟨.access, [⟨o.a, .sOnly, false⟩, ⟨o.b, .sOnly, false⟩], none⟩
  | .tagfill o => ⟨.access, [⟨o.a, .sOnly, false⟩, ⟨o.b, .sOnly, false⟩], none⟩
  | _ => ⟨.event, [], none⟩

/-- A unary LR word leaves b and eb unused (R91). -/
def unaryLR (o : LR) : Bool := o.b == zr && !o.eb
/-- An LR word that uses no register field (R91). -/
def bareLR (o : LR) : Bool := o.d == zr && o.a == zr && o.b == zr && !o.ea && !o.eb
/-- Unused fields of a UR word without word mode (R87). -/
def noX (o : UR) : Bool := !o.x
def unaryUR (o : UR) : Bool := o.b == zr && !o.eb
/-- An immediate form that names no register (R91). -/
def bareUI (o : UI) : Bool := o.d == zr && o.a == zr && !o.ea
/-- Fields shared by LL words: the e bits that R82 fixes, wd = 3 and the flow id (R85). -/
def llNoE (o : LL) : Bool := !o.ea && !o.eb
/-- Word 1 field of a uniform long form. -/
def w1 (o : UL) (hi lo : Nat) : Nat := (o.w1.extractLsb' lo (hi + 1 - lo)).toNat
/-- The fixed part of a uniform long form: no e bit, no X (R82, R87, R91). -/
def ulPlain (o : UL) : Bool := !o.ea && !o.eb && !o.x

/-- R82, R85, R87, R91: every field that the instruction does not use has its fixed value, and no field has a value
that the instruction's description names as RESERVED_FIELD. -/
def reservedOk : Instr → Bool
  | .vabs o | .vneg o | .vclz o | .vpop o | .vbrev o | .vmov o | .vmrank o | .vredadd o | .vredmin o | .vredmax o => unaryLR o
  | .vredminn o | .vredmaxn o | .vredand o | .vredor o | .vredxor o | .fredadd o | .fsqrtF64 o | .fsqrtF32 o | .fsqrtF16 o | .fsqrtB16 o => unaryLR o
  | .frcp o | .frsq o | .fexp2 o | .flog2 o | .fsin o | .fcos o | .fsincos o | .ftanh o => unaryLR o
  | .tbegin o | .tcancel o => bareLR o
  | .vshli o | .vshri o | .vsari o | .vroti o | .vxch o | .vrotl o | .vbcast o => o.imm.extractLsb' 5 3 == 0
  | .vmovi o => o.a == zr && !o.ea
  | .nexp o => o.imm.extractLsb' 0 2 == 0
  | .fcvt o => !(cvtInt (cvtFrom o) && cvtInt (cvtTo o)) || o.imm.extractLsb' 0 2 == 0
  | .fclass o => o.cc.extractLsb' 2 2 == 0
  | .tcommit o => o.cc == 0 && o.a == zr && o.b == zr && !o.ea && !o.eb
  | .tagst o | .tagld o => o.p == 0 && (o.b.toNat != 25 || o.sh == 0)
  | .ldb o | .ldbs o | .ldh o | .ldhs o | .ldw o | .ldd o | .ldq o | .stb o | .sth o => o.b.toNat != 25 || o.sh == 0
  | .stw o | .std o | .stq o | .cpw o | .cpd o | .cpq o | .cpws o | .cpds o | .cpqs o => o.b.toNat != 25 || o.sh == 0
  | .atom o => o.wd != 3 && llNoE o && o.x == 0 && o.fn.toNat ≤ 13
  | .ldo o => o.wd != 3 && llNoE o && o.x == 0 && o.a == zr && o.c == zr && o.fn.toNat ≤ 2
  | .sto o => o.wd != 3 && llNoE o && o.x == 0 && o.d == zr && o.c == zr && o.fn.toNat ≤ 1
  | .cprow o => (o.wd == 0 || o.wd == 2) && llNoE o && o.x == 0 && o.d == zr && o.fn.extractLsb' 3 3 == 0
  | .xput o => o.wd != 3 && o.d == zr && o.fn.toNat ≤ 2 && (o.fn.toNat != 2 || (o.o == zr && !o.eb))
  | .xget o => o.wd != 3 && o.a == zr && !o.ea && o.fn == 0
  | .xred o => o.wd != 3 && o.d == zr && (o.fn.toNat ≤ 7 || o.fn.toNat == 10 || o.fn.toNat == 11)
  | .xamo o => o.wd != 3 && o.fn.toNat ≤ 13 && (atomReadsA o.fn || (o.a == zr && !o.ea))
  | .xsig o => o.wd != 3 && o.d == zr && o.o == zr && !o.eb && o.fn == 0
  | .emit o => o.d == zr && o.o == zr && !o.eb && o.fn == 0 && o.b == 0 && o.scope == 0 && o.ord == 0 && o.wd == 0
      && o.x == 0
  | .sbfx o | .sbfi o | .ssel o | .mand o | .mor o | .mxor o | .mandn o => noX o
  | .smov o | .mnot o | .mpop o | .mffs o => noX o && unaryUR o
  | .sclz o | .spop o => unaryUR o
  | .scmp o => o.d == zr
  | .mtest o => noX o && o.d == zr
  | .jmpr o | .callr o | .ret o => noX o && o.d == zr && !o.ea && unaryUR o
  | .waitp o => noX o && o.d == zr && unaryUR o
  | .pclose o => noX o && o.a == zr && !o.ea && unaryUR o
  | .anset o => noX o && unaryUR o
  | .anwait o => noX o
  | .anarr o | .aninit o | .anexp o => noX o && o.d == zr
  | .waitf o => noX o && o.d == zr && !o.ea && unaryUR o
  | .fetch o => noX o && o.a == zr && !o.ea && unaryUR o
  | .fetchb o => noX o && !o.ea && unaryUR o
  | .wdone o => noX o && o.d == zr && unaryUR o
  | .clkrd o => noX o && o.a == zr && !o.ea && unaryUR o
  | .kadd o => noX o && !o.ea && !o.eb
  | .sshli o | .sshri o | .ssari o => o.imm.extractLsb' 6 3 == 0
  | .scmpi o => o.d == zr
  | .scset o => o.a == zr && !o.ea && o.imm.extractLsb' 5 4 == 0
  | .sldw o | .sldd o | .sstw o | .sstd o => !o.ea
  | .bar o => bareUI o && o.imm.extractLsb' 4 5 == 0
  | .fence o => bareUI o && o.imm.extractLsb' 7 2 == 0
      && (o.imm.extractLsb' 5 2 != 0 || o.imm.extractLsb' 0 5 == 0)
  | .sleep o | .brk o => bareUI o
  | .trap o => bareUI o && o.imm.extractLsb' 5 4 == 0
  | .sysrd o => o.a == zr && !o.ea
  | .syswr o => o.d == zr
  | .kaddi o => !o.ea
  | .klim o => o.d == zr && !o.ea
  | .kloop o => o.a == zr && !o.ea
  | .kbar o | .tzero o => bareUI o && o.imm.extractLsb' 5 4 == 0
  | .slimz o | .slimk o => !o.z
  | .join o | .yield o | .nop o | .eret o | .endStrand o | .mfence o | .mend o => o.off == 0
  | .cpbox o => ulPlain o && w1 o 31 31 == 0 && w1 o 19 0 == 0
  | .txa o => ulPlain o && w1 o 13 0 == 0
  | .xflow o => ulPlain o && o.b == zr && w1 o 31 30 != 3 && w1 o 29 29 == 0 && w1 o 15 0 == 0
      && (w1 o 31 30 != 2 || (o.a == zr && w1 o 23 16 == 0))
  | .mstart o => o.d == zr && !o.x && w1 o 31 8 == 0
  | .xabort o => ulPlain o && o.d == zr && w1 o 22 0 == 0
  | .tagfill o => ulPlain o && o.d == zr && w1 o 31 4 == 0
  | .tcfg o => ulPlain o && o.d == zr && o.b == zr && w1 o 31 0 == 0
  | .wload o => ulPlain o && o.d == zr && w1 o 28 27 == 0 && w1 o 19 0 == 0
  | .mma o => ulPlain o && o.d == zr && w1 o 17 0 == 0 && w1 o 24 18 == 126
  | .mmar o => ulPlain o && o.d == zr && w1 o 17 0 == 0
  | .drain o => ulPlain o && w1 o 4 0 == 0 && w1 o 31 30 != 3 && w1 o 28 27 != 3 && w1 o 14 12 ≤ 4
      && (w1 o 14 12 == 4 || w1 o 11 5 == 126)
  | .tload o => ulPlain o && w1 o 31 30 == 0 && w1 o 28 27 == 0 && w1 o 11 0 == 0 && w1 o 14 12 ≤ 3
  | _ => true

/-- R84, R443: the bases that a group instruction admits. -/
def groupBase (b : BitVec 5) : Bool := b.toNat ≤ 25 && b.toNat != 24

/-- Conditions on a field that raise ILLEGAL_OPERAND whatever the machine's state, beside the classes of the
operands (R83-R85, R88, R97, R196, R209). -/
def fieldOk : Instr → Bool
  | .vcmp o | .vcmp64 o | .fcmpF64 o | .fcmpF32 o | .fcmpF16 o | .fcmpB16 o => o.cc.toNat ≤ 11
  | .vcmpi o => o.cc.toNat ≤ 11
  | .ldb o | .ldbs o | .ldh o | .ldhs o | .ldw o | .ldd o | .ldq o => o.b.toNat ≤ 25 && o.p != 3
  | .stb o | .sth o | .stw o | .std o | .stq o => o.b.toNat ≤ 25 && o.p.toNat ≤ 1
  | .tagst o | .tagld o | .cpw o | .cpd o | .cpq o | .cpws o | .cpds o | .cpqs o => o.b.toNat ≤ 25 && o.b.toNat != 24
  | .atom o => o.b.toNat ≤ 25 && o.wd != 2 && (isV o.d || o.d == zr) && (atomReadsC o.fn || o.c == zr)
      && (atomReadsA o.fn || o.a == zr) && ((o.fn != 10 && o.fn != 11) || o.wd == 0)
  | .ldo o => o.b.toNat ≤ 25 && o.ord.toNat ≤ 1
  | .sto o => o.b.toNat ≤ 25 && (o.ord == 0 || o.ord == 2)
  | .cprow o => o.b.toNat ≤ 25 && o.b.toNat != 24 && o.wd == 0
  | .xput o => groupBase o.b && (o.ord == 0 || o.ord == 2) && (if o.fn = 2 then o.wd == 1 else o.wd != 2)
  | .xget o => groupBase o.b && o.ord.toNat ≤ 1 && o.wd != 2 && (isV o.d || o.d == zr)
  | .xred o => groupBase o.b && (o.ord == 0 || o.ord == 2) && (if o.fn.toNat < 8 then o.wd != 2 else o.wd == 0)
  | .xamo o => groupBase o.b && (isV o.d || o.d == zr) && (if o.fn = 10 || o.fn = 11 then o.wd == 0 else o.wd != 2)
  | .xsig o => groupBase o.b && (o.ord == 0 || o.ord == 2) && o.wd == 0
  | .emit o => isV o.a
  | .txa o => o.d.toNat ≤ 110
  | .xflow o => w1 o 31 30 == 2 || o.a != zr
  | .br o => o.cond.toNat ≤ 18
  | .scset o => o.imm.toNat ≤ 18
  | .split o => o.m != 0
  | .slimz o | .slimk o => o.d.toNat ≤ 23
  | .cpbox o => o.d == zr || o.d.toNat ≤ 109
  | .anset o => o.d.toNat ≤ 3
  | _ => true

/-- R76-R78: every operand lies in a class its position admits. -/
def operandOk (i : Instr) : Bool :=
  (roles i).srcs.all (fun s => s.kind.ok s.spec) && (roles i).dst.all Dst.ok && fieldOk i

end Sys2Proof
end

