-- ==== Sys2Proof/WellFormed.lean ====
section
/-!
DEFINITION. WellFormed.lean: the instructions that no check of decode refuses: every fixed field has its value
(R82, R85, R87, R91) and every operand lies in a class that its position admits (R76-R79, R83-R88). An event is
well formed.
-/

namespace Sys2Proof

/-- No RESERVED_FIELD and no ILLEGAL_OPERAND that the words alone decide. -/
def Instr.wellFormed (i : Instr) : Bool := reservedOk i && operandOk i

end Sys2Proof
end

