-- ==== Sys2Proof/Decode.lean ====
section
/-!
DEFINITION. Decode.lean: the framing of the instruction word (R70), its formats (R83, R85, R86), both opcode maps
(R93, R94), the decoder, total on any words and rejecting by name, and the encoder written from the same tables.
-/

namespace Sys2Proof

/-- What decode finds at a PC: an instruction, or a word it rejects by name (R93, R94, R91). -/
inductive Decoded where
  | instr (i : Instr)
  | illegalOpcode
  | reservedField
  deriving DecidableEq, Repr

/-- R70: bit [31] of word 0. -/
def halfBit (w : Word) : Bool := w.getLsbD 31
/-- R70: the opcode of either half. -/
def opcodeOf (w : Word) : Nat := if halfBit w then (w.extractLsb' 24 7).toNat else (w.extractLsb' 23 8).toNat
/-- R70: the opcode alone decides the length; reserved long opcodes count as two words. -/
def isLong (w : Word) : Bool := if halfBit w then 0x70 ≤ opcodeOf w else 0xF0 ≤ opcodeOf w
/-- R70: bytes of the instruction that begins with `w`. -/
def lengthOf (w : Word) : Nat := if isLong w then 8 else 4

/-- The fields of each format (R83, R85, R86). -/
def unpackLR (w : Word) : LR :=
  ⟨w.extractLsb' 16 7, w.extractLsb' 9 7, w.extractLsb' 2 7, w.getLsbD 1, w.getLsbD 0⟩
def unpackLI (w : Word) : LI := ⟨w.extractLsb' 16 7, w.extractLsb' 9 7, w.getLsbD 8, w.extractLsb' 0 8⟩
def unpackLC (w : Word) : LC :=
  ⟨w.extractLsb' 20 3, w.extractLsb' 16 4, w.extractLsb' 9 7, w.extractLsb' 2 7, w.getLsbD 1, w.getLsbD 0⟩
def unpackLCI (w : Word) : LCI :=
  ⟨w.extractLsb' 20 3, w.extractLsb' 16 4, w.extractLsb' 9 7, w.getLsbD 8, w.extractLsb' 0 8⟩
def unpackLM (w : Word) : LM :=
  ⟨w.extractLsb' 16 7, w.extractLsb' 9 7, w.extractLsb' 4 5, w.extractLsb' 2 2, w.extractLsb' 0 2⟩
def unpackLL (w v : Word) : LL :=
  ⟨w.extractLsb' 16 7, w.extractLsb' 9 7, w.extractLsb' 2 7, w.getLsbD 1, w.getLsbD 0, v.extractLsb' 26 6,
    v.extractLsb' 21 5, v.extractLsb' 16 5, v.extractLsb' 14 2, v.extractLsb' 12 2, v.extractLsb' 5 7,
    v.extractLsb' 0 5⟩
def unpackUR (w : Word) : UR :=
  ⟨w.extractLsb' 17 7, w.extractLsb' 10 7, w.extractLsb' 3 7, w.getLsbD 2, w.getLsbD 1, w.getLsbD 0⟩
def unpackUI (w : Word) : UI := ⟨w.extractLsb' 17 7, w.extractLsb' 10 7, w.getLsbD 9, w.extractLsb' 0 9⟩
def unpackUK (w : Word) : UK := ⟨w.extractLsb' 19 5, w.getLsbD 18, w.extractLsb' 16 2, w.extractLsb' 0 16⟩
def unpackUB (w : Word) : UB := ⟨w.extractLsb' 19 5, w.extractLsb' 0 19⟩
def unpackUJ (w : Word) : UJ := ⟨w.extractLsb' 0 24⟩
def unpackUS (w : Word) : US := ⟨w.extractLsb' 21 3, w.extractLsb' 0 21⟩
def unpackUL (w v : Word) : UL :=
  ⟨w.extractLsb' 17 7, w.extractLsb' 10 7, w.extractLsb' 3 7, w.getLsbD 2, w.getLsbD 1, w.getLsbD 0, v⟩

/-- The words of each format, most significant field first, as the bit rulers of R83, R85 and R86 draw them. -/
def packLR (op : BitVec 8) (o : LR) : Word := 0#1 ++ op ++ o.d ++ o.a ++ o.b ++ bit1 o.ea ++ bit1 o.eb
def packLI (op : BitVec 8) (o : LI) : Word := 0#1 ++ op ++ o.d ++ o.a ++ bit1 o.ea ++ o.imm
def packLC (op : BitVec 8) (o : LC) : Word :=
  0#1 ++ op ++ o.md ++ o.cc ++ o.a ++ o.b ++ bit1 o.ea ++ bit1 o.eb
def packLCI (op : BitVec 8) (o : LCI) : Word := 0#1 ++ op ++ o.md ++ o.cc ++ o.a ++ bit1 o.ea ++ o.imm
def packLM (op : BitVec 8) (o : LM) : Word := 0#1 ++ op ++ o.r ++ o.o ++ o.b ++ o.p ++ o.sh
def packLL0 (op : BitVec 8) (o : LL) : Word := 0#1 ++ op ++ o.d ++ o.a ++ o.o ++ bit1 o.ea ++ bit1 o.eb
def packLL1 (o : LL) : Word := o.fn ++ o.b ++ o.scope ++ o.ord ++ o.wd ++ o.c ++ o.x
def packUR (op : BitVec 7) (o : UR) : Word :=
  1#1 ++ op ++ o.d ++ o.a ++ o.b ++ bit1 o.ea ++ bit1 o.eb ++ bit1 o.x
def packUI (op : BitVec 7) (o : UI) : Word := 1#1 ++ op ++ o.d ++ o.a ++ bit1 o.ea ++ o.imm
def packUK (op : BitVec 7) (o : UK) : Word := 1#1 ++ op ++ o.d ++ bit1 o.z ++ o.h ++ o.imm
def packUB (op : BitVec 7) (o : UB) : Word := 1#1 ++ op ++ o.cond ++ o.off
def packUJ (op : BitVec 7) (o : UJ) : Word := 1#1 ++ op ++ o.off
def packUS (op : BitVec 7) (o : US) : Word := 1#1 ++ op ++ o.m ++ o.off
def packUL0 (op : BitVec 7) (o : UL) : Word :=
  1#1 ++ op ++ o.d ++ o.a ++ o.b ++ bit1 o.ea ++ bit1 o.eb ++ bit1 o.x

/-- The lane opcode map (R93), part 1. -/
noncomputable def laneTable1 : List (Nat × (Word → Word → Instr)) := [
  (0x01, fun w _ => .vadd (unpackLR w)),
  (0x02, fun w _ => .vsub (unpackLR w)),
  (0x03, fun w _ => .vadds (unpackLR w)),
  (0x04, fun w _ => .vsubs (unpackLR w)),
  (0x05, fun w _ => .vaddsn (unpackLR w)),
  (0x06, fun w _ => .vsubsn (unpackLR w)),
  (0x07, fun w _ => .vmul (unpackLR w)),
  (0x08, fun w _ => .vmulh (unpackLR w)),
  (0x09, fun w _ => .vmulhn (unpackLR w)),
  (0x0A, fun w _ => .vmad (unpackLR w)),
  (0x0B, fun w _ => .vdiv (unpackLR w)),
  (0x0C, fun w _ => .vdivn (unpackLR w)),
  (0x0D, fun w _ => .vrem (unpackLR w)),
  (0x0E, fun w _ => .vremn (unpackLR w)),
  (0x0F, fun w _ => .vmin (unpackLR w)),
  (0x10, fun w _ => .vmax (unpackLR w)),
  (0x11, fun w _ => .vminn (unpackLR w)),
  (0x12, fun w _ => .vmaxn (unpackLR w)),
  (0x13, fun w _ => .vand (unpackLR w)),
  (0x14, fun w _ => .vor (unpackLR w)),
  (0x15, fun w _ => .vxor (unpackLR w)),
  (0x16, fun w _ => .vandn (unpackLR w)),
  (0x17, fun w _ => .vshl (unpackLR w)),
  (0x18, fun w _ => .vshr (unpackLR w)),
  (0x19, fun w _ => .vsar (unpackLR w)),
  (0x1A, fun w _ => .vrot (unpackLR w)),
  (0x1B, fun w _ => .vabs (unpackLR w)),
  (0x1C, fun w _ => .vneg (unpackLR w)),
  (0x1D, fun w _ => .vclz (unpackLR w)),
  (0x1E, fun w _ => .vpop (unpackLR w)),
  (0x1F, fun w _ => .vbrev (unpackLR w)),
  (0x20, fun w _ => .vsel (unpackLR w))]

/-- The lane opcode map (R93), part 2. -/
noncomputable def laneTable2 : List (Nat × (Word → Word → Instr)) := [
  (0x21, fun w _ => .vbfxn (unpackLR w)),
  (0x22, fun w _ => .vbfxs (unpackLR w)),
  (0x23, fun w _ => .vbfi (unpackLR w)),
  (0x24, fun w _ => .vmov (unpackLR w)),
  (0x25, fun w _ => .vmrank (unpackLR w)),
  (0x30, fun w _ => .vadd64 (unpackLR w)),
  (0x31, fun w _ => .vsub64 (unpackLR w)),
  (0x32, fun w _ => .vmul64 (unpackLR w)),
  (0x33, fun w _ => .vmulw (unpackLR w)),
  (0x34, fun w _ => .vmulwn (unpackLR w)),
  (0x35, fun w _ => .vshl64 (unpackLR w)),
  (0x36, fun w _ => .vshr64 (unpackLR w)),
  (0x37, fun w _ => .vsar64 (unpackLR w)),
  (0x40, fun w _ => .vaddi (unpackLI w)),
  (0x41, fun w _ => .vandi (unpackLI w)),
  (0x42, fun w _ => .vori (unpackLI w)),
  (0x43, fun w _ => .vxori (unpackLI w)),
  (0x44, fun w _ => .vshli (unpackLI w)),
  (0x45, fun w _ => .vshri (unpackLI w)),
  (0x46, fun w _ => .vsari (unpackLI w)),
  (0x47, fun w _ => .vmuli (unpackLI w)),
  (0x48, fun w _ => .vroti (unpackLI w)),
  (0x49, fun w _ => .vmovi (unpackLI w)),
  (0x50, fun w _ => .vcmp (unpackLC w)),
  (0x51, fun w _ => .vcmpi (unpackLCI w)),
  (0x52, fun w _ => .vcmp64 (unpackLC w)),
  (0x53, fun w _ => .fcmpF64 (unpackLC w)),
  (0x54, fun w _ => .fcmpF32 (unpackLC w)),
  (0x55, fun w _ => .fcmpF16 (unpackLC w)),
  (0x56, fun w _ => .fcmpB16 (unpackLC w)),
  (0x57, fun w _ => .fclass (unpackLCI w)),
  (0x60, fun w _ => .vshfl (unpackLR w))]

/-- The lane opcode map (R93), part 3. -/
noncomputable def laneTable3 : List (Nat × (Word → Word → Instr)) := [
  (0x61, fun w _ => .vxch (unpackLI w)),
  (0x62, fun w _ => .vrotl (unpackLI w)),
  (0x63, fun w _ => .vbcast (unpackLI w)),
  (0x64, fun w _ => .vscan (unpackLR w)),
  (0x65, fun w _ => .vscanx (unpackLR w)),
  (0x66, fun w _ => .vredadd (unpackLR w)),
  (0x67, fun w _ => .vredmin (unpackLR w)),
  (0x68, fun w _ => .vredmax (unpackLR w)),
  (0x69, fun w _ => .vredminn (unpackLR w)),
  (0x6A, fun w _ => .vredmaxn (unpackLR w)),
  (0x6B, fun w _ => .vredand (unpackLR w)),
  (0x6C, fun w _ => .vredor (unpackLR w)),
  (0x6D, fun w _ => .vredxor (unpackLR w)),
  (0x6E, fun w _ => .fredadd (unpackLR w)),
  (0x70, fun w _ => .faddF64 (unpackLR w)),
  (0x71, fun w _ => .faddF32 (unpackLR w)),
  (0x72, fun w _ => .faddF16 (unpackLR w)),
  (0x73, fun w _ => .faddB16 (unpackLR w)),
  (0x74, fun w _ => .fsubF64 (unpackLR w)),
  (0x75, fun w _ => .fsubF32 (unpackLR w)),
  (0x76, fun w _ => .fsubF16 (unpackLR w)),
  (0x77, fun w _ => .fsubB16 (unpackLR w)),
  (0x78, fun w _ => .fmulF64 (unpackLR w)),
  (0x79, fun w _ => .fmulF32 (unpackLR w)),
  (0x7A, fun w _ => .fmulF16 (unpackLR w)),
  (0x7B, fun w _ => .fmulB16 (unpackLR w)),
  (0x7C, fun w _ => .ffmaF64 (unpackLR w)),
  (0x7D, fun w _ => .ffmaF32 (unpackLR w)),
  (0x7E, fun w _ => .ffmaF16 (unpackLR w)),
  (0x7F, fun w _ => .ffmaB16 (unpackLR w)),
  (0x80, fun w _ => .fnmaF64 (unpackLR w)),
  (0x81, fun w _ => .fnmaF32 (unpackLR w))]

/-- The lane opcode map (R93), part 4. -/
noncomputable def laneTable4 : List (Nat × (Word → Word → Instr)) := [
  (0x82, fun w _ => .fnmaF16 (unpackLR w)),
  (0x83, fun w _ => .fnmaB16 (unpackLR w)),
  (0x84, fun w _ => .fminF64 (unpackLR w)),
  (0x85, fun w _ => .fminF32 (unpackLR w)),
  (0x86, fun w _ => .fminF16 (unpackLR w)),
  (0x87, fun w _ => .fminB16 (unpackLR w)),
  (0x88, fun w _ => .fmaxF64 (unpackLR w)),
  (0x89, fun w _ => .fmaxF32 (unpackLR w)),
  (0x8A, fun w _ => .fmaxF16 (unpackLR w)),
  (0x8B, fun w _ => .fmaxB16 (unpackLR w)),
  (0x8C, fun w _ => .fdivF64 (unpackLR w)),
  (0x8D, fun w _ => .fdivF32 (unpackLR w)),
  (0x8E, fun w _ => .fdivF16 (unpackLR w)),
  (0x8F, fun w _ => .fdivB16 (unpackLR w)),
  (0x90, fun w _ => .fsqrtF64 (unpackLR w)),
  (0x91, fun w _ => .fsqrtF32 (unpackLR w)),
  (0x92, fun w _ => .fsqrtF16 (unpackLR w)),
  (0x93, fun w _ => .fsqrtB16 (unpackLR w)),
  (0x94, fun w _ => .frcp (unpackLR w)),
  (0x95, fun w _ => .frsq (unpackLR w)),
  (0x96, fun w _ => .fexp2 (unpackLR w)),
  (0x97, fun w _ => .flog2 (unpackLR w)),
  (0x98, fun w _ => .fsin (unpackLR w)),
  (0x99, fun w _ => .fcos (unpackLR w)),
  (0x9A, fun w _ => .fsincos (unpackLR w)),
  (0x9B, fun w _ => .ftanh (unpackLR w)),
  (0xA0, fun w _ => .hadd2 (unpackLR w)),
  (0xA1, fun w _ => .hmul2 (unpackLR w)),
  (0xA2, fun w _ => .hfma2 (unpackLR w)),
  (0xA3, fun w _ => .badd2 (unpackLR w)),
  (0xA4, fun w _ => .bmul2 (unpackLR w)),
  (0xA5, fun w _ => .bfma2 (unpackLR w))]

/-- The lane opcode map (R93), part 5. -/
noncomputable def laneTable5 : List (Nat × (Word → Word → Instr)) := [
  (0xA6, fun w _ => .b2pack (unpackLR w)),
  (0xA7, fun w _ => .h2pack (unpackLR w)),
  (0xA8, fun w _ => .fcvt (unpackLI w)),
  (0xA9, fun w _ => .ncvt (unpackLI w)),
  (0xAA, fun w _ => .nexp (unpackLI w)),
  (0xB0, fun w _ => .ldb (unpackLM w)),
  (0xB1, fun w _ => .ldbs (unpackLM w)),
  (0xB2, fun w _ => .ldh (unpackLM w)),
  (0xB3, fun w _ => .ldhs (unpackLM w)),
  (0xB4, fun w _ => .ldw (unpackLM w)),
  (0xB5, fun w _ => .ldd (unpackLM w)),
  (0xB6, fun w _ => .ldq (unpackLM w)),
  (0xB8, fun w _ => .stb (unpackLM w)),
  (0xB9, fun w _ => .sth (unpackLM w)),
  (0xBA, fun w _ => .stw (unpackLM w)),
  (0xBB, fun w _ => .std (unpackLM w)),
  (0xBC, fun w _ => .stq (unpackLM w)),
  (0xBD, fun w _ => .tagst (unpackLM w)),
  (0xBE, fun w _ => .tagld (unpackLM w)),
  (0xC0, fun w _ => .cpw (unpackLM w)),
  (0xC1, fun w _ => .cpd (unpackLM w)),
  (0xC2, fun w _ => .cpq (unpackLM w)),
  (0xC3, fun w _ => .cpws (unpackLM w)),
  (0xC4, fun w _ => .cpds (unpackLM w)),
  (0xC5, fun w _ => .cpqs (unpackLM w)),
  (0xC8, fun w _ => .tbegin (unpackLR w)),
  (0xC9, fun w _ => .tcommit (unpackLC w)),
  (0xCA, fun w _ => .tcancel (unpackLR w)),
  (0xF0, fun w v => .atom (unpackLL w v)),
  (0xF1, fun w v => .ldo (unpackLL w v)),
  (0xF2, fun w v => .sto (unpackLL w v)),
  (0xF3, fun w v => .cprow (unpackLL w v))]

/-- The lane opcode map (R93), part 6. -/
noncomputable def laneTable6 : List (Nat × (Word → Word → Instr)) := [
  (0xF4, fun w v => .xput (unpackLL w v)),
  (0xF5, fun w v => .xget (unpackLL w v)),
  (0xF6, fun w v => .xred (unpackLL w v)),
  (0xF7, fun w v => .xamo (unpackLL w v)),
  (0xF8, fun w v => .xsig (unpackLL w v)),
  (0xF9, fun w v => .emit (unpackLL w v))]

/-- The lane opcode map (R93). -/
noncomputable def laneTable : List (Nat × (Word → Word → Instr)) := laneTable1 ++ laneTable2 ++ laneTable3 ++ laneTable4 ++ laneTable5 ++ laneTable6

/-- The uniform opcode map (R94), part 1. -/
noncomputable def uniformTable1 : List (Nat × (Word → Word → Instr)) := [
  (0x00, fun w _ => .sadd (unpackUR w)),
  (0x01, fun w _ => .ssub (unpackUR w)),
  (0x02, fun w _ => .smul (unpackUR w)),
  (0x03, fun w _ => .smulh (unpackUR w)),
  (0x04, fun w _ => .smulhn (unpackUR w)),
  (0x05, fun w _ => .sdiv (unpackUR w)),
  (0x06, fun w _ => .sdivn (unpackUR w)),
  (0x07, fun w _ => .srem (unpackUR w)),
  (0x08, fun w _ => .sremn (unpackUR w)),
  (0x09, fun w _ => .sand (unpackUR w)),
  (0x0A, fun w _ => .sor (unpackUR w)),
  (0x0B, fun w _ => .sxor (unpackUR w)),
  (0x0C, fun w _ => .sandn (unpackUR w)),
  (0x0D, fun w _ => .sshl (unpackUR w)),
  (0x0E, fun w _ => .sshr (unpackUR w)),
  (0x0F, fun w _ => .ssar (unpackUR w)),
  (0x10, fun w _ => .smin (unpackUR w)),
  (0x11, fun w _ => .smax (unpackUR w)),
  (0x12, fun w _ => .sminn (unpackUR w)),
  (0x13, fun w _ => .smaxn (unpackUR w)),
  (0x14, fun w _ => .sclz (unpackUR w)),
  (0x15, fun w _ => .spop (unpackUR w)),
  (0x16, fun w _ => .sbfx (unpackUR w)),
  (0x17, fun w _ => .sbfi (unpackUR w)),
  (0x18, fun w _ => .scmp (unpackUR w)),
  (0x19, fun w _ => .ssel (unpackUR w)),
  (0x1A, fun w _ => .smov (unpackUR w)),
  (0x1B, fun w _ => .srot (unpackUR w)),
  (0x20, fun w _ => .saddi (unpackUI w)),
  (0x21, fun w _ => .sandi (unpackUI w)),
  (0x22, fun w _ => .sori (unpackUI w)),
  (0x23, fun w _ => .sxori (unpackUI w))]

/-- The uniform opcode map (R94), part 2. -/
noncomputable def uniformTable2 : List (Nat × (Word → Word → Instr)) := [
  (0x24, fun w _ => .sshli (unpackUI w)),
  (0x25, fun w _ => .sshri (unpackUI w)),
  (0x26, fun w _ => .ssari (unpackUI w)),
  (0x27, fun w _ => .scmpi (unpackUI w)),
  (0x28, fun w _ => .smuli (unpackUI w)),
  (0x29, fun w _ => .scset (unpackUI w)),
  (0x2A, fun w _ => .slimz (unpackUK w)),
  (0x2B, fun w _ => .slimk (unpackUK w)),
  (0x2C, fun w _ => .sldw (unpackUI w)),
  (0x2D, fun w _ => .sldd (unpackUI w)),
  (0x2E, fun w _ => .sstw (unpackUI w)),
  (0x2F, fun w _ => .sstd (unpackUI w)),
  (0x30, fun w _ => .mand (unpackUR w)),
  (0x31, fun w _ => .mor (unpackUR w)),
  (0x32, fun w _ => .mxor (unpackUR w)),
  (0x33, fun w _ => .mandn (unpackUR w)),
  (0x34, fun w _ => .mnot (unpackUR w)),
  (0x35, fun w _ => .mpop (unpackUR w)),
  (0x36, fun w _ => .mffs (unpackUR w)),
  (0x37, fun w _ => .mtest (unpackUR w)),
  (0x40, fun w _ => .br (unpackUB w)),
  (0x41, fun w _ => .jmp (unpackUJ w)),
  (0x42, fun w _ => .call (unpackUJ w)),
  (0x43, fun w _ => .jmpr (unpackUR w)),
  (0x44, fun w _ => .callr (unpackUR w)),
  (0x45, fun w _ => .ret (unpackUR w)),
  (0x46, fun w _ => .split (unpackUS w)),
  (0x47, fun w _ => .join (unpackUJ w)),
  (0x50, fun w _ => .bar (unpackUI w)),
  (0x51, fun w _ => .waitp (unpackUR w)),
  (0x52, fun w _ => .pclose (unpackUR w)),
  (0x53, fun w _ => .anset (unpackUR w))]

/-- The uniform opcode map (R94), part 3. -/
noncomputable def uniformTable3 : List (Nat × (Word → Word → Instr)) := [
  (0x54, fun w _ => .anwait (unpackUR w)),
  (0x55, fun w _ => .anarr (unpackUR w)),
  (0x56, fun w _ => .aninit (unpackUR w)),
  (0x57, fun w _ => .anexp (unpackUR w)),
  (0x58, fun w _ => .fence (unpackUI w)),
  (0x59, fun w _ => .sleep (unpackUI w)),
  (0x5A, fun w _ => .yield (unpackUJ w)),
  (0x5B, fun w _ => .nop (unpackUJ w)),
  (0x5C, fun w _ => .waitf (unpackUR w)),
  (0x5D, fun w _ => .fetch (unpackUR w)),
  (0x5E, fun w _ => .fetchb (unpackUR w)),
  (0x5F, fun w _ => .wdone (unpackUR w)),
  (0x60, fun w _ => .sysrd (unpackUI w)),
  (0x61, fun w _ => .syswr (unpackUI w)),
  (0x62, fun w _ => .trap (unpackUI w)),
  (0x63, fun w _ => .eret (unpackUJ w)),
  (0x64, fun w _ => .brk (unpackUI w)),
  (0x65, fun w _ => .clkrd (unpackUR w)),
  (0x66, fun w _ => .endStrand (unpackUJ w)),
  (0x68, fun w _ => .kadd (unpackUR w)),
  (0x69, fun w _ => .kaddi (unpackUI w)),
  (0x6A, fun w _ => .klim (unpackUI w)),
  (0x6B, fun w _ => .kloop (unpackUI w)),
  (0x6C, fun w _ => .kbar (unpackUI w)),
  (0x6D, fun w _ => .tzero (unpackUI w)),
  (0x6E, fun w _ => .mfence (unpackUJ w)),
  (0x6F, fun w _ => .mend (unpackUJ w)),
  (0x70, fun w v => .cpbox (unpackUL w v)),
  (0x71, fun w v => .txa (unpackUL w v)),
  (0x72, fun w v => .xflow (unpackUL w v)),
  (0x73, fun w v => .mstart (unpackUL w v)),
  (0x74, fun w v => .xabort (unpackUL w v))]

/-- The uniform opcode map (R94), part 4. -/
noncomputable def uniformTable4 : List (Nat × (Word → Word → Instr)) := [
  (0x75, fun w v => .tagfill (unpackUL w v)),
  (0x78, fun w v => .tcfg (unpackUL w v)),
  (0x79, fun w v => .wload (unpackUL w v)),
  (0x7A, fun w v => .mma (unpackUL w v)),
  (0x7B, fun w v => .mmar (unpackUL w v)),
  (0x7C, fun w v => .drain (unpackUL w v)),
  (0x7D, fun w v => .tload (unpackUL w v))]

/-- The uniform opcode map (R94). -/
noncomputable def uniformTable : List (Nat × (Word → Word → Instr)) := uniformTable1 ++ uniformTable2 ++ uniformTable3 ++ uniformTable4

/-- The words of an instruction, first word first; an event has none. -/
def encode : Instr → List Word
  | .vadd o => [packLR 0x01 o]
  | .vsub o => [packLR 0x02 o]
  | .vadds o => [packLR 0x03 o]
  | .vsubs o => [packLR 0x04 o]
  | .vaddsn o => [packLR 0x05 o]
  | .vsubsn o => [packLR 0x06 o]
  | .vmul o => [packLR 0x07 o]
  | .vmulh o => [packLR 0x08 o]
  | .vmulhn o => [packLR 0x09 o]
  | .vmad o => [packLR 0x0A o]
  | .vdiv o => [packLR 0x0B o]
  | .vdivn o => [packLR 0x0C o]
  | .vrem o => [packLR 0x0D o]
  | .vremn o => [packLR 0x0E o]
  | .vmin o => [packLR 0x0F o]
  | .vmax o => [packLR 0x10 o]
  | .vminn o => [packLR 0x11 o]
  | .vmaxn o => [packLR 0x12 o]
  | .vand o => [packLR 0x13 o]
  | .vor o => [packLR 0x14 o]
  | .vxor o => [packLR 0x15 o]
  | .vandn o => [packLR 0x16 o]
  | .vshl o => [packLR 0x17 o]
  | .vshr o => [packLR 0x18 o]
  | .vsar o => [packLR 0x19 o]
  | .vrot o => [packLR 0x1A o]
  | .vabs o => [packLR 0x1B o]
  | .vneg o => [packLR 0x1C o]
  | .vclz o => [packLR 0x1D o]
  | .vpop o => [packLR 0x1E o]
  | .vbrev o => [packLR 0x1F o]
  | .vsel o => [packLR 0x20 o]
  | .vbfxn o => [packLR 0x21 o]
  | .vbfxs o => [packLR 0x22 o]
  | .vbfi o => [packLR 0x23 o]
  | .vmov o => [packLR 0x24 o]
  | .vmrank o => [packLR 0x25 o]
  | .vadd64 o => [packLR 0x30 o]
  | .vsub64 o => [packLR 0x31 o]
  | .vmul64 o => [packLR 0x32 o]
  | .vmulw o => [packLR 0x33 o]
  | .vmulwn o => [packLR 0x34 o]
  | .vshl64 o => [packLR 0x35 o]
  | .vshr64 o => [packLR 0x36 o]
  | .vsar64 o => [packLR 0x37 o]
  | .vaddi o => [packLI 0x40 o]
  | .vandi o => [packLI 0x41 o]
  | .vori o => [packLI 0x42 o]
  | .vxori o => [packLI 0x43 o]
  | .vshli o => [packLI 0x44 o]
  | .vshri o => [packLI 0x45 o]
  | .vsari o => [packLI 0x46 o]
  | .vmuli o => [packLI 0x47 o]
  | .vroti o => [packLI 0x48 o]
  | .vmovi o => [packLI 0x49 o]
  | .vcmp o => [packLC 0x50 o]
  | .vcmpi o => [packLCI 0x51 o]
  | .vcmp64 o => [packLC 0x52 o]
  | .fcmpF64 o => [packLC 0x53 o]
  | .fcmpF32 o => [packLC 0x54 o]
  | .fcmpF16 o => [packLC 0x55 o]
  | .fcmpB16 o => [packLC 0x56 o]
  | .fclass o => [packLCI 0x57 o]
  | .vshfl o => [packLR 0x60 o]
  | .vxch o => [packLI 0x61 o]
  | .vrotl o => [packLI 0x62 o]
  | .vbcast o => [packLI 0x63 o]
  | .vscan o => [packLR 0x64 o]
  | .vscanx o => [packLR 0x65 o]
  | .vredadd o => [packLR 0x66 o]
  | .vredmin o => [packLR 0x67 o]
  | .vredmax o => [packLR 0x68 o]
  | .vredminn o => [packLR 0x69 o]
  | .vredmaxn o => [packLR 0x6A o]
  | .vredand o => [packLR 0x6B o]
  | .vredor o => [packLR 0x6C o]
  | .vredxor o => [packLR 0x6D o]
  | .fredadd o => [packLR 0x6E o]
  | .faddF64 o => [packLR 0x70 o]
  | .faddF32 o => [packLR 0x71 o]
  | .faddF16 o => [packLR 0x72 o]
  | .faddB16 o => [packLR 0x73 o]
  | .fsubF64 o => [packLR 0x74 o]
  | .fsubF32 o => [packLR 0x75 o]
  | .fsubF16 o => [packLR 0x76 o]
  | .fsubB16 o => [packLR 0x77 o]
  | .fmulF64 o => [packLR 0x78 o]
  | .fmulF32 o => [packLR 0x79 o]
  | .fmulF16 o => [packLR 0x7A o]
  | .fmulB16 o => [packLR 0x7B o]
  | .ffmaF64 o => [packLR 0x7C o]
  | .ffmaF32 o => [packLR 0x7D o]
  | .ffmaF16 o => [packLR 0x7E o]
  | .ffmaB16 o => [packLR 0x7F o]
  | .fnmaF64 o => [packLR 0x80 o]
  | .fnmaF32 o => [packLR 0x81 o]
  | .fnmaF16 o => [packLR 0x82 o]
  | .fnmaB16 o => [packLR 0x83 o]
  | .fminF64 o => [packLR 0x84 o]
  | .fminF32 o => [packLR 0x85 o]
  | .fminF16 o => [packLR 0x86 o]
  | .fminB16 o => [packLR 0x87 o]
  | .fmaxF64 o => [packLR 0x88 o]
  | .fmaxF32 o => [packLR 0x89 o]
  | .fmaxF16 o => [packLR 0x8A o]
  | .fmaxB16 o => [packLR 0x8B o]
  | .fdivF64 o => [packLR 0x8C o]
  | .fdivF32 o => [packLR 0x8D o]
  | .fdivF16 o => [packLR 0x8E o]
  | .fdivB16 o => [packLR 0x8F o]
  | .fsqrtF64 o => [packLR 0x90 o]
  | .fsqrtF32 o => [packLR 0x91 o]
  | .fsqrtF16 o => [packLR 0x92 o]
  | .fsqrtB16 o => [packLR 0x93 o]
  | .frcp o => [packLR 0x94 o]
  | .frsq o => [packLR 0x95 o]
  | .fexp2 o => [packLR 0x96 o]
  | .flog2 o => [packLR 0x97 o]
  | .fsin o => [packLR 0x98 o]
  | .fcos o => [packLR 0x99 o]
  | .fsincos o => [packLR 0x9A o]
  | .ftanh o => [packLR 0x9B o]
  | .hadd2 o => [packLR 0xA0 o]
  | .hmul2 o => [packLR 0xA1 o]
  | .hfma2 o => [packLR 0xA2 o]
  | .badd2 o => [packLR 0xA3 o]
  | .bmul2 o => [packLR 0xA4 o]
  | .bfma2 o => [packLR 0xA5 o]
  | .b2pack o => [packLR 0xA6 o]
  | .h2pack o => [packLR 0xA7 o]
  | .fcvt o => [packLI 0xA8 o]
  | .ncvt o => [packLI 0xA9 o]
  | .nexp o => [packLI 0xAA o]
  | .ldb o => [packLM 0xB0 o]
  | .ldbs o => [packLM 0xB1 o]
  | .ldh o => [packLM 0xB2 o]
  | .ldhs o => [packLM 0xB3 o]
  | .ldw o => [packLM 0xB4 o]
  | .ldd o => [packLM 0xB5 o]
  | .ldq o => [packLM 0xB6 o]
  | .stb o => [packLM 0xB8 o]
  | .sth o => [packLM 0xB9 o]
  | .stw o => [packLM 0xBA o]
  | .std o => [packLM 0xBB o]
  | .stq o => [packLM 0xBC o]
  | .tagst o => [packLM 0xBD o]
  | .tagld o => [packLM 0xBE o]
  | .cpw o => [packLM 0xC0 o]
  | .cpd o => [packLM 0xC1 o]
  | .cpq o => [packLM 0xC2 o]
  | .cpws o => [packLM 0xC3 o]
  | .cpds o => [packLM 0xC4 o]
  | .cpqs o => [packLM 0xC5 o]
  | .tbegin o => [packLR 0xC8 o]
  | .tcommit o => [packLC 0xC9 o]
  | .tcancel o => [packLR 0xCA o]
  | .atom o => [packLL0 0xF0 o, packLL1 o]
  | .ldo o => [packLL0 0xF1 o, packLL1 o]
  | .sto o => [packLL0 0xF2 o, packLL1 o]
  | .cprow o => [packLL0 0xF3 o, packLL1 o]
  | .xput o => [packLL0 0xF4 o, packLL1 o]
  | .xget o => [packLL0 0xF5 o, packLL1 o]
  | .xred o => [packLL0 0xF6 o, packLL1 o]
  | .xamo o => [packLL0 0xF7 o, packLL1 o]
  | .xsig o => [packLL0 0xF8 o, packLL1 o]
  | .emit o => [packLL0 0xF9 o, packLL1 o]
  | .sadd o => [packUR 0x00 o]
  | .ssub o => [packUR 0x01 o]
  | .smul o => [packUR 0x02 o]
  | .smulh o => [packUR 0x03 o]
  | .smulhn o => [packUR 0x04 o]
  | .sdiv o => [packUR 0x05 o]
  | .sdivn o => [packUR 0x06 o]
  | .srem o => [packUR 0x07 o]
  | .sremn o => [packUR 0x08 o]
  | .sand o => [packUR 0x09 o]
  | .sor o => [packUR 0x0A o]
  | .sxor o => [packUR 0x0B o]
  | .sandn o => [packUR 0x0C o]
  | .sshl o => [packUR 0x0D o]
  | .sshr o => [packUR 0x0E o]
  | .ssar o => [packUR 0x0F o]
  | .smin o => [packUR 0x10 o]
  | .smax o => [packUR 0x11 o]
  | .sminn o => [packUR 0x12 o]
  | .smaxn o => [packUR 0x13 o]
  | .sclz o => [packUR 0x14 o]
  | .spop o => [packUR 0x15 o]
  | .sbfx o => [packUR 0x16 o]
  | .sbfi o => [packUR 0x17 o]
  | .scmp o => [packUR 0x18 o]
  | .ssel o => [packUR 0x19 o]
  | .smov o => [packUR 0x1A o]
  | .srot o => [packUR 0x1B o]
  | .saddi o => [packUI 0x20 o]
  | .sandi o => [packUI 0x21 o]
  | .sori o => [packUI 0x22 o]
  | .sxori o => [packUI 0x23 o]
  | .sshli o => [packUI 0x24 o]
  | .sshri o => [packUI 0x25 o]
  | .ssari o => [packUI 0x26 o]
  | .scmpi o => [packUI 0x27 o]
  | .smuli o => [packUI 0x28 o]
  | .scset o => [packUI 0x29 o]
  | .slimz o => [packUK 0x2A o]
  | .slimk o => [packUK 0x2B o]
  | .sldw o => [packUI 0x2C o]
  | .sldd o => [packUI 0x2D o]
  | .sstw o => [packUI 0x2E o]
  | .sstd o => [packUI 0x2F o]
  | .mand o => [packUR 0x30 o]
  | .mor o => [packUR 0x31 o]
  | .mxor o => [packUR 0x32 o]
  | .mandn o => [packUR 0x33 o]
  | .mnot o => [packUR 0x34 o]
  | .mpop o => [packUR 0x35 o]
  | .mffs o => [packUR 0x36 o]
  | .mtest o => [packUR 0x37 o]
  | .br o => [packUB 0x40 o]
  | .jmp o => [packUJ 0x41 o]
  | .call o => [packUJ 0x42 o]
  | .jmpr o => [packUR 0x43 o]
  | .callr o => [packUR 0x44 o]
  | .ret o => [packUR 0x45 o]
  | .split o => [packUS 0x46 o]
  | .join o => [packUJ 0x47 o]
  | .bar o => [packUI 0x50 o]
  | .waitp o => [packUR 0x51 o]
  | .pclose o => [packUR 0x52 o]
  | .anset o => [packUR 0x53 o]
  | .anwait o => [packUR 0x54 o]
  | .anarr o => [packUR 0x55 o]
  | .aninit o => [packUR 0x56 o]
  | .anexp o => [packUR 0x57 o]
  | .fence o => [packUI 0x58 o]
  | .sleep o => [packUI 0x59 o]
  | .yield o => [packUJ 0x5A o]
  | .nop o => [packUJ 0x5B o]
  | .waitf o => [packUR 0x5C o]
  | .fetch o => [packUR 0x5D o]
  | .fetchb o => [packUR 0x5E o]
  | .wdone o => [packUR 0x5F o]
  | .sysrd o => [packUI 0x60 o]
  | .syswr o => [packUI 0x61 o]
  | .trap o => [packUI 0x62 o]
  | .eret o => [packUJ 0x63 o]
  | .brk o => [packUI 0x64 o]
  | .clkrd o => [packUR 0x65 o]
  | .endStrand o => [packUJ 0x66 o]
  | .kadd o => [packUR 0x68 o]
  | .kaddi o => [packUI 0x69 o]
  | .klim o => [packUI 0x6A o]
  | .kloop o => [packUI 0x6B o]
  | .kbar o => [packUI 0x6C o]
  | .tzero o => [packUI 0x6D o]
  | .mfence o => [packUJ 0x6E o]
  | .mend o => [packUJ 0x6F o]
  | .cpbox o => [packUL0 0x70 o, o.w1]
  | .txa o => [packUL0 0x71 o, o.w1]
  | .xflow o => [packUL0 0x72 o, o.w1]
  | .mstart o => [packUL0 0x73 o, o.w1]
  | .xabort o => [packUL0 0x74 o, o.w1]
  | .tagfill o => [packUL0 0x75 o, o.w1]
  | .tcfg o => [packUL0 0x78 o, o.w1]
  | .wload o => [packUL0 0x79 o, o.w1]
  | .mma o => [packUL0 0x7A o, o.w1]
  | .mmar o => [packUL0 0x7B o, o.w1]
  | .drain o => [packUL0 0x7C o, o.w1]
  | .tload o => [packUL0 0x7D o, o.w1]
  | _ => []

/-- The decoder of one or two words: `w` is word 0, `v` is word 1 (ignored by a one-word instruction). An opcode that
the maps leave out is rejected as ILLEGAL_OPCODE; a fixed field at another value as RESERVED_FIELD. -/
noncomputable def decodeWords (w v : Word) : Decoded :=
  match (if halfBit w then uniformTable else laneTable).lookup (opcodeOf w) with
  | none => .illegalOpcode
  | some f => if reservedOk (f w v) then .instr (f w v) else .reservedField

/-- The instruction whose fields the words hold, whatever the fixed fields say; none for a reserved opcode. -/
noncomputable def decodeFields (w v : Word) : Option Instr :=
  ((if halfBit w then uniformTable else laneTable).lookup (opcodeOf w)).map (fun f => f w v)

/-- The decoder of bytes at an address (R3, R70): the instruction and the bytes after it; none where the bytes do
not hold a whole instruction. -/
noncomputable def decodeBytes (bs : List Byte) : Option (Decoded × List Byte) :=
  if bs.length < 4 then none
  else
    let w : Word := BitVec.ofNat 32 (bytesNat (bs.take 4))
    if isLong w then
      if bs.length < 8 then none
      else some (decodeWords w (BitVec.ofNat 32 (bytesNat ((bs.drop 4).take 4))), bs.drop 8)
    else some (decodeWords w 0, bs.drop 4)

/-- The bytes of an instruction as memory holds them: each word little-endian, word 0 first (R70). -/
def encodeBytes (i : Instr) : List Byte := (encode i).flatMap (fun w => natBytes 4 w.toNat)

/-- The bytes that a word of the opcode table stands for: its bits above `nbits` are 0, up to two words. -/
def tableBytes (nbits w : Nat) : List Byte := natBytes 8 (w % 2 ^ nbits)

/-- The instruction the decoder reads from the bits `w` of a table row (`nbits` of them, bit 0 first). -/
noncomputable def decodeTableWord (nbits w : Nat) : Option Instr :=
  match decodeBytes (tableBytes nbits w) with
  | some (.instr i, _) => some i
  | _ => none

/-- The instructions that a word encodes; the other constructors are events. -/
def isEncoded (i : Instr) : Bool := !(encode i).isEmpty

end Sys2Proof
end

