-- ==== Sys2Proof/Machine/Sparse.lean ====
section
/-!
DEFINITION. Machine/Sparse.lean: maps from numbers to values in one canonical form: keys strictly rising, no entry
equal to what an unlisted key reads as. Memory, scratchpads and register windows are held so.
-/

namespace Sys2Proof.Machine

/-- A map as a list of (key, value) pairs. -/
abbrev Sparse (α : Type) := List (Nat × α)

/-- The value at a key; `d` is what an unlisted key reads as. -/
def sget {α : Type} (d : α) : Sparse α → Nat → α
  | [], _ => d
  | (j, v) :: t, k => if j = k then v else sget d t k

/-- The map without its entries at a key. -/
def serase {α : Type} (k : Nat) : Sparse α → Sparse α
  | [] => []
  | (j, v) :: t => if j = k then serase k t else (j, v) :: serase k t

/-- A pair put before the first larger key. -/
def sinsert {α : Type} (k : Nat) (v : α) : Sparse α → Sparse α
  | [] => [(k, v)]
  | (j, w) :: t => if k < j then (k, v) :: (j, w) :: t else (j, w) :: sinsert k v t

/-- A write: the entry at the key is replaced, and left out when the value is the unlisted one. -/
def sput {α : Type} [DecidableEq α] (d : α) (m : Sparse α) (k : Nat) (v : α) : Sparse α :=
  if v = d then serase k m else sinsert k v (serase k m)

/-- Every key lies above `lo`, keys rise, no value is the unlisted one. -/
def swfFrom {α : Type} [DecidableEq α] (d : α) : Option Nat → Sparse α → Bool
  | _, [] => true
  | lo, (k, v) :: t => (match lo with | none => true | some l => decide (l < k)) && !decide (v = d)
      && swfFrom d (some k) t

/-- The canonical form. -/
def swf {α : Type} [DecidableEq α] (d : α) (m : Sparse α) : Bool := swfFrom d none m

/-- The entry of a keyed record, if there is one. -/
def kget {α : Type} : List (Nat × α) → Nat → Option α
  | [], _ => none
  | (j, v) :: t, k => if j = k then some v else kget t k

/-- A keyed record put in place, keys rising. -/
def kput {α : Type} (m : List (Nat × α)) (k : Nat) (v : α) : List (Nat × α) := sinsert k v (serase k m)

end Sys2Proof.Machine
end

