-- ==== Sys2Proof/Machine/Float.lean ====
section
/-!
DEFINITION. Machine/Float.lean: number formats, exact values and rounding (02_number_formats.md R44-R69). A value is
an exact dyadic number, an infinity or a NaN; every operation is computed exactly and rounded once.
-/

namespace Sys2Proof.Machine

/-- A format: sign bit, exponent bits, mantissa bits, IEEE-like top exponent, bias (R44, R47). -/
structure Fmt where
  s : Bool
  e : Nat
  m : Nat
  ie : Bool
  bias : Int
  deriving DecidableEq, Repr

def f64 : Fmt := ⟨true, 11, 52, true, 1023⟩
def f32 : Fmt := ⟨true, 8, 23, true, 127⟩
def f16 : Fmt := ⟨true, 5, 10, true, 15⟩
def b16 : Fmt := ⟨true, 8, 7, true, 127⟩

/-- R47: the fields of an FMT code. -/
def fmtOfCode (c : BitVec 16) : Fmt :=
  ⟨c.getLsbD 15, (c.extractLsb' 12 3).toNat, (c.extractLsb' 9 3).toNat, c.getLsbD 8, (c.extractLsb' 0 8).toInt⟩

/-- Bits of an encoding. -/
def Fmt.width (f : Fmt) : Nat := (if f.s then 1 else 0) + f.e + f.m

/-- R48. -/
def Fmt.valid (f : Fmt) : Bool :=
  2 ≤ f.width && f.width ≤ 8 && (f.e != 0 || !f.ie) && (!f.ie || (2 ≤ f.e && 1 ≤ f.m))

/-- An exact value: NaN, an infinity, or (-1)^neg * m * 2^e. A zero keeps its sign. -/
inductive Val where
  | nan
  | inf (neg : Bool)
  | fin (neg : Bool) (m : Nat) (e : Int)
  deriving DecidableEq, Repr

/-- R44, R49: Decode of an encoding; bits above the format's width are ignored. -/
def decodeF (f : Fmt) (bits : Nat) : Val :=
  let fr := bits % 2 ^ f.m
  let ex := bits / 2 ^ f.m % 2 ^ f.e
  let neg := f.s && decide (bits / 2 ^ (f.m + f.e) % 2 = 1)
  if f.e = 0 then .fin neg fr (-f.bias)
  else if f.ie ∧ ex = 2 ^ f.e - 1 then (if fr = 0 then .inf neg else .nan)
  else if !f.ie ∧ ex = 2 ^ f.e - 1 ∧ fr = 2 ^ f.m - 1 then .nan
  else if ex = 0 then .fin neg fr (1 - f.bias - f.m)
  else .fin neg (2 ^ f.m + fr) (ex - f.bias - f.m)

/-- The rounding modes of R53; RS carries the lane's state (R58). -/
inductive Mode where
  | rne | rtz | rdn | rup | rs (state : Nat) | rneSat
  deriving DecidableEq, Repr

/-- R50: the largest finite magnitude, as mantissa and exponent. -/
def Fmt.largest (f : Fmt) : Nat × Int :=
  if f.e = 0 then (2 ^ f.m - 1, -f.bias)
  else if f.ie then (2 ^ (f.m + 1) - 1, 2 ^ f.e - 2 - f.bias - f.m)
  else if f.m = 0 then (1, 2 ^ f.e - 2 - f.bias)
  else (2 ^ (f.m + 1) - 2, 2 ^ f.e - 1 - f.bias - f.m)

/-- The sign bit of an encoding. -/
def Fmt.signBit (f : Fmt) (neg : Bool) : Nat := if f.s && neg then 2 ^ (f.m + f.e) else 0
/-- R44, R50: the canonical NaN; +0 for a format that has none (R54). -/
def Fmt.canonNaN (f : Fmt) : Nat :=
  if f.e = 0 then 0
  else if f.ie then (2 ^ f.e - 1) * 2 ^ f.m + 2 ^ (f.m - 1)
  else 2 ^ (f.e + f.m) - 1
/-- The encoding of an infinity. -/
def Fmt.infinity (f : Fmt) (neg : Bool) : Nat := f.signBit neg + (2 ^ f.e - 1) * 2 ^ f.m

/-- A number of the code of a format, to name it to a free value. -/
def Fmt.key (f : Fmt) : Nat := ((f.e * 8 + f.m) * 2 + (if f.s then 1 else 0)) * 256 + (f.bias % 256).toNat

/-- The encoding of n * 2^q where n fits the precision at quantum q. -/
def Fmt.encodeAt (f : Fmt) (neg : Bool) (n : Nat) (q : Int) : Nat :=
  f.signBit neg +
    (if f.e = 0 then n
     else if n < 2 ^ f.m then n
     else
       let (n1, q1) := if n = 2 ^ (f.m + 1) then (2 ^ f.m, q + 1) else (n, q)
       (q1 + f.m + f.bias).toNat * 2 ^ f.m + (n1 - 2 ^ f.m))

/-- ±Largest as an encoding (R50). -/
def Fmt.largestEnc (f : Fmt) (neg : Bool) : Nat :=
  if f.e = 1 ∧ f.m = 0 ∧ !f.ie then f.signBit neg + Config.largestE1M0 f.key % 2
  else f.encodeAt neg f.largest.1 f.largest.2

/-- The number of bits of a natural number. -/
def bitLen (n : Nat) : Nat := if n = 0 then 0 else n.log2 + 1

/-- The quantum of a magnitude m * 2^e in a format, subnormal spacing below the smallest normal (R54). -/
def Fmt.quantum (f : Fmt) (m : Nat) (e : Int) : Int :=
  if f.e = 0 then -f.bias else max ((bitLen m : Int) - 1 + e) (1 - f.bias) - f.m

/-- A magnitude m * 2^e in units of 2^q: whole units, and the remainder over 2^d. -/
def inUnits (m : Nat) (e q : Int) : Nat × Nat × Nat :=
  if q ≤ e then (m * 2 ^ (e - q).toNat, 0, 0)
  else
    let d := (q - e).toNat
    (m / 2 ^ d, m % 2 ^ d, d)

/-- R53, R58: whether the magnitude is rounded up; `tie` decides a tie. -/
def roundsUp (mode : Mode) (neg : Bool) (tie : Bool) (rem d : Nat) : Bool :=
  match mode with
  | .rne | .rneSat => decide (2 ^ d < 2 * rem) || (decide (2 * rem = 2 ^ d) && decide (rem ≠ 0) && tie)
  | .rtz => false
  | .rdn => neg && decide (rem ≠ 0)
  | .rup => !neg && decide (rem ≠ 0)
  | .rs x => decide (x < rem * 2 ^ 32 / 2 ^ d)

/-- n1 * 2^q1 exceeds n2 * 2^q2. -/
def exceeds (n1 : Nat) (q1 : Int) (n2 : Nat) (q2 : Int) : Bool :=
  let q := min q1 q2
  decide (n2 * 2 ^ (q2 - q).toNat < n1 * 2 ^ (q1 - q).toNat)

/-- R53: the result of an overflow. -/
def Fmt.overflow (f : Fmt) (mode : Mode) (neg : Bool) : Nat :=
  if f.e = 0 then f.largestEnc neg
  else
    match mode with
    | .rne | .rs _ => if f.ie then f.infinity neg else f.canonNaN
    | .rtz | .rneSat => f.largestEnc neg
    | .rdn => if neg then f.infinity neg else f.largestEnc neg
    | .rup => if neg then f.largestEnc neg else f.infinity neg

/-- R54: RoundToFormat. A tie of a format without mantissa bits, between 0 and its smallest value too, is left open (log entry 9). -/
def roundTo (f : Fmt) (mode : Mode) (x : Val) : Nat :=
  match x with
  | .nan => f.canonNaN
  | .inf neg =>
    if !f.s && neg then 0
    else if f.ie then f.infinity neg
    else if f.e = 0 then f.largestEnc neg
    else
      match mode with
      | .rne | .rs _ => f.canonNaN
      | _ => f.largestEnc neg
  | .fin neg m e =>
    if !f.s && (neg || m == 0) then 0
    else if m = 0 then f.signBit neg
    else
      let q := f.quantum m e
      let (n, rem, d) := inUnits m e q
      let tie := if f.m = 0 ∧ f.e ≠ 0 then Config.tieUpM0 f.key (f.encodeAt neg n q) else n % 2 == 1
      let n1 := if roundsUp mode neg tie rem d then n + 1 else n
      if exceeds n1 q f.largest.1 f.largest.2 then f.overflow mode neg else f.encodeAt neg n1 q

/-- Unlimited-range rounding to an integer (R63). -/
def roundToInt (mode : Mode) (neg : Bool) (m : Nat) (e : Int) : Int :=
  let (n, rem, d) := inUnits m e 0
  let n1 := if roundsUp mode neg (n % 2 == 1) rem d then n + 1 else n
  if neg then -(n1 : Int) else n1

/-- R63: clamped to a signed or unsigned integer type of `w` bits. -/
def saturate (signed : Bool) (w : Nat) (x : Int) : Int :=
  if signed then max (-(2 : Int) ^ (w - 1)) (min x ((2 : Int) ^ (w - 1) - 1)) else max 0 (min x ((2 : Int) ^ w - 1))

-- exact operations on values; none is an invalid operation (R60)

/-- The signed mantissa. -/
def signed (neg : Bool) (m : Nat) : Int := if neg then -(m : Int) else m

/-- R55: the exact sum; opposite operands give +0. -/
def vAdd (x y : Val) : Option Val :=
  match x, y with
  | .nan, _ => some .nan
  | _, .nan => some .nan
  | .inf a, .inf b => if a = b then some (.inf a) else none
  | .inf a, .fin _ _ _ => some (.inf a)
  | .fin _ _ _, .inf b => some (.inf b)
  | .fin s1 m1 e1, .fin s2 m2 e2 =>
    let e := min e1 e2
    let v := signed s1 m1 * 2 ^ (e1 - e).toNat + signed s2 m2 * 2 ^ (e2 - e).toNat
    if v = 0 then some (.fin (m1 == 0 && m2 == 0 && s1 && s2) 0 e)
    else some (.fin (decide (v < 0)) v.natAbs e)

/-- The negated value. -/
def vNeg : Val → Val
  | .nan => .nan
  | .inf a => .inf (!a)
  | .fin a m e => .fin (!a) m e

/-- The exact product. -/
def vMul (x y : Val) : Option Val :=
  match x, y with
  | .nan, _ => some .nan
  | _, .nan => some .nan
  | .inf a, .inf b => some (.inf (a != b))
  | .inf a, .fin b m _ => if m = 0 then none else some (.inf (a != b))
  | .fin a m _, .inf b => if m = 0 then none else some (.inf (a != b))
  | .fin a m1 e1, .fin b m2 e2 => some (.fin (a != b) (m1 * m2) (e1 + e2))

/-- A quotient of naturals with a sticky bit below it: enough bits for one rounding to 53 bits. -/
def stickyDiv (m1 m2 : Nat) (e : Int) : Nat × Int :=
  let k := bitLen m2 + 64
  let n := m1 * 2 ^ k
  (2 * (n / m2) + (if n % m2 = 0 then 0 else 1), e - k - 1)

/-- R208: the quotient, exact up to a sticky bit. -/
def vDiv (x y : Val) : Option Val :=
  match x, y with
  | .nan, _ => some .nan
  | _, .nan => some .nan
  | .inf _, .inf _ => none
  | .inf a, .fin b _ _ => some (.inf (a != b))
  | .fin a _ _, .inf b => some (.fin (a != b) 0 0)
  | .fin a m1 e1, .fin b m2 e2 =>
    if m2 = 0 then (if m1 = 0 then none else some (.inf (a != b)))
    else
      let (n, e) := stickyDiv m1 m2 (e1 - e2)
      some (.fin (a != b) n e)

/-- The integer square root, one bit at a time from bit `k - 1` down. -/
def isqrtBits (n : Nat) : Nat → Nat → Nat
  | 0, r => r
  | k + 1, r => if (r + 2 ^ k) * (r + 2 ^ k) ≤ n then isqrtBits n k (r + 2 ^ k) else isqrtBits n k r
def isqrt (n : Nat) : Nat := isqrtBits n (bitLen n / 2 + 1) 0

/-- A square root with a sticky bit below it. -/
def stickySqrt (m : Nat) (e : Int) : Nat × Int :=
  let k : Nat := 128 + (e % 2).toNat
  let n := m * 2 ^ k
  let r := isqrt n
  (2 * r + (if r * r = n then 0 else 1), (e - k) / 2 - 1)

/-- R208: the square root. -/
def vSqrt (x : Val) : Option Val :=
  match x with
  | .nan => some .nan
  | .inf neg => if neg then none else some (.inf false)
  | .fin neg m e =>
    if m = 0 then some x
    else if neg then none
    else
      let (n, q) := stickySqrt m e
      some (.fin false n q)

/-- Values in order; -0 lies below +0 (R207). A NaN has no place. -/
def vLess (x y : Val) : Bool :=
  match x, y with
  | .fin s1 m1 e1, .fin s2 m2 e2 =>
    let e := min e1 e2
    let a := signed s1 m1 * 2 ^ (e1 - e).toNat
    let b := signed s2 m2 * 2 ^ (e2 - e).toNat
    decide (a < b)
  | .inf a, .inf b => a && !b
  | .inf a, .fin _ _ _ => a
  | .fin _ _ _, .inf b => !b
  | _, _ => false

/-- Equal as numbers: +0 equals -0 (R209). -/
def vEq (x y : Val) : Bool :=
  match x, y with
  | .nan, _ => false
  | _, .nan => false
  | _, _ => !vLess x y && !vLess y x

/-- A NaN's bits with the quiet bit set (R59); bits above the format are dropped. -/
def Fmt.quiet (f : Fmt) (bits : Nat) : Nat :=
  let b := bits % 2 ^ f.width
  if b / 2 ^ (f.m - 1) % 2 = 1 then b else b + 2 ^ (f.m - 1)

/-- A value decoded is a NaN. -/
def isNaN (v : Val) : Bool := v == .nan

/-- R206: an operation of two sources in format f: NaNs first (R59), then the invalid operation (R60), then one
rounding. -/
def fop2 (f : Fmt) (op : Val → Val → Option Val) (a b : Nat) : Nat :=
  let x := decodeF f a
  let y := decodeF f b
  if isNaN x then f.quiet a
  else if isNaN y then f.quiet b
  else match op x y with
    | none => f.canonNaN
    | some v => roundTo f .rne v

/-- R206: an operation of three sources, in the order a, b, d. -/
def fop3 (f : Fmt) (op : Val → Val → Val → Option Val) (a b d : Nat) : Nat :=
  let x := decodeF f a
  let y := decodeF f b
  let z := decodeF f d
  if isNaN x then f.quiet a
  else if isNaN y then f.quiet b
  else if isNaN z then f.quiet d
  else match op x y z with
    | none => f.canonNaN
    | some v => roundTo f .rne v

def fAdd (f : Fmt) (a b : Nat) : Nat := fop2 f vAdd a b
def fSub (f : Fmt) (a b : Nat) : Nat := fop2 f (fun x y => vAdd x (vNeg y)) a b
def fMul (f : Fmt) (a b : Nat) : Nat := fop2 f vMul a b
def fDiv (f : Fmt) (a b : Nat) : Nat := fop2 f vDiv a b
def fFma (f : Fmt) (a b d : Nat) : Nat := fop3 f (fun x y z => (vMul x y).bind fun p => vAdd p z) a b d
def fFnma (f : Fmt) (a b d : Nat) : Nat := fop3 f (fun x y z => (vMul x y).bind fun p => vAdd z (vNeg p)) a b d
def fSqrt (f : Fmt) (a : Nat) : Nat :=
  let x := decodeF f a
  if isNaN x then f.quiet a
  else match vSqrt x with
    | none => f.canonNaN
    | some v => roundTo f .rne v

/-- The sign of a value. -/
def vSign : Val → Bool
  | .nan => false
  | .inf a => a
  | .fin a _ _ => a

/-- R207: x is ordered below y, -0 below +0. -/
def vBelow (x y : Val) : Bool := vLess x y || (vEq x y && vSign x && !vSign y)
/-- R207: one of the operands, unchanged. -/
def fMin (f : Fmt) (a b : Nat) : Nat :=
  let x := decodeF f a
  let y := decodeF f b
  if isNaN x then f.quiet a else if isNaN y then f.quiet b
  else (if vBelow y x then b else a) % 2 ^ f.width
def fMax (f : Fmt) (a b : Nat) : Nat :=
  let x := decodeF f a
  let y := decodeF f b
  if isNaN x then f.quiet a else if isNaN y then f.quiet b
  else (if vBelow x y then b else a) % 2 ^ f.width

/-- R209: the compare conditions; codes 12 to 15 name none. -/
def fcmpHolds (f : Fmt) (cc : Nat) (a b : Nat) : Bool :=
  let x := decodeF f a
  let y := decodeF f b
  let un := isNaN x || isNaN y
  match cc with
  | 0 => !un && vEq x y
  | 1 => un || !vEq x y
  | 2 => !un && vLess x y
  | 3 => !un && !vLess x y
  | 4 => !un && vLess y x
  | 5 => !un && !vLess y x
  | 6 => un
  | 7 => !un
  | 8 => un || vLess x y
  | 9 => un || !vLess x y
  | 10 => un || vLess y x
  | 11 => un || !vLess y x
  | _ => false

/-- R211: the number of the class of an encoding. -/
def classOf (f : Fmt) (a : Nat) : Nat :=
  let ex := a / 2 ^ f.m % 2 ^ f.e
  match decodeF f a with
  | .nan => 7
  | .inf neg => if neg then 0 else 6
  | .fin neg m _ => if m = 0 then 3 else if ex = 0 then (if neg then 2 else 4) else if neg then 1 else 5

/-- R61: a NaN carried to another fixed format: sign kept, quiet bit set, top payload bits kept. -/
def nanTo (f g : Fmt) (a : Nat) : Nat :=
  let neg := a / 2 ^ (f.m + f.e) % 2 = 1
  let pay := a % 2 ^ f.m
  let p1 := if f.m ≤ g.m then pay * 2 ^ (g.m - f.m) else pay / 2 ^ (f.m - g.m)
  g.quiet (g.signBit neg + (2 ^ g.e - 1) * 2 ^ g.m + p1)

/-- R219, R217: a float encoding converted to another fixed format. -/
def fConv (f g : Fmt) (mode : Mode) (a : Nat) : Nat :=
  let x := decodeF f a
  if isNaN x then (if f = g then f.quiet a else nanTo f g a)
  else if f = g then a % 2 ^ f.width
  else roundTo g mode x

/-- R219, R63: a float to an integer type. -/
def fToInt (f : Fmt) (sg : Bool) (w : Nat) (mode : Mode) (a : Nat) : Int :=
  match decodeF f a with
  | .nan => 0
  | .inf neg => saturate sg w (if neg then -(2 : Int) ^ 70 else (2 : Int) ^ 70)
  | .fin neg m e => saturate sg w (roundToInt mode neg m e)

/-- R219: an integer to a float. -/
def intToF (g : Fmt) (mode : Mode) (x : Int) : Nat := roundTo g mode (.fin (decide (x < 0)) x.natAbs 0)

/-- R58: one step of a lane's stochastic-rounding state. -/
def stochasticStep (x : Word) : Word :=
  let x := x ^^^ (x <<< 13)
  let x := x ^^^ (x >>> 17)
  x ^^^ (x <<< 5)

end Sys2Proof.Machine
end

