-- ==== Sys2Proof/Machine/StateStrand.lean ====
section
/-!
DEFINITION. Machine/StateStrand.lean: the records of a strand, its slots, its accesses and its core's buffers, from
which Machine/State.lean builds the state.
-/

namespace Sys2Proof.Machine

/-- The flags of a PC slot (R115). -/
structure Flags where
  n : Bool
  z : Bool
  c : Bool
  v : Bool
  ex : Bool
  deriving DecidableEq, Repr

/-- The state of a PC slot (R115): a suspended slot waits for a pop or an ERET; a slot at a JOIN waits at `pc`. -/
inductive SlotState where
  | notLive | running | atJoin | suspended
  deriving DecidableEq, Repr

/-- What an issued instruction of the slot still waits for (R126): a barrier whose arrival is done, a sleep, a place
in the operand log (R145) for access `acc`, an XFLOW or XABORT that has issued (R457, R458). -/
inductive Wait where
  | none
  | engine (pc : Pc)
  | bar (n : Nat) (pc : Pc)
  | sleep (till : Nat) (pc : Pc)
  | log (acc : Nat)
  deriving DecidableEq, Repr

/-- Where the slot that issued something stands: live under a letter, or pushed as an entry of the divergence stack (R123). -/
inductive SlotHome where
  | live (x : SlotId)
  | pushed (k : Nat)
  deriving DecidableEq, Repr

/-- What write-backs have for a slot that is pushed as entry `entry`: its EX flag (R134), its m0 (R120). The pop gives them to it. -/
structure OwedSlot where
  entry : Nat
  ex : Option Bool
  m0 : Option Word
  deriving DecidableEq, Repr

/-- A step trap that a slot owes (R505): its instruction's PC and words, and the numbers of the accesses that it made. -/
structure StepOwed where
  pc : Pc
  words : Words
  lo : Nat
  hi : Nat
  deriving DecidableEq, Repr

/-- A PC slot (R115, R128, R134). `laneAt`, `uniAt` and `accAt` are the cycles of the last issue to each class. -/
structure Slot where
  st : SlotState
  pc : Pc
  em : Word
  m0 : Word
  flags : Flags
  exPending : Bool
  wait : Wait
  laneAt : Option Nat
  uniAt : Option Nat
  accAt : Option Nat
  lastAt : Option Nat
  /-- the step trap owed before the slot issues again (R505) -/
  stepped : Option StepOwed
  deriving DecidableEq, Repr

/-- The trap record and its sysregs (R180, R182-R184). -/
structure TrapRec where
  wpf : Bool
  pv : Bool
  partner : BitVec 4
  strand : BitVec 4
  slot : SlotId
  code : BitVec 7
  tpc : Pc
  tinsn : Dword
  lane : Option (BitVec 5)
  lmask : Word
  addr : Dword
  overCount : Nat
  overPc : Pc
  tepc : Pc
  em : Word
  m0 : Word
  olive : Bool
  hslot : SlotId
  flags : Flags
  /-- what the other slot was doing when the trap suspended it, to resume as it was (R178) -/
  otherSt : SlotState
  /-- the trap is the stream fault whose ERET frees the sequencer (R506) -/
  stream : Bool
  deriving DecidableEq, Repr

/-- A scope-table entry (R259); `exact` is the core-set bitmap's members as read by the SYSWR. -/
structure ScopeEntry where
  map : BitVec 48
  set : Bool
  cover : BitVec 3
  exact : List Nat
  deriving DecidableEq, Repr

/-- A watchpoint (R261). `comps` says that its home-slice comparators are reserved on the physical range (R263), `seen` is its
scope entry as the SYSWR read it (R31), and accesses numbered from `since` on meet it (R172). -/
structure Watch where
  base : Pc
  log2 : BitVec 6
  lmask : Word
  scope : BitVec 5
  act : Bool
  kind : BitVec 2
  en : Bool
  comps : Option (Nat × Nat)
  seen : ScopeEntry
  since : Nat
  deriving DecidableEq, Repr

/-- A watch hit held for its strand (R264). -/
structure HeldHit where
  wp : Nat
  addr : Dword
  core : Nat
  strand : Nat
  kind : Nat
  deriving DecidableEq, Repr

/-- One lane of an open transaction (R252, R253): the lines read with the wts recorded once the load returns, the lines
written, and the failure code of R253. -/
structure TxnLane where
  reads : List (Nat × Option Nat)
  writes : List (Nat × BitVec 128 × BitVec 1024)
  code : BitVec 2
  deriving DecidableEq, Repr

/-- An open transaction (R251); `commit` is set from the issue of TCOMMIT to its write-back. -/
structure Txn where
  members : Word
  lanes : Vector TxnLane 32
  pc : Pc
  commit : Option (BitVec 3)
  passed : Word
  deriving DecidableEq, Repr

/-- A fence that waits to be satisfied (R250), or an acquire after an ordered load (R249), a wait (R143, R299): kind 1 acquire,
2 release, 3 both; its scope entry as read at issue; accesses numbered up to `upTo` count. -/
structure FenceWait where
  kind : BitVec 2
  cover : Nat
  upTo : Nat
  /-- the strand's engine commands count (R40, R250); an acquire that is no FENCE leaves them out (R299) -/
  cmds : Bool
  /-- the slots released from a barrier whose acquire it is (R123, R143) -/
  slots : List SlotId
  deriving DecidableEq, Repr

/-- An overtaker count (R145, R147). -/
structure Over where
  count : Nat
  pc : Pc
  deriving DecidableEq, Repr

/-- A strand's slot of an anchor register ANCn and its pitch state (R320, R321). -/
structure Pitch where
  openN : BitVec 16
  done : BitVec 16
  err : Bool
  /-- pitches that copies have joined: number, unfinished copies, whether one failed or was rejected -/
  pending : List (Nat × Nat × Bool)
  deriving DecidableEq, Repr

/-- A strand (R113, R148). -/
structure Strand where
  live : Bool
  ended : Bool
  v : Vector (Lanes Word) 88
  s : Vector Dword 24
  m : Vector Word 7
  full : BitVec 120
  slots : Vector Slot 2
  depth : Nat
  dspBase : BitVec 13
  shd : Bool
  partner : BitVec 4
  step : Bool
  inh : Bool
  trap : TrapRec
  rngseed : Word
  rng : Lanes Word
  fmt : Vector (BitVec 16) 8
  anc : Vector (BitVec 28) 4
  pitch : Pitch
  wp : Vector Watch 4
  /-- enabled watchpoints that a later SYSWR has replaced: number, watchpoint, the first access that it no longer meets (R172) -/
  pastWp : List (Nat × Watch × Nat)
  held : Option HeldHit
  txn : Option Txn
  fence : Option FenceWait
  /-- overtakers issued since the operand log was last empty (R145) -/
  logOver : Nat
  pendingFault : Option (Cause × Pc)
  /-- what write-backs owe slots that are pushed (R120, R134) -/
  owed : List OwedSlot
  deriving DecidableEq, Repr

/-- What an access does (R243-R258). -/
inductive AccKind where
  | load | store | atomic | tagLoad | tagStore | tagFill
  /-- a copy not yet accepted, whose issue checks may fault or reach a missing page (R306, R323) -/
  | command
  /-- a lane group instruction or an EMIT whose packets or stores have not all been accepted (R445, R405), or an XFLOW,
  XABORT or TXA that waits for a page (R457, R458, R463) -/
  | group
  deriving DecidableEq, Repr

/-- How a load's bytes become its destination (R243, R245): zero- or sign-extended bytes to a 32-bit lane register,
a pair, a quad, a uniform register. -/
inductive LoadForm where
  | zext | sext | pair | quad | uniform
  deriving DecidableEq, Repr

/-- Where the data of one lane lie. -/
inductive Place where
  | scratch (off : Nat)
  | global (line : Nat)
  | coreBacked (core : Nat) (off : Nat)
  deriving DecidableEq, Repr

/-- How far one lane of an access has come; `answered`: performed on another die, whose answer is on its way. -/
inductive LaneStep where
  | waiting | sent | answered | done
  deriving DecidableEq, Repr

/-- One lane of an access: its pointer or scratchpad offset, data to store, and, once translated, its physical
byte address and page attributes; `old` is the value read. -/
structure LanePart where
  lane : Nat
  addr : Dword
  x : Nat
  y : Nat
  pa : Nat
  pte : Dword
  place : Place
  step : LaneStep
  old : Nat
  poisoned : Bool
  /-- the tag of its granule, where the data were, did not match (R256) -/
  mistag : Bool
  deriving DecidableEq, Repr

/-- What a trap or a halt records (R504): the cause, the instruction, lanes, address, overtakers, and the PC after the
trap (R174). -/
structure TrapInfo where
  cause : Cause
  pc : Pc
  words : Words
  lane : Option (BitVec 5)
  mask : Word
  addr : Dword
  ovr : Over
  tepc : Pc
  stream : Bool
  deriving DecidableEq, Repr

/-- A halt of a party in progress (R507, R511): who halted it, with what, and when. -/
structure HaltInfo where
  info : TrapInfo
  strand : Nat
  slot : SlotId
  all : Bool
  inHandler : Bool
  dbgHalt : Bool
  time : Nat
  deriving DecidableEq, Repr

/-- How far an access has come: to be attempted; in the operand log (R144); waiting for a log place (R145); checked
and sent; stopped by a fault not yet delivered (R237). -/
inductive AccStep where
  | attempt | logged | logWait | active | faulted
  deriving DecidableEq, Repr

/-- A failure of an access (R236): its cause, the failing lanes, the lowest one's lane and address. -/
structure AccFault where
  cause : Cause
  mask : Word
  lane : Option (BitVec 5)
  addr : Dword
  deriving DecidableEq, Repr

/-- An access of a strand from issue to settlement (R144, R235-R238). -/
structure Access where
  id : Nat
  strand : Nat
  slot : SlotId
  pc : Pc
  words : Words
  m0 : Word
  uniform : Bool
  loc : Bool
  kind : AccKind
  size : Nat
  form : LoadForm
  policy : BitVec 2
  fn : BitVec 6
  ord : BitVec 2
  dst : Option Dst
  parts : List LanePart
  /-- the instruction, for a command -/
  op : Option Instr
  /-- the source values as the operand log shows them (R513): the base register, then places 1, 2 and 3 -/
  base : Dword
  pl1 : Lanes (BitVec 128)
  pl2 : Lanes (BitVec 128)
  pl3 : Lanes (BitVec 128)
  step : AccStep
  txn : Bool
  fault : Option AccFault
  ovr : Over
  /-- it holds a place of the operand log, also while it is replayed (R144) -/
  placed : Bool
  /-- the scope entry that it names, as read at issue (R31) -/
  entry : ScopeEntry
  /-- the translations that it was checked under have ended: what it reads becomes no copy (R234) -/
  noFill : Bool
  /-- every lane of a store with core-backed lanes has passed its checks at the named cores (R236) -/
  fixed : Bool
  /-- its slot has been pushed as this entry of the divergence stack (R123) -/
  pushed : Option Nat
  /-- the handler's entry as it was at issue (R172) -/
  thnd : BitVec 54
  /-- the cycle in which an atomic's last request left for another die (R440) -/
  sentAt : Option Nat
  deriving DecidableEq, Repr

/-- A producer's result that waits for its write-back (R131): what to write when it comes. -/
inductive Result where
  | lanes (r : Nat) (mask : Word) (v : Lanes Word)
  | pairs (r : Nat) (mask : Word) (v : Lanes Dword)
  | quads (r : Nat) (mask : Word) (v : Lanes (BitVec 128))
  | mask (m : Nat) (v : Word)
  | uniform (spec : BitVec 7) (slot : SlotHome) (v : Dword)
  | fetched (spec : BitVec 7) (slot : SlotHome) (v : Dword) (ex : Bool)
  /-- a FETCHB that waits for its batch: destination, slot, descriptor's offset (R407) -/
  | batch (spec : BitVec 7) (slot : SlotHome) (off : Nat)
  | nothing
  deriving DecidableEq, Repr

/-- An outstanding producer (R131): its destination specifiers, its result. `acc` names the access whose settlement
it is; it writes back in cycle `due` at the earliest and in cycle `late`, if it has one, at the latest (R188, R205). -/
structure Producer where
  strand : Nat
  marks : List Nat
  res : Result
  acc : Option Nat
  due : Nat
  late : Option Nat
  deriving DecidableEq, Repr

/-- A buffered store to one line (R241); `acc` is the number of the access that made it. -/
structure SbEntry where
  strand : Nat
  acc : Nat
  root : Nat
  /-- the virtual line that the store was made through (R233) -/
  va : Nat
  line : Nat
  pte : Dword
  mask : BitVec 128
  data : BitVec 1024
  tagMask : BitVec 4
  tags : BitVec 16
  sent : Bool
  remote : Bool
  /-- the records of an EMIT that the store carries: grid, bin, record (R405) -/
  recs : List (BitVec 32 × Nat × Nat)
  deriving DecidableEq, Repr

/-- A line of L1 (R232, R270): its physical line number, the virtual tag, the leaf it was filled through. -/
structure L1Line where
  line : Nat
  root : Nat
  va : Nat
  pte : Dword
  wts : Nat
  rts : Nat
  data : BitVec 1024
  tags : BitVec 16
  poison : BitVec 4
  deriving DecidableEq, Repr

/-- Party barrier configuration and state (R140). -/
structure Barrier where
  phase : BitVec 4
  pend : Nat
  seq : Bool
  count : Nat
  /-- the sequencer waits for the phase it arrived in -/
  seqWait : Bool
  deriving DecidableEq, Repr

/-- The sequencer's state (R331). -/
inductive SeqState where
  | idle | running | waiting | halted
  deriving DecidableEq, Repr

/-- Status of a party (R409, R509, R507). One that has ended is gone. -/
inductive PartyStatus where
  | running | saving | suspended | debugHalt | halting
  deriving DecidableEq, Repr

end Sys2Proof.Machine
end

