-- ==== Sys2Proof/Machine/StateEngines.lean ====
section
/-!
DEFINITION. Machine/StateEngines.lean: the records of the engines beside the strands: copies, the matrix engine, the
dispenser, the collective engine, the links, Base Camp and the hosts.
-/

namespace Sys2Proof.Machine

/-- How far a segment of an engine command has come (R324, R327). -/
inductive SegStep where
  | ready | sent | fixup | stopped | landed | failed
  deriving DecidableEq, Repr

/-- What one line operation writes in a line: the bytes of a mask, granule tags, and the sectors that its source's poison marks; `bad` is
the first poisoned byte's address (R326). -/
structure LineOut where
  line : Nat
  pte : Dword
  mask : BitVec 128
  data : BitVec 1024
  tagMask : BitVec 4
  tags : BitVec 16
  psn : BitVec 4
  bad : Option Nat
  deriving DecidableEq, Repr

/-- A segment (R324): `len` bytes inside one line of global memory at `ptr`, and the engine side `off`: a scratchpad offset before
swizzling, a byte of the weight buffer, or an element of the accumulator store; `more` are the further runs of a copy in that line,
each with its pointer, its scratchpad offset and its length (R302). `data` are
the bytes of a fill or of a drain, `halves` are the places in `data` whose byte writes its low nibble alone (R376), `vals` are
the accumulator values of an ADD drain. Of a tile load or a drain `data` and `vals` follow the runs, and `off` is a tile load's first element (R379). -/
structure Segment where
  id : Nat
  ptr : Dword
  off : Nat
  len : Nat
  more : List (Dword × Nat × Nat)
  local_ : Bool
  data : List Byte
  halves : List Nat
  vals : List Nat
  /-- it landed poison (R326) -/
  psn : Bool
  step : SegStep
  /-- what it has sent to the home of its line on another die -/
  out : Option LineOut
  deriving DecidableEq, Repr

/-- What an engine command is (R39): a copy in or out, a weight load, a tile load with its source format, a drain
with its destination format, ADD or not. -/
inductive CmdKind where
  | copyIn | copyOut
  | wload (slot : Nat)
  | tload (from_ : Nat)
  | drain (add : Bool) (into : Nat)
  | txa
  deriving DecidableEq, Repr

/-- An accepted engine command (R295-R298, R39). `acqs` is an acquire still to be performed (R41); `tagMode` is TAGP
(R311); `pc` the stream PC of a matrix command (R360). -/
structure EngineCmd where
  id : Nat
  kind : CmdKind
  strand : Nat
  seq : Bool
  anchor : Nat
  tag : BitVec 4
  pitch : BitVec 16
  rel : Bool
  acqs : Option Nat
  cover : Nat
  arv : Bool
  /-- the swizzle id of a CPBOX, whose KiB tags are written or compared (R310) -/
  swz : Nat
  box : Bool
  tagMode : Nat
  pc : Pc
  err : Bool
  /-- its serial number on the core (R329) -/
  serial : Nat
  /-- sectors landed and failed whose counts wait for the release (R298) -/
  okN : Nat
  errN : Nat
  segs : List Segment
  /-- the first access number of its strand after it, for same-address order and fences (R40, R250) -/
  at_ : Nat
  deriving DecidableEq, Repr

/-- A format block as read at issue (R343). -/
structure FormatBlock where
  fmt : BitVec 16
  ekind : Nat
  blen : Nat
  skind : Nat
  swz : Nat
  comp : Nat
  layout : Nat
  sfmt : BitVec 16
  stride : Nat
  addr : Nat
  saddr : Nat
  sstride : Nat
  deriving DecidableEq, Repr

/-- A stream operation in flight (R333): a multiply with its two blocks, its shape and the q1 entries that it has
popped; a clear; a weight load, tile load or drain by its command or on scratchpad; the row entries that a LANES drain
still pushes. -/
inductive OpKind where
  | mma (a b : FormatBlock) (m n k : Nat) (rows : List (Lanes Word)) (shared : Bool)
  | tzero
  | wload (cmd : Option Nat) (src len off : Nat)
  | tload (cmd : Option Nat) (src : Nat) (stride : Int) (m n from_ : Nat)
  | drain (cmd : Option Nat) (mode : Nat) (sp : Bool) (dest : Dword) (stride : Int) (m n into : Nat) (fmt : BitVec 16)
      (rnd : Nat) (started : Bool) (rows : List (Lanes Word))
  deriving DecidableEq, Repr

/-- A stream operation with the tile and the slot that it uses. -/
structure StreamOp where
  id : Nat
  pc : Pc
  kind : OpKind
  tile : Option Nat
  slot : Option Nat
  deriving DecidableEq, Repr

/-- How far the sequencer's held instruction has come: a KBAR that has joined its rope rendezvous, or that has
arrived; a TCFG that waits for its rope; an A-shared multiply, checked, that waits for its rope partner's; an operation on q1; a descriptor on a
page that is not present (R334, R339, R340, R362, R347, R376, R306). `w` are the instruction's words (R359). -/
inductive Hold where
  | none
  | rendezvous (bar : Nat) (w : Words)
  | arrived (bar : Nat)
  | tcfg (w : Words)
  | pair (kind : OpKind) (tile slot : Nat) (w : Words)
  | op (id : Nat)
  | descriptor (va : Nat) (served : Bool)
  deriving DecidableEq, Repr

/-- The matrix sequencer and the matrix state of a party (R330). -/
structure Sequencer where
  state : SeqState
  pc : Pc
  k : Vector Dword 16
  limit : Dword
  cfg : Dword
  valid : BitVec 4
  owner : Nat
  wbuf : Sparse Byte
  acc : Sparse Nat
  ops : List StreamOp
  hold : Hold
  /-- the valid configuration of a TCFG that has issued (R339) -/
  offer : Option Dword
  /-- A-shared broadcasts that the leader has sent and this member has not used: the leader's block, the bytes of each
  row, the scale bytes of each row (R340) -/
  casts : List (FormatBlock × List (List Byte) × List (List Byte))
  /-- another member of the rope has halted since its last TCFG (R341) -/
  broken : Bool
  /-- the state that a debug halt stopped (R331, R509) -/
  was : Option SeqState
  deriving DecidableEq, Repr

end Sys2Proof.Machine
end

