-- ==== Sys2Proof/Machine/StateGrid.lean ====
section
/-!
DEFINITION. Machine/StateGrid.lean: the records of the dispenser (R380-R412), of Base Camp's command queue, rings,
mailboxes and images (R467-R499), and of the faults that its fault service holds (R238, R482).
-/

namespace Sys2Proof.Machine

/-- A work-id field of a launch header (R380). -/
structure IdField where
  width : Nat
  extent : Nat
  deriving DecidableEq, Repr

/-- An entry of the bin table (R401). -/
structure BinEntry where
  entry : Dword
  buf : Dword
  count : Nat
  recSz : Nat
  cap : Nat
  timer : Nat
  deriving DecidableEq, Repr

/-- A launch header with its core set and its bin table, as read at acceptance (R380, R381). -/
structure Header where
  ptr : Dword
  hashed : Bool
  edgeRoute : Bool
  movable : Bool
  priv : Bool
  nstrand : Nat
  cpart : Nat
  cstrand : Nat
  edgeMask : Nat
  entry : Dword
  handler : Dword
  shadow : Dword
  centry : Dword
  scratch : Nat
  kshift : Nat
  kbits : Nat
  stealIdle : Nat
  kmul : Nat
  kbase : Nat
  fields : List IdField
  coreset : Option (List Nat)
  bins : List BinEntry
  deriving DecidableEq, Repr

/-- A bin's ring on a die (R402, R405, R406): records appended and claimed so far, records whose stores are not yet
acknowledged, batches claimed and not retired (first record, count), the timer, and since when the bin is ready. -/
structure Ring where
  die : Nat
  bin : Nat
  tail : Nat
  claimed : Nat
  waits : List Nat
  held : List (Nat × Nat)
  timer : Option Nat
  expired : Bool
  readyAt : Option Nat
  deriving DecidableEq, Repr

/-- A grid from its acceptance to its completion: `ranges`, `edges` and `seqs` by die, `queues` and `idle` by package
(R388-R394); `back` is the return list (R391); `live` counts the parties that have not ended. -/
structure Grid where
  tag : BitVec 32
  hdr : Header
  args : Dword
  root : Nat
  failLog : Dword
  save : Dword
  compute : List Nat
  /-- the number of its compute parties -/
  parts : Nat
  colls : List Nat
  ranges : List (Nat × Nat × Nat)
  edges : List (Nat × List Nat)
  back : List (Nat × Nat)
  queues : List (Nat × List Nat)
  idle : List (Nat × Nat)
  rings : List Ring
  seqs : List (Nat × Nat)
  withdrawn : List Nat
  live : Nat
  /-- the cause of the grid's first halt, and when it began (R507) -/
  cause : Cause
  causeAt : Nat
  failed : Nat
  whole : Bool
  deriving DecidableEq, Repr

/-- A core on thermal hold (R395, R396): since when, and whether its notice has been pushed. -/
structure CoreHold where
  core : Nat
  since : Nat
  noticed : Bool
  deriving DecidableEq, Repr

/-- A page fault that the fault service has not resolved (R482): the party, the page, the access kind, what it stops, its
time. -/
structure FaultRec where
  id : Nat
  grid : BitVec 32
  index : Nat
  core : Nat
  va : Pc
  kind : Nat
  who : FaultWho
  time : Nat
  /-- its record stands in the fault ring, not waiting for room -/
  ringed : Bool
  fatal : Bool
  deriving DecidableEq, Repr

/-- A started command that has not completed (R474, R476): what it waits for. -/
inductive CmdWait where
  /-- its completion record waits to be written -/
  | record
  | launch
  | saves (parties : List Nat) (count : Nat)
  /-- its buffer runs, or has run up to this SEQ -/
  | buffer (last : Option Nat)
  | halts (parties : List Nat) (count : Nat)
  /-- a SEMSIG waits for every earlier command but the IBUFs around it -/
  | signal (ptr value : Dword) (add : Bool) (around : List Nat)
  deriving DecidableEq, Repr

structure ActiveCmd where
  seq : Nat
  tag : BitVec 32
  op : BitVec 8
  irq : Bool
  grid : BitVec 32
  wait : CmdWait
  deriving DecidableEq, Repr

/-- A buffer of an IBUF that runs (R480): its base, packets, the next one, and the IBUF's SEQ. -/
structure Buffer where
  base : Nat
  count : Nat
  next : Nat
  seq : Nat
  deriving DecidableEq, Repr

/-- Why the queue is halted (R480, R518): an IBUF's cause; a packet that could not be read; a completion record that
could not be written. -/
inductive QueueHalt where
  | ibuf (o : Cmd) (c : Cause)
  | packet (seq : Nat)
  | record
  deriving DecidableEq, Repr

/-- The rack's command queue and rings (R471-R484). `stage` tells how far the packet in dispatch has come: 0 none, 2 it
waits at steps 2 to 5, 6 it is admitted and waits to start; `seq` counts on from a multiple of 2^64 at each
write of QBASE, and SEQ is its low 64 bits. -/
structure BaseCamp where
  qbase : Nat
  qsize : Nat
  qtail : Nat
  qhead : Nat
  qroot : Nat
  en : Bool
  state : BitVec 2
  qerr : BitVec 7
  qerrSeq : Nat
  qerrAddr : Nat
  cqbase : Nat
  cqsize : Nat
  cqtail : Nat
  cqhead : Nat
  fqbase : Nat
  fqsize : Nat
  fqtail : Nat
  fqhead : Nat
  seq : Nat
  stage : Nat
  /-- the header of the LAUNCH in dispatch, as read (R381) -/
  taken : Option Header
  buffers : List Buffer
  active : List ActiveCmd
  /-- completed commands whose records wait, with their times -/
  done : List (CmdResult × Nat)
  stop : Option QueueHalt
  faults : List FaultRec
  /-- debug-halt records that wait for room in the fault ring (R482) -/
  debugRecs : List (BitVec 32 × Nat × Pc × Nat)
  /-- the packages that hold the rack role and each tray role (R468), by role number -/
  roles : List (Nat × Nat)
  deriving DecidableEq, Repr

/-- A firmware image (R492, R493): version, SM3 measurement, load count. -/
structure Image where
  version : Nat
  measure : List Byte
  loads : Nat
  deriving DecidableEq, Repr

/-- A host's copy of the management mailbox (R491); `challenge` counts the claims that its challenges have served. -/
structure Mailbox where
  busy : Bool
  result : BitVec 8
  outLen : Nat
  challenge : Nat
  dataIn : Sparse Byte
  dataOut : List Byte
  deriving DecidableEq, Repr

/-- A standing claim (R488, R489). -/
structure Claim where
  host : HostId
  ident : List Byte
  prio : Nat
  deriving DecidableEq, Repr

/-- Ownership (R488-R490): the owner, standing claims, when the first claim was collected, the host links that are down and
since when. -/
structure Ownership where
  owner : Option Claim
  claims : List Claim
  since : Option Nat
  down : List (HostId × Nat)
  deriving DecidableEq, Repr

end Sys2Proof.Machine
end

