-- ==== Sys2Proof/Machine/StateFabric.lean ====
section
/-!
DEFINITION. Machine/StateFabric.lean: the records of the links, the transaction layer and the collective engine
(R416-R466).
-/

namespace Sys2Proof.Machine

/-- A module of a link, or a whole fabric port, in one direction (R434, R441): which of its halves it uses, since when it is in CHECK,
until when it sends its last flit in 1/21 core cycles (R432), and Base Camp's counts of its CRC failures, its checks and its
changes of state (R434). -/
structure Module where
  low : Bool
  high : Bool
  check : Option Nat
  busy : Nat
  crcs : Nat
  checks : Nat
  changes : Nat
  deriving DecidableEq, Repr

/-- A transaction-layer message (R431): what it causes at its destination, the links left on its route, and for a
numbered request its source core and transaction id (R436). -/
structure Message where
  dst : Nat
  ev : Instr
  slots : Nat
  path : List Nat
  num : Option (Nat × Nat)
  deriving DecidableEq, Repr

/-- A flit (R431, R433): its sequence number (none for one that carries acknowledgements alone), the messages whose
last slot it holds, its module, and the acknowledgement and negative acknowledgement in its header. -/
structure Flit where
  seq : Option Nat
  msgs : List Message
  module : Nat
  ack : Nat
  nak : Option (Nat × Nat)
  deriving DecidableEq, Repr

/-- One direction of a link or of a fabric port (R430-R434, R441). `queue` holds waiting messages with the slots left to
send; `buffer` the unacknowledged flits; `wire` what is on its way; `due` flits of the buffer to send again; `rx` the
next sequence number that its receiver accepts; `fails` the failures of the oldest flit; `asked` a negative
acknowledgement that the receiver owes or has sent and that the replay has not answered; `ackDue`, `nakDue` that it owes an
acknowledgement, or that one; `since` the cycle from which the acknowledgement of the oldest flit is awaited; `dealt` the port that
carried the last flit of its hop (R442). -/
structure Link where
  modules : List Module
  last : Nat
  queue : List (Message × Nat)
  seq : Nat
  buffer : List Flit
  due : List Flit
  wire : List Flit
  rx : Nat
  asked : Option (Nat × Nat)
  ackDue : Bool
  nakDue : Bool
  fails : Nat
  since : Nat
  down : Bool
  dealt : Nat
  deriving DecidableEq, Repr

/-- A request that has left its core and has no response (R436, R437, R439): its event, its id if it is numbered, and
whether it still waits at the core for a place. -/
structure Request where
  core : Nat
  die : Nat
  id : Option Nat
  ev : Instr
  held : Bool
  deriving DecidableEq, Repr

/-- What a destination die keeps for a source core (R438): the next id, held requests, ids handed to the slice, saved
responses. -/
structure Window where
  die : Nat
  core : Nat
  nx : Nat
  held : List (Nat × Instr)
  given : List (Nat × Instr)
  saved : List (Nat × Instr)
  deriving DecidableEq, Repr

/-- A member of a group as a packet was built for it (R418). -/
structure Member where
  rank : Nat
  base : Nat
  limit : Nat
  core : Nat
  inScratch : Bool
  anchor : Nat
  deriving DecidableEq, Repr

/-- What a packet does at its member (R447-R453, R459, R465). -/
inductive PktKind where
  | put | get | red | amo | mbx | sig | abort | txa
  deriving DecidableEq, Repr

/-- One lane of a packet: its lane, window offset, operand, compare value. -/
structure PktLane where
  lane : Nat
  off : Nat
  x : Dword
  y : Dword
  deriving DecidableEq, Repr

/-- How far a packet has come (R424, R426, R428): it waits for a sequence number, is under way, is held for its order or
for its party, has been applied. -/
inductive PktStep where
  | waiting | sent | held | ready | judged
  deriving DecidableEq, Repr

/-- The outcome of a packet (R428, R459). -/
inductive Outcome where
  | delivered | late | failed | noRoute | aborted | complete
  deriving DecidableEq, Repr

/-- A collective packet (R424, R446). `owner` is the access, TXA command or XABORT that sent it. -/
structure Packet where
  id : Nat
  core : Nat
  grid : BitVec 32
  index : Nat
  strand : Nat
  flow : Nat
  ordered : Bool
  window : Nat
  mem : Member
  kind : PktKind
  owner : Nat
  at_ : Nat
  seq : Option Nat
  time : Nat
  fn : Nat
  wide : Bool
  off : Nat
  bytes : List (Nat × Byte)
  lanes : List PktLane
  tag : BitVec 4
  count : Option (Nat × Nat)
  /-- the cause of the failure that left bytes out of it (R466) -/
  faulted : Option Cause
  step : PktStep
  /-- the outcome and the cause that its sender is told -/
  outcome : Option (Outcome × Cause)
  values : List (Nat × Nat)
  /-- lanes that read poison -/
  bad : List Nat
  /-- the largest wts of its lines that are homed in its sender's package (R269, R455) -/
  wts : Nat
  /-- its sender has asked for its outcome (R428) -/
  asked : Bool
  deriving DecidableEq, Repr

/-- What a destination die keeps for a source party and flow (R426); `arrived` holds packets of an unordered flow that have arrived
and are not applied, in order. -/
structure FlowRec where
  die : Nat
  grid : BitVec 32
  index : Nat
  flow : Nat
  exp : Nat
  applied : List (Nat × Outcome × Cause)
  arrived : List Nat
  deriving DecidableEq, Repr

end Sys2Proof.Machine
end

