-- ==== Sys2Proof/Machine/State.lean ====
section
/-!
DEFINITION. Machine/State.lean: the state of the rack as plain data, the two ways a step can stop without a next
state, and the state right after package cold reset.
-/

namespace Sys2Proof.Machine

/-- Why a step stops with a fault of the model. No fault stands for anything the K5 does: the K5's own faults are
traps, halts and notices, which are next states. -/
inductive Fault where
  /-- exec of an instruction was called while no slot and no sequencer is issuing; step never does so. Safe. -/
  | noIssuer
  deriving DecidableEq, Repr

/-- Why a step has no meaning. -/
inductive Refusal where
  /-- An instruction without a meaning in this model; raised by its arm of exec alone. Safe. -/
  | notModelled (mnemonic : String)
  deriving DecidableEq, Repr

/-- Who issues the instruction that exec runs: a slot of a strand, a core's sequencer, nobody. -/
inductive Focus where
  | none
  | slot (w : SlotRef)
  | sequencer (core : Nat)
  deriving DecidableEq, Repr

/-- An open item of a party (R398): its index and its work id. -/
structure OpenItem where
  index : Nat
  wid : Dword
  deriving DecidableEq, Repr

/-- An open batch of a party (R406): its handle, die, bin, first record and number of records. -/
structure OpenBatch where
  handle : Dword
  die : Nat
  bin : Nat
  first : Nat
  count : Nat
  deriving DecidableEq, Repr

/-- An open flow of a party (R422): its window's address and its page, W, the mode, the next sequence number for each
destination die, the dies of its members, and the slot and register of a close in progress (R457). -/
structure Flow where
  num : Nat
  window : Dword
  level : Nat
  size : Nat
  ordered : Bool
  seqs : List (Nat × Nat)
  dies : List Nat
  closing : Option (SlotRef × BitVec 7)
  deriving DecidableEq, Repr

/-- A TXA that has not completed (R464-R466): `elems` are its elements (source address, member's rank, window offset),
`stage` 0 while its source is read, 1 while its data packets are unresolved, 2 after its last packets are sent. -/
structure Txa where
  id : Nat
  strand : Nat
  pitch : Nat
  flow : Nat
  window : Nat
  tag : BitVec 4
  arv : Bool
  rel : Bool
  cover : Nat
  esz : Nat
  src : Nat
  inScratch : Bool
  elems : List (Nat × Nat × Nat)
  members : List Member
  stage : Nat
  err : Bool
  /-- the segments that failed, with their causes (R466) -/
  causes : List (Nat × Cause)
  /-- each rank whose count-only packet is still to be sent, with its arrivals and units (R465) -/
  counts : List (Nat × Nat × Nat)
  deriving DecidableEq, Repr

/-- An XABORT in progress (R458-R460): the slot that waits, where its outcome vector goes, the members, the codes
known. -/
structure Abort where
  id : Nat
  slot : SlotRef
  off : Nat
  count : Nat
  codes : List (Nat × Nat)
  deriving DecidableEq, Repr

/-- The party on a core (R113, R409). -/
structure Party where
  grid : BitVec 32
  index : Nat
  collective : Bool
  movable : Bool
  priv : Bool
  root : Nat
  scratchSize : Nat
  shadows : Bool
  status : PartyStatus
  strands : Vector Strand 16
  q0 : Vector (List (Lanes Word)) 8
  q1in : List (Lanes Word)
  q1out : List (Lanes Word)
  q5 : List (Lanes Word)
  /-- the queues to which instructions of this cycle have pushed: 120 with the window, or 125 (R187) -/
  newQ : List (Nat × Nat)
  q2 : List Dword
  /-- values of q3 that a FETCH of the issuing instruction has obtained and its operands have not read yet (R24) -/
  dsq : List Dword
  q4 : List Dword
  q4lost : Nat
  bars : Vector Barrier 16
  thnd : BitVec 54
  flowOpen : Word
  flowOrd : Word
  scopes : Vector ScopeEntry 32
  scratch : Sparse Byte
  swz : Sparse (BitVec 2)
  spoison : Sparse Bool
  accesses : List Access
  producers : List (Nat × Producer)
  cmds : List EngineCmd
  /-- the fix-up list, oldest first: command and segment (R327) -/
  fixups : List (Nat × Nat)
  /-- the serial number of the next command (R329) -/
  serial : Nat
  seq : Sequencer
  halt : Option HaltInfo
  /-- it is debug-halted, also while it is saved or suspended (R509) -/
  dbg : Bool
  /-- a debug halt asked for while it was suspended, under ALL or not (R478) -/
  dbgWant : Option Bool
  items : List OpenItem
  batches : List OpenBatch
  flows : List Flow
  txas : List Txa
  aborts : List Abort
  deriving DecidableEq, Repr

/-- A core: its logical clock, L1 and store buffer (R265, R232, R241), and the cycles from which its two lane pipes are
free (R126, R127). -/
structure Core where
  pts : Nat
  lastAdv : Nat
  l1 : List L1Line
  sb : List (Nat × SbEntry)
  pipe0 : Nat
  pipe1 : Nat
  deriving DecidableEq, Repr

/-- The logical clock of a collective engine, and the cycle of its last advance (R421, R274). -/
structure EngineClock where
  pts : Nat
  lastAdv : Nat
  deriving DecidableEq, Repr

/-- The time domain and registers of a package (R265, R267, R280, R471). -/
structure Pkg where
  era : Nat
  gen : Bool
  paused : Bool
  driftM1 : Nat
  lease : Nat
  hbmEnd : Nat
  poolLim : Nat
  resetAt : Nat
  ready : Bool
  hwBase0 : BitVec 64
  hwBase1 : BitVec 64
  tHi : Nat
  tLo : Nat
  droopMax : Nat
  droopWin : Nat
  holdMax : Nat
  pwrCap : Nat
  /-- matrix issue is gated (R499) -/
  gated : Bool
  /-- the sensor block (R498), by byte -/
  sensors : Sparse Byte
  images : List (Nat × Image)
  staged : List (Nat × Image)
  /-- reports made since cold reset (R494) -/
  reports : Nat
  deriving DecidableEq, Repr

/-- A line that a home slice holds in L2 (R266); `lock` names the commit that holds it: core x 16 + strand. -/
structure L2Line where
  wts : Nat
  rts : Nat
  gen : Bool
  pinned : Bool
  lock : Option Nat
  deriving DecidableEq, Repr

/-- A copy of a remote SI line in a package's L2 (R279). -/
structure RemoteCopy where
  pkg : Nat
  line : Nat
  data : BitVec 1024
  tags : BitVec 16
  poison : BitVec 4
  deriving DecidableEq, Repr

/-- A TLB entry of a cluster (R232): level 0, 1 or 2 gives the page size; `home` is where its leaf lies (R228). -/
structure TlbEntry where
  cluster : Nat
  root : Nat
  level : Nat
  vpn : Nat
  pte : Dword
  home : Nat
  deriving DecidableEq, Repr

/-- A walk that ended in a fault, for the accesses that wait for it. -/
structure WalkFail where
  cluster : Nat
  root : Nat
  page : Nat
  write : Bool
  cause : Cause
  deriving DecidableEq, Repr

/-- A poison log of a home slice (R285): the first detection and the count of later ones. -/
structure PoisonLog where
  first : Nat
  more : Nat
  deriving DecidableEq, Repr

/-- A suspended party (R409): the core it last ran on. -/
structure Parked where
  core : Nat
  party : Party
  deriving DecidableEq, Repr

/-- The registers of a strand before the first lane instruction of a cycle wrote them: the second reads these (R187). -/
structure LaneRegs where
  core : Nat
  strand : Nat
  cycle : Nat
  v : Vector (Lanes Word) 88
  s : Vector Dword 24
  m : Vector Word 7
  full : BitVec 120
  deriving DecidableEq, Repr

/-- The state of the rack. -/
structure State where
  now : Nat
  agenda : List Instr
  /-- events of the agenda that still run in this cycle -/
  pend : Nat
  sched : List Nat
  evicts : List Nat
  /-- the instruction that exec ran has issued -/
  issued : Bool
  fresh : Nat
  nextId : Nat
  focus : Focus
  /-- the places of the core on turn that have issued in this cycle, a bit each: lane pipe 0, lane pipe 1, uniform, access,
  sequencer; 31 when the core is done -/
  phase : Nat
  /-- how many cores have had their turn in this cycle -/
  turn : Nat
  /-- the registers that the strand's second lane instruction of this cycle reads (R187) -/
  laneRegs : Option LaneRegs
  cores : List (Nat × Core)
  parties : List (Nat × Party)
  mem : Sparse Byte
  tags : Sparse (BitVec 4)
  poison : Sparse Bool
  poolmap : Sparse (BitVec 8)
  pkgs : List (Nat × Pkg)
  l2 : List (Nat × L2Line)
  mts : Sparse Nat
  remotes : List RemoteCopy
  plogs : List (Nat × PoisonLog)
  /-- the slices whose poison log Base Camp reads and clears at the end of this cycle (R285), as it chooses -/
  plogReads : List Nat
  /-- what Base Camp has read of poison logs: slice, log, cycle (R285) -/
  plogSeen : List (Nat × PoisonLog × Nat)
  tlb : List TlbEntry
  walks : List WalkReq
  walkFails : List WalkFail
  msix : List Nat
  saved : List Parked
  grids : List (Nat × Grid)
  holds : List CoreHold
  droops : List (Nat × List Nat)
  bc : BaseCamp
  mailboxes : List (HostId × Mailbox)
  /-- requests of the mailbox copies in order of arrival (R491) -/
  mailQ : List HostId
  own : Ownership
  /-- fenced dies, and host dies as 576 + package (R487) -/
  fenced : List Nat
  misses : List (Nat × Nat)
  links : List (Nat × Link)
  requests : List Request
  windows : List Window
  /-- the next transaction id of a source core and a destination die (R436) -/
  txIds : List ((Nat × Nat) × Nat)
  /-- the clocks of the collective engines (R421), by die -/
  clocks : List (Nat × EngineClock)
  packets : List Packet
  flowRecs : List FlowRec
  deriving DecidableEq, Repr

/-- The outcome of a step. -/
abbrev Out : Type := Host.Outcome State Fault Refusal

/-- A core at cold reset (R265). -/
def Core.reset : Core := ⟨0, 0, [], [], 0, 0⟩

/-- A package's registers at cold reset (R471, R265). -/
def Pkg.reset : Pkg where
  era := 0
  gen := false
  paused := false
  driftM1 := 255
  lease := 16
  hbmEnd := 0
  poolLim := 0
  resetAt := 0
  ready := false
  hwBase0 := 0
  hwBase1 := 0
  tHi := 95
  tLo := 88
  droopMax := 8
  droopWin := 65536
  holdMax := 400000
  pwrCap := 3600
  gated := false
  sensors := []
  images := []
  staged := []
  reports := 0

/-- Base Camp's queue registers at cold reset (R471). -/
def BaseCamp.reset : BaseCamp where
  qbase := 0
  qsize := 4
  qtail := 0
  qhead := 0
  qroot := 0
  en := false
  state := 0
  qerr := 0
  qerrSeq := 0
  qerrAddr := 0
  cqbase := 0
  cqsize := 4
  cqtail := 0
  cqhead := 0
  fqbase := 0
  fqsize := 4
  fqtail := 0
  fqhead := 0
  seq := 0
  stage := 0
  taken := none
  buffers := []
  active := []
  done := []
  stop := none
  faults := []
  debugRecs := []
  roles := []

/-- The state right after package cold reset. -/
def State.reset : State where
  now := 0
  agenda := []
  pend := 0
  sched := []
  evicts := []
  issued := false
  fresh := 0
  nextId := 0
  focus := .none
  phase := 0
  turn := 0
  laneRegs := none
  cores := []
  parties := []
  mem := []
  tags := []
  poison := []
  poolmap := []
  pkgs := []
  l2 := []
  mts := []
  remotes := []
  plogs := []
  plogReads := []
  plogSeen := []
  tlb := []
  walks := []
  walkFails := []
  msix := []
  saved := []
  grids := []
  holds := []
  droops := []
  bc := BaseCamp.reset
  mailboxes := []
  mailQ := []
  own := ⟨none, [], none, []⟩
  fenced := []
  misses := []
  links := []
  requests := []
  windows := []
  txIds := []
  clocks := []
  packets := []
  flowRecs := []

end Sys2Proof.Machine
end

