-- ==== Sys2Proof/Machine/Ops.lean ====
section
/-!
DEFINITION. Machine/Ops.lean: the named operations over the state: parties, strands, slots, registers and their
full/empty bits, scratchpad, queues, notices, the agenda, and taking a trap and returning from one.
-/

namespace Sys2Proof.Machine

/-- One value per lane. -/
def tab {α : Type} (f : Fin 32 → α) : Lanes α := ⟨⟨laneList.map f⟩, by simp [laneList]⟩

/-- The same value in every lane. -/
def splat {α : Type} (x : α) : Lanes α := tab fun _ => x

/-- A mask with the bits of the lanes for which `f` holds. -/
def maskOf (f : Fin 32 → Bool) : Word :=
  laneList.foldl (fun m i => if f i then m ||| (1#32 <<< i.val) else m) 0

/-- Lane `i` is set in a mask. -/
abbrev inMask (m : Word) (i : Fin 32) : Bool := m.getLsbD i.val

/-- The lowest lane of a mask. -/
def lowLane (m : Word) : Option (BitVec 5) := (laneList.find? (inMask m)).map (fun i => BitVec.ofNat 5 i.val)

/-- The number of 1 bits. -/
def popCount {w : Nat} (x : BitVec w) : Nat := (List.range w).foldl (fun n i => if x.getLsbD i then n + 1 else n) 0

/-- The number of leading zero bits. -/
def clz {w : Nat} (x : BitVec w) : Nat :=
  ((List.range w).foldl (fun (n : Nat) i => if x.getLsbD i then w - 1 - i else n) w)

-- slots and strands

/-- A slot that is not live. -/
def Slot.dead : Slot := ⟨.notLive, 0, 0, 0, ⟨false, false, false, false, false⟩, false, .none, none, none, none, none, none⟩

/-- A trap record at launch (R182-R184). The maps of TCAUSE and TSTATE give PV, PARTNER, STRAND and SLOT no value at launch: 0 and
slot A (DESIGN CHOICE, log entry 114). -/
def TrapRec.launch : TrapRec :=
  ⟨false, false, 0, 0, .a, 0, 0, 0, none, 0, 0, 0, 0, 0, 0, 0, false, .a, ⟨false, false, false, false, false⟩, .notLive,
    false⟩

/-- R57: the stochastic-rounding state of lane `i` for a seed. -/
def seedLane (seed : Word) (i : Nat) : Word :=
  let x := seed ^^^ BitVec.ofNat 32 (i * 0x9E3779B9)
  if x = 0 then 1 else x

/-- A strand index that no strand has taken, with the launch values of every register (R101, R148). -/
def Strand.blank : Strand where
  live := false
  ended := false
  v := Vector.replicate 88 (splat 0)
  s := Vector.replicate 24 0
  m := Vector.replicate 7 0
  full := BitVec.allOnes 120
  slots := Vector.replicate 2 Slot.dead
  depth := 0
  dspBase := 0
  shd := false
  partner := 0
  step := false
  inh := false
  trap := TrapRec.launch
  rngseed := 0
  rng := tab fun i => seedLane 0 i.val
  fmt := Vector.replicate 8 0
  anc := Vector.replicate 4 0
  pitch := ⟨1, 0, false, []⟩
  wp := Vector.replicate 4 ⟨0, 2, 0, 0, false, 0, false, none, ⟨0, true, 0, []⟩, 0⟩
  pastWp := []
  held := none
  txn := none
  fence := none
  logOver := 0
  pendingFault := none
  owed := []

/-- The index of a slot letter. -/
def slotIdx : SlotId → Nat
  | .a => 0
  | .b => 1
def otherSlot : SlotId → SlotId
  | .a => .b
  | .b => .a

def Strand.slot (st : Strand) (x : SlotId) : Slot := st.slots[slotIdx x]?.getD Slot.dead
def Strand.setSlot (st : Strand) (x : SlotId) (l : Slot) : Strand :=
  { st with slots := st.slots.setIfInBounds (slotIdx x) l }
def Strand.modSlot (st : Strand) (x : SlotId) (f : Slot → Slot) : Strand := st.setSlot x (f (st.slot x))

def Party.strand (p : Party) (i : Nat) : Strand := p.strands[i]?.getD Strand.blank
def Party.setStrand (p : Party) (i : Nat) (st : Strand) : Party := { p with strands := p.strands.setIfInBounds i st }
def Party.modStrand (p : Party) (i : Nat) (f : Strand → Strand) : Party := p.setStrand i (f (p.strand i))
def Party.slot (p : Party) (w : SlotRef) : Slot := (p.strand w.strand).slot w.slot
def Party.modSlot (p : Party) (w : SlotRef) (f : Slot → Slot) : Party := p.modStrand w.strand (·.modSlot w.slot f)

def State.party? (s : State) (c : Nat) : Option Party := kget s.parties c
def State.setParty (s : State) (c : Nat) (p : Party) : State := { s with parties := kput s.parties c p }
def State.modParty (s : State) (c : Nat) (f : Party → Party) : State :=
  match s.party? c with
  | some p => s.setParty c (f p)
  | none => s
def State.core (s : State) (c : Nat) : Core := (kget s.cores c).getD Core.reset
def State.setCore (s : State) (c : Nat) (k : Core) : State := { s with cores := kput s.cores c k }
def State.modCore (s : State) (c : Nat) (f : Core → Core) : State := s.setCore c (f (s.core c))

/-- The strand of a slot reference; the blank strand where there is no party. -/
def State.strandOf (s : State) (w : SlotRef) : Strand :=
  match s.party? w.core with
  | some p => p.strand w.strand
  | none => Strand.blank
def State.slotOf (s : State) (w : SlotRef) : Slot := (s.strandOf w).slot w.slot
def State.modStrand (s : State) (w : SlotRef) (f : Strand → Strand) : State := s.modParty w.core (·.modStrand w.strand f)
def State.modSlot (s : State) (w : SlotRef) (f : Slot → Slot) : State := s.modParty w.core (·.modSlot w f)

-- registers

def Strand.vreg (st : Strand) (n : Nat) : Lanes Word := st.v[n]?.getD (splat 0)
def Strand.sreg (st : Strand) (n : Nat) : Dword := st.s[n]?.getD 0
/-- m1-m7. -/
def Strand.mreg (st : Strand) (n : Nat) : Word := st.m[n - 1]?.getD 0
def Strand.setV (st : Strand) (n : Nat) (x : Lanes Word) : Strand := { st with v := st.v.setIfInBounds n x }
def Strand.setS (st : Strand) (n : Nat) (x : Dword) : Strand := { st with s := st.s.setIfInBounds n x }
def Strand.setM (st : Strand) (n : Nat) (x : Word) : Strand := { st with m := st.m.setIfInBounds (n - 1) x }

/-- A mask register of a slot: m0 is the slot's own (R75). -/
def Strand.mask (st : Strand) (x : SlotId) (n : Nat) : Word := if n = 0 then (st.slot x).m0 else st.mreg n

/-- Lanes of `mask` take the new value, the others keep the old one. -/
def blend {α : Type} (mask : Word) (new old : Lanes α) : Lanes α := tab fun i => if inMask mask i then new[i] else old[i]

/-- A v register written in the lanes of a mask (R76). -/
def Strand.setVIn (st : Strand) (mask : Word) (n : Nat) (x : Lanes Word) : Strand :=
  st.setV n (blend mask x (st.vreg n))

-- full/empty bits (R80)

/-- A register's full/empty bit; specifiers 120 to 127 are always full. -/
def Strand.isFull (st : Strand) (r : Nat) : Bool := 120 ≤ r || st.full.getLsbD r
def Strand.setFull (st : Strand) (b : Bool) (r : Nat) : Strand :=
  if r < 120 then
    { st with full := if b then st.full ||| (1#120 <<< r) else st.full &&& ~~~(1#120 <<< r) }
  else st
def Strand.setFulls (st : Strand) (b : Bool) (rs : List Nat) : Strand := rs.foldl (fun t r => t.setFull b r) st

-- scratchpad (R10, R239): offsets are not translated

def scratchRead (m : Sparse Byte) (off n : Nat) : Nat := bytesNat ((List.range n).map fun i => sget 0 m (off + i))
def scratchWrite (m : Sparse Byte) (off : Nat) (bs : List Byte) : Sparse Byte :=
  (bs.zipIdx).foldl (fun m p => sput 0 m (off + p.2) p.1) m
def Party.readScratch (p : Party) (off n : Nat) : Nat := scratchRead p.scratch off n
/-- A store to scratchpad. A store that fills a 32-byte granule clears its poison (R286). -/
def Party.writeScratch (p : Party) (off n v : Nat) : Party :=
  { p with scratch := scratchWrite p.scratch off (natBytes n v) }

-- the agenda, serial numbers, free values

/-- An event put at the end of the agenda. -/
def State.post (s : State) (i : Instr) : State := { s with agenda := s.agenda ++ [i] }
def State.bump (s : State) : State := { s with nextId := s.nextId + 1 }
/-- The instruction that exec runs has issued, with its effect or with its fault. -/
def State.markIssued (s : State) : State := { s with issued := true }

-- the queues and notices (R23, R28, R29, R167)

/-- A sleeping slot wakes. -/
def Slot.wake (l : Slot) : Slot :=
  match l.wait with
  | .sleep _ _ => { l with wait := .none }
  | _ => l

/-- Every sleeping slot of the party wakes: an entry was pushed to q2 or q4 (R167). -/
def Party.wakeAll (p : Party) : Party :=
  (List.range 16).foldl (fun p i => p.modStrand i fun st => (st.modSlot .a Slot.wake).modSlot .b Slot.wake) p

/-- R29: a record enters q4 whole, or is dropped and counted (R28). -/
def Party.notice (p : Party) (w0 w1 : Dword) : Party :=
  if p.q4.length + 2 ≤ 128 then { p with q4 := p.q4 ++ [w0, w1] }.wakeAll else { p with q4lost := p.q4lost + 1 }

-- causes and traps (R500, R501, R504, R174, R175)

/-- The code of a cause (R500). -/
def causeCode : Cause → BitVec 7
  | .none => 0x00 | .illegalOpcode => 0x01 | .illegalOperand => 0x02 | .reservedField => 0x03 | .privileged => 0x04
  | .misalignedFetch => 0x05 | .fetchFault => 0x06 | .joinMismatch => 0x07 | .divstackOverflow => 0x08
  | .divstackUnderflow => 0x09 | .feEmpty => 0x0A | .queueEmpty => 0x0B | .breakpoint => 0x0C | .singleStep => 0x0D
  | .watchHit => 0x0E | .pageNotPresent => 0x10 | .protectionRead => 0x11 | .protectionWrite => 0x12
  | .protectionExec => 0x13 | .tagMismatch => 0x14 | .misalignedAccess => 0x15 | .noncanonicalAddress => 0x16
  | .attributeConflict => 0x17 | .poisonConsumed => 0x18 | .scratchRange => 0x19 | .homeUnreachable => 0x1A
  | .copyAlign => 0x20 | .copyDescriptor => 0x21 | .anchorOverflow => 0x22 | .anchorPhase => 0x23
  | .anchorMisaligned => 0x24 | .pitchRange => 0x25
  | .tileConfig => 0x30 | .matrixFormat => 0x31 | .swizzleMismatch => 0x32 | .weightSlot => 0x33
  | .raggedNotCapable => 0x34 | .ropeMismatch => 0x35 | .mstreamIllegal => 0x36 | .scaleFetch => 0x37
  | .groupPermission => 0x40 | .peerRange => 0x41 | .flowLate => 0x42 | .flowFailed => 0x43 | .layoutMap => 0x44
  | .collectiveAborted => 0x45 | .linkDown => 0x46 | .fetchNotBound => 0x50 | .binRange => 0x51 | .preempted => 0x52
  | .thermalHold => 0x53 | .wdoneNoitem => 0x54 | .ibNestDepth => 0x58 | .ibSelfReference => 0x59
  | .boundFieldFault => 0x5A | .commandMalformed => 0x5B | .deadlineReject => 0x5C | .commandFault => 0x5D
  | .dumpSecondary => 0x5E | .machineCheck => 0x5F
  | .trap n => 0x60 + n.setWidth 7

/-- R253: the lanes of an open transaction fail with a code; a lane that has failed keeps its code. -/
def Txn.failAll (t : Txn) (code : BitVec 2) : Txn :=
  { t with lanes := tab fun i =>
      let l := t.lanes[i]
      if inMask t.members i && l.code = 0 then { l with code := code, writes := [] } else l }

/-- The handler's entry (R180: THND [55:2]). -/
def Party.handler (p : Party) : Pc := p.thnd ++ 0#2

/-- The trap record written at delivery (R174 steps 2 and 3, R182-R184, R504). -/
def Strand.record (st : Strand) (w : SlotRef) (t : TrapInfo) : TrapRec :=
  let x := st.slot w.slot
  let y := st.slot (otherSlot w.slot)
  { wpf := st.trap.wpf
    pv := !t.stream && st.shd
    partner := if t.stream then 0 else st.partner
    strand := BitVec.ofNat 4 w.strand
    slot := w.slot
    code := causeCode t.cause
    tpc := t.pc
    tinsn := t.words.w1 ++ t.words.w0
    lane := t.lane
    lmask := t.mask
    addr := t.addr
    overCount := t.ovr.count
    overPc := t.ovr.pc
    tepc := t.tepc
    em := x.em
    m0 := x.m0
    olive := y.st != .notLive
    hslot := w.slot
    flags := x.flags
    otherSt := y.st
    stream := t.stream }

/-- R174: the delivery of a trap to the party's handler; the slot issues no more in the cycle `now`. -/
def Party.deliver (p : Party) (w : SlotRef) (t : TrapInfo) (now : Nat) : Party :=
  p.modStrand w.strand fun st =>
    let st1 := { st with trap := st.record w t, inh := true, txn := st.txn.map fun x => Txn.failAll x 1 }
    let st2 := st1.modSlot (otherSlot w.slot) fun y => if y.st = SlotState.notLive then y else { y with st := .suspended }
    st2.modSlot w.slot fun x => { x with st := .running, m0 := x.em, pc := p.handler, wait := .none, lastAt := some now }

/-- R339: the members of a rope. -/
def ropeCores (rope core : Nat) : List Nat :=
  let c := core / 4 * 4
  if rope = 0 then [core]
  else if rope = 3 then [c, c + 1, c + 2, c + 3]
  else [core / 2 * 2, core / 2 * 2 + 1]

/-- R341: a member's sequencer has halted: each other member of its rope halts before its next operation that depends on the rope; one
that a debug halt has stopped does so once it goes on. -/
def State.breakRope (s : State) (core : Nat) : State :=
  match s.party? core with
  | none => s
  | some p =>
    ((ropeCores (p.seq.cfg.extractLsb' 41 2).toNat core).filter (· != core)).foldl (fun s m => s.modParty m fun t =>
      if t.grid = p.grid ∧ (t.seq.state ≠ .halted ∨ t.seq.was.isSome) then { t with seq := { t.seq with broken := true } } else t) s

/-- The party stops for a halt (R507 step 1): its status names the halt, and the halt event carries it on. -/
def State.halt (s : State) (w : SlotRef) (t : TrapInfo) (all : Bool) : State :=
  match s.party? w.core with
  | none => s
  | some p =>
    let h : HaltInfo := ⟨t, w.strand, w.slot, all, (p.strand w.strand).inh, false, s.now⟩
    ((s.setParty w.core { p with status := .halting, halt := some h }).breakRope w.core).post (.partyHalt ⟨w.core⟩)

/-- R509: an undelivered BREAKPOINT or SINGLE_STEP writes the trap record, makes TEPC the next PC, and takes a debug
halt. -/
def State.debugStop (s : State) (w : SlotRef) (t : TrapInfo) : State :=
  match s.party? w.core with
  | none => s
  | some p =>
    let h : HaltInfo := ⟨t, w.strand, w.slot, false, false, true, s.now⟩
    let p1 := p.modStrand w.strand fun st =>
      { st with trap := st.record w t }.modSlot w.slot fun x => { x with pc := t.tepc }
    (s.setParty w.core { p1 with status := .debugHalt, halt := some h }).post (.debugHalt ⟨w.core, false, t.cause⟩)

/-- R502, R507: a fault that arises once a halt has begun: in the halt's own cycle one of a lower strand that halts too is the halting
fault instead, and a MACHINE_CHECK makes the halt one of the whole party (HALT.ALL). -/
def Party.lateFault (p : Party) (h : HaltInfo) (w : SlotRef) (t : TrapInfo) (now : Nat) : Party :=
  let st := p.strand w.strand
  let check := t.cause = .machineCheck
  if h.time = now ∧ w.strand < h.strand ∧ (st.inh ∨ p.thnd = 0 ∨ check) then
    let p1 := p.modStrand h.strand fun st => { st with pendingFault := some (h.info.cause, h.info.pc) }
    { p1 with halt := some ⟨t, w.strand, w.slot, h.all || decide check, st.inh, false, now⟩ }
  else
    { p.modStrand w.strand fun st => { st with pendingFault := some (t.cause, t.pc) } with
      halt := some { h with all := h.all || decide check } }

/-- TAKING A TRAP (R501): the fault `t` of slot `w` is delivered, halts the party, or takes a debug halt. A fault
raised after a halt began is the strand's pending fault (R502). -/
def State.takeTrap (s : State) (w : SlotRef) (t : TrapInfo) : State :=
  match s.party? w.core with
  | none => s
  | some p =>
    let st := p.strand w.strand
    if p.status = .halting then
      match p.halt with
      | some h =>
        let s1 := s.setParty w.core (p.lateFault h w t s.now)
        if t.cause = .machineCheck then { s1 with msix := s1.msix ++ [3] } else s1
      | none => s.setParty w.core (p.modStrand w.strand fun st => { st with pendingFault := some (t.cause, t.pc) })
    else if t.cause = .machineCheck then { s.halt w t true with msix := s.msix ++ [3] }
    else if st.inh then s.halt w t false
    else if p.thnd = 0 then
      if t.cause = .breakpoint ∨ t.cause = .singleStep then s.debugStop w t else s.halt w t false
    else s.setParty w.core (p.deliver w t s.now)

/-- The same for an instruction that issued under an earlier THND (R172). -/
def State.takeTrapUnder (s : State) (thnd : BitVec 54) (w : SlotRef) (t : TrapInfo) : State :=
  match s.party? w.core with
  | none => s
  | some p => ((s.setParty w.core { p with thnd := thnd }).takeTrap w t).modParty w.core fun q => { q with thnd := p.thnd }

/-- R264, R359: the receiving slot of a strand: slot A when it is live, not vacant and not suspended, else slot B. -/
def Strand.hitSlot (st : Strand) : SlotId :=
  let a := st.slot .a
  if a.st = .notLive ∨ a.em = 0 ∨ a.st = .suspended then .b else .a

/-- RETURNING FROM A TRAP (R178, R506): the slot `w` resumes at TEPC with TSM.M0 and TSTATE.FLAGS, the handler mode
ends, and the other slot resumes as it was suspended. -/
def Strand.leaveHandler (st : Strand) (w : SlotRef) : Strand :=
  let r := st.trap
  let st1 := { st with inh := false, trap := { r with stream := false } }
  let st2 := st1.modSlot w.slot fun x => { x with pc := r.tepc, m0 := r.m0 &&& x.em, flags := r.flags }
  if r.olive then st2.modSlot (otherSlot w.slot) fun y => { y with st := r.otherSt } else st2

end Sys2Proof.Machine
end

