-- ==== Sys2Proof/Machine/Operands.lean ====
section
/-!
DEFINITION. Machine/Operands.lean: every way an instruction reads and writes its operands: lane operands of 32, 64
and 128 bits (R76, R78), uniform operands (R77), queue pops and pushes (R23-R27), and the conditions under which a
source or a destination holds an instruction or traps (R81, R126, R136, R137).
-/

namespace Sys2Proof.Machine

/-- R27: an entry with zero in every inactive lane. -/
def pushEntry (mask : Word) (x : Lanes Word) : Lanes Word := tab fun i => if inMask mask i then x[i] else 0

/-- The shadow window that a strand pops or, for a shadow strand, pushes (R137). -/
def windowOf (w : SlotRef) : Nat := if 8 ≤ w.strand then w.strand - 8 else w.strand
def Party.window (p : Party) (i : Nat) : List (Lanes Word) := p.q0[i]?.getD []
def Party.setWindow (p : Party) (i : Nat) (q : List (Lanes Word)) : Party := { p with q0 := p.q0.setIfInBounds i q }

/-- A pop of a lane-class queue (R24): the oldest entry, zeros where there is none. -/
def Party.popLane (p : Party) (w : SlotRef) (r : Nat) : Lanes Word × Party :=
  if r = 120 then ((p.window (windowOf w)).headD (splat 0), p.setWindow (windowOf w) (p.window (windowOf w)).tail)
  else if r = 121 then (p.q1out.headD (splat 0), { p with q1out := p.q1out.tail })
  else (p.q5.headD (splat 0), { p with q5 := p.q5.tail })

/-- A push to a lane-class queue (R24, R27). -/
def Party.pushLane (p : Party) (w : SlotRef) (r : Nat) (x : Lanes Word) : Party :=
  if r = 120 then { p.setWindow (windowOf w) (p.window (windowOf w) ++ [x]) with newQ := p.newQ ++ [(120, windowOf w)] }
  else if r = 121 then { p with q1in := p.q1in ++ [x] }
  else { p with q5 := p.q5 ++ [x], newQ := p.newQ ++ [(125, 0)] }

/-- A 32-bit lane source (R76). -/
def Party.src32 (p : Party) (w : SlotRef) (r : BitVec 7) : Lanes Word × Party :=
  let st := p.strand w.strand
  if isV r then (st.vreg r.toNat, p)
  else if isS r then (splat ((st.sreg (r.toNat - 88)).setWidth 32), p)
  else if isM r then (tab fun i => if inMask (st.mask w.slot (r.toNat - 112)) i then 1 else 0, p)
  else if isQ r then p.popLane w r.toNat
  else if r = zr then (splat 0, p)
  else (tab fun i => BitVec.ofNat 32 i.val, p)

/-- A 64-bit lane source (R78): an even-odd pair, an s register, or a zero-extended m, id, zr. -/
def Party.src64 (p : Party) (w : SlotRef) (r : BitVec 7) : Lanes Dword :=
  let st := p.strand w.strand
  if isV r then tab fun i => (st.vreg (r.toNat + 1))[i] ++ (st.vreg r.toNat)[i]
  else if isS r then splat (st.sreg (r.toNat - 88))
  else tab fun i => ((p.src32 w r).1[i]).setWidth 64

/-- A 128-bit lane source (R78). -/
def Party.src128 (p : Party) (w : SlotRef) (r : BitVec 7) : Lanes (BitVec 128) :=
  let st := p.strand w.strand
  if isV r then
    tab fun i => (st.vreg (r.toNat + 3))[i] ++ (st.vreg (r.toNat + 2))[i] ++ (st.vreg (r.toNat + 1))[i]
      ++ (st.vreg r.toNat)[i]
  else tab fun i => ((p.src64 w r)[i]).setWidth 128

/-- A uniform source (R77); a pop of q3 reads what its FETCH obtained. -/
def Party.srcU (p : Party) (w : SlotRef) (r : BitVec 7) : Dword × Party :=
  let st := p.strand w.strand
  if isS r then (st.sreg (r.toNat - 88), p)
  else if isM r then ((st.mask w.slot (r.toNat - 112)).setWidth 64, p)
  else if r = 122 then (p.q2.headD 0, { p with q2 := p.q2.tail })
  else if r = 123 then (p.dsq.headD 0, { p with dsq := p.dsq.tail })
  else if r = 124 then (p.q4.headD 0, { p with q4 := p.q4.tail })
  else if r = zr then (0, p)
  else (BitVec.ofNat 64 w.strand, p)

/-- The active lanes of a slot. -/
def Party.active (p : Party) (w : SlotRef) : Word := (p.slot w).m0

/-- A 32-bit lane result (R76, R185): written in the active lanes; bit 0 of each lane to an m register; a push to a
queue; discarded for zr. -/
def Party.dst32 (p : Party) (w : SlotRef) (r : BitVec 7) (x : Lanes Word) : Party :=
  let act := p.active w
  if isV r then p.modStrand w.strand (·.setVIn act r.toNat x)
  else if isM r then
    p.modStrand w.strand fun st =>
      st.setM (r.toNat - 112)
        (maskOf fun i => if inMask act i then x[i].getLsbD 0 else inMask (st.mreg (r.toNat - 112)) i)
  else if isQ r then p.pushLane w r.toNat (pushEntry act x)
  else p

/-- A 64-bit lane result: the low word to the even register (R78, R194). -/
def Party.dst64 (p : Party) (w : SlotRef) (r : BitVec 7) (x : Lanes Dword) : Party :=
  if isV r then
    p.modStrand w.strand fun st =>
      (st.setVIn (p.active w) r.toNat (tab fun i => x[i].extractLsb' 0 32)).setVIn (p.active w) (r.toNat + 1)
        (tab fun i => x[i].extractLsb' 32 32)
  else p

/-- A mask register written in the active lanes (R197). -/
def Party.dstMask (p : Party) (w : SlotRef) (md : Nat) (f : Fin 32 → Bool) : Party :=
  p.modStrand w.strand fun st =>
    st.setM md (maskOf fun i => if inMask (p.active w) i then f i else inMask (st.mreg md) i)

/-- A uniform result (R77, R151): a write to m0 is ANDed with the slot's em; zr discards it. -/
def Party.dstU (p : Party) (w : SlotRef) (r : BitVec 7) (x : Dword) : Party :=
  if isS r then p.modStrand w.strand (·.setS (r.toNat - 88) x)
  else if isM r then
    if r.toNat = 112 then p.modSlot w fun l => { l with m0 := x.setWidth 32 &&& l.em }
    else p.modStrand w.strand (·.setM (r.toNat - 112) (x.setWidth 32))
  else p

-- results of slots that may stand on the divergence stack (R120, R123, R134)

def Strand.owe (st : Strand) (k : Nat) (f : OwedSlot → OwedSlot) : Strand :=
  { st with owed := f ((st.owed.find? (·.entry == k)).getD ⟨k, none, none⟩) :: st.owed.filter (·.entry != k) }

/-- A uniform result of a slot wherever it stands. -/
def Party.dstHome (p : Party) (i : Nat) (h : SlotHome) (r : BitVec 7) (x : Dword) : Party :=
  match h with
  | .live k => p.dstU ⟨0, i, k⟩ r x
  | .pushed k => if r.toNat = 112 then p.modStrand i (·.owe k fun o => { o with m0 := some (x.setWidth 32) }) else p.dstU ⟨0, i, .a⟩ r x

/-- R134: EX of a slot wherever it stands; `more` says that another FETCH of the slot leaves it pending. -/
def Party.exHome (p : Party) (i : Nat) (h : SlotHome) (ex : Bool) (more : Bool) : Party :=
  match h with
  | .live k => p.modSlot ⟨0, i, k⟩ fun l => { l with flags := { l.flags with ex := ex }, exPending := more }
  | .pushed k => p.modStrand i (·.owe k fun o => { o with ex := some ex })

/-- R134: the slot whose EX a result leaves pending until it is written. -/
def Result.exSlot? : Result → Option SlotHome
  | .fetched _ x _ _ => some x
  | .batch _ x _ => some x
  | _ => none

/-- R134: a producer of the slot, other than number `id`, leaves EX pending. -/
def Party.exAfter (p : Party) (id strand : Nat) (slot : SlotHome) : Bool :=
  p.producers.any fun (j, q) => j != id && q.strand == strand && q.res.exSlot? == some slot

-- the registers an operand covers (R78, R131)

/-- The v registers of a run of `n` from `r` on. A position that is not aligned is illegal; until it is ready it waits for the
v registers of its run (log entry 13). -/
def vRun (r n : Nat) : List Nat := ((List.range n).map (r + ·)).filter (· < 88)

/-- The specifiers with a full/empty bit that a source covers. -/
def Src.regs (x : Src) : List Nat :=
  let r := x.spec.toNat
  match x.kind with
  | .l64 => if isV x.spec then vRun r 2 else [r]
  | .l128 => if isV x.spec then vRun r 4 else [r]
  | _ => [r]

/-- The specifiers that a destination covers. -/
def Dst.regs (x : Dst) : List Nat :=
  let r := x.spec.toNat
  match x.kind with
  | .l64 | .sincos => if isV x.spec then vRun r 2 else [r]
  | .l128 => if isV x.spec then vRun r 4 else [r]
  | _ => [r]

/-- The registers a destination marks; zr marks nothing (R132). -/
def marksOf (d : Option Dst) : List Nat :=
  match d with
  | none => []
  | some x => (Dst.regs x).filter (· < 120)

/-- Every register the source covers is full. -/
def Strand.srcFull (st : Strand) (x : Src) : Bool := (Src.regs x).all st.isFull
def Strand.dstFull (st : Strand) (x : Dst) : Bool := (Dst.regs x).all st.isFull

/-- R25, R23: a queue register that the strand may name as a source in this kind of position. -/
def Party.queueSrcOk (p : Party) (w : SlotRef) (k : SrcKind) (r : BitVec 7) : Bool :=
  if r.toNat = 120 then
    (k == .l32 || k == .wait) && p.shadows && w.strand < 8
  else if r.toNat = 121 || r.toNat = 125 then k == .l32 || k == .wait
  else k == .uni || k == .wait

/-- The number of entries of a queue that the strand could pop (R28, R169): of q0 and q5 not those that an instruction of this cycle
has pushed, since the instructions of a cycle read before any of them writes (R187). -/
def Party.queueLen (p : Party) (w : SlotRef) (r : Nat) : Nat :=
  if r = 120 then (p.window (windowOf w)).length - p.newQ.count (120, windowOf w)
  else if r = 121 then p.q1out.length
  else if r = 122 then p.q2.length
  else if r = 124 then p.q4.length
  else if r = 125 then p.q5.length - p.newQ.count (125, 0)
  else 2

/-- R137: after the pops before it the window is empty, and its shadow has ended, so a pop of q0 traps whatever its e bit. -/
def Party.windowDead (p : Party) (w : SlotRef) (r : Nat) (popped : List Nat) : Bool :=
  r = 120 && decide ((p.window (windowOf w)).length ≤ popped.count r) && !(p.strand (windowOf w + 8)).live

/-- R126: whether the sources let the instruction issue. Pops of one queue are counted in order. A position whose
register is illegal there holds nothing; its fault is found at issue. -/
def Party.srcsReady (p : Party) (w : SlotRef) : List Src → List Nat → Bool
  | [], _ => true
  | x :: t, popped =>
    let r := x.spec.toNat
    if isQ x.spec then
      if !p.queueSrcOk w x.kind x.spec then p.srcsReady w t popped
      else (x.e || (x.kind != .wait && p.windowDead w r popped) || r == 123 || popped.count r < p.queueLen w r)
        && p.srcsReady w t (if x.kind == .wait then popped else r :: popped)
    else (x.e || (p.strand w.strand).srcFull x) && p.srcsReady w t popped

/-- R25: the strand may push the shadow window: it is a shadow strand. -/
def Party.mayPushWindow (p : Party) (w : SlotRef) : Bool := p.shadows && decide (8 ≤ w.strand)

/-- R126: whether the destination lets it issue: full in every component, or room in the pushed queue. A queue register
that is illegal there holds nothing; its fault is found at issue. -/
def Party.dstReady (p : Party) (w : SlotRef) (d : Option Dst) : Bool :=
  match d with
  | none => true
  | some x =>
    let r := x.spec.toNat
    if isQ x.spec && !Dst.ok x then true
    else if r = 120 then !p.mayPushWindow w || (p.window (windowOf w)).length < 16
    else if r = 121 then p.q1in.length < 8
    else if r = 125 then p.q5.length < 16
    else (p.strand w.strand).dstFull x

/-- R81, R24, R137: the first source that traps, in the order of R26. -/
def Party.srcsFault (p : Party) (w : SlotRef) : List Src → List Nat → Option Cause
  | [], _ => none
  | x :: t, popped =>
    let r := x.spec.toNat
    if isQ x.spec then
      if x.kind == .wait || r == 123 then p.srcsFault w t popped
      else if p.queueLen w r ≤ popped.count r then some .queueEmpty
      else p.srcsFault w t (r :: popped)
    else if x.e && !(p.strand w.strand).srcFull x then some .feEmpty
    else p.srcsFault w t popped

/-- R25, R136: the operand uses that are illegal for this strand: a queue it may not read or write, v72-v87 named by
a compute strand beside a shadow. -/
def Party.rolesOk (p : Party) (w : SlotRef) (ro : Roles) : Bool :=
  let partner := p.shadows && w.strand < 8
  let vOk (rs : List Nat) : Bool := !partner || rs.all fun r => r < 72 || 88 ≤ r
  ro.srcs.all (fun x => (!isQ x.spec || p.queueSrcOk w x.kind x.spec) && vOk (Src.regs x))
    && ro.dst.all (fun x => (x.spec.toNat != 120 || p.mayPushWindow w) && vOk (Dst.regs x))

end Sys2Proof.Machine
end

