-- ==== Sys2Proof/Machine/Flags.lean ====
section
/-!
DEFINITION. Machine/Flags.lean: the flags and the conditions: branch conditions (R97), the flags of a difference
(R98) and of MTEST (R161), compare conditions of integers (R196).
-/

namespace Sys2Proof.Machine

/-- R97: the condition `code` of a slot; codes 19 to 31 name none. -/
def condHolds (code : Nat) (l : Slot) : Bool :=
  let f := l.flags
  match code with
  | 0 => true
  | 1 => f.z
  | 2 => !f.z
  | 3 => f.n != f.v
  | 4 => f.n == f.v
  | 5 => !f.z && f.n == f.v
  | 6 => f.z || f.n != f.v
  | 7 => !f.c
  | 8 => f.c
  | 9 => f.c && !f.z
  | 10 => !f.c || f.z
  | 11 => f.v
  | 12 => !f.v
  | 13 => l.m0 == 0
  | 14 => l.m0 != 0
  | 15 => l.m0 == l.em
  | 16 => l.m0 != l.em
  | 17 => f.ex
  | 18 => !f.ex
  | _ => false

/-- A condition that reads EX (R134). -/
def condReadsEx (code : Nat) : Bool := code == 17 || code == 18

/-- R98: N, Z, C and V of the difference x - y of `w` bits; EX is kept. -/
def cmpFlags {w : Nat} (x y : BitVec w) (f : Flags) : Flags :=
  let d := x - y
  { n := d.msb, z := d == 0, c := decide (y.toNat ≤ x.toNat)
    v := decide (x.toInt - y.toInt ≠ d.toInt), ex := f.ex }

/-- R161: the flags of MTEST. -/
def testFlags (x y : Word) (f : Flags) : Flags :=
  let t := x &&& y
  { n := t.getLsbD 31, z := t == 0, c := t == y, v := false, ex := f.ex }

/-- R196: the compare condition `cc` on operands of `w` bits; codes 12 to 15 name none. -/
def ccHolds {w : Nat} (cc : Nat) (x y : BitVec w) : Bool :=
  match cc with
  | 0 => x == y
  | 1 => x != y
  | 2 => x.toInt < y.toInt
  | 3 => y.toInt ≤ x.toInt
  | 4 => y.toInt < x.toInt
  | 5 => x.toInt ≤ y.toInt
  | 6 => x.toNat < y.toNat
  | 7 => y.toNat ≤ x.toNat
  | 8 => y.toNat < x.toNat
  | 9 => x.toNat ≤ y.toNat
  | 10 => x &&& y != 0
  | 11 => x &&& y == 0
  | _ => false

/-- The flags of a slot replaced. -/
def Party.setFlags (p : Party) (w : SlotRef) (f : Flags) : Party := p.modSlot w fun l => { l with flags := f }

end Sys2Proof.Machine
end

