-- ==== Sys2Proof/Machine/Memory.lean ====
section
/-!
DEFINITION. Machine/Memory.lean: physical addresses and their homes (R33-R38, R268), bytes and lines of memory, tags
and poison, stamps, and the lines that a home slice holds (R19, R229, R266, R271, R280).
-/

namespace Sys2Proof.Machine

-- packages and cores (R17, R20, R21)

def pkgOfCore (c : Nat) : Nat := c / 256
/-- The rack die index: package x 8 + die. -/
def dieOfCore (c : Nat) : Nat := c / 32
/-- The rack cluster index (R20): four cores. -/
def clusterOfCore (c : Nat) : Nat := c / 4

def State.pkg (s : State) (p : Nat) : Pkg := (kget s.pkgs p).getD Pkg.reset
/-- R180: CYC, the core cycles since the reset of the core's package. -/
def State.cyc (s : State) (core : Nat) : Nat := s.now - (s.pkg (pkgOfCore core)).resetAt
/-- R427: what a package's rack time count reads in a cycle; the counts stay within 64 core cycles of each other (log entry 124). -/
def rackCount (p now : Nat) : Nat := now + Config.rackSkew p % 65
def State.rackTime (s : State) (p : Nat) : Nat := rackCount p s.now
def State.setPkg (s : State) (p : Nat) (k : Pkg) : State := { s with pkgs := kput s.pkgs p k }
def State.modPkg (s : State) (p : Nat) (f : Pkg → Pkg) : State := s.setPkg p (f (s.pkg p))

-- physical addresses

/-- R36: the fold of bits [47:16] of a pooled address. -/
def poolFold (g : Nat) : Nat := (g % 1024) ^^^ (g / 1024 % 1024) ^^^ (g / 1048576 % 1024) ^^^ (g / 1073741824 % 4)

/-- R36: the package that POOLMAP names for a fold. -/
def State.poolHome (s : State) (h : Nat) : Nat := (sget 0 s.poolmap h).toNat

/-- R37: c and n of a fold: how many entries name the package, and how many of them lie below h. -/
def State.poolCount (s : State) (p h : Nat) : Nat := ((List.range h).filter fun i => s.poolHome i == p).length

/-- R37: the offset inside the home package of a pooled address. -/
def State.poolOffset (s : State) (pa : Nat) : Nat :=
  let g := pa / 65536 % 2 ^ 35
  let h := poolFold g
  let p := s.poolHome h
  (s.pkg p).hbmEnd * 65536 + ((g / 1024) * s.poolCount p 1024 + s.poolCount p h) * 65536 + pa % 65536

/-- A resolved address: home package x 2^44 + offset inside it. -/
def resolved (pkg off : Nat) : Nat := pkg * 2 ^ 44 + off
def resPkg (r : Nat) : Nat := r / 2 ^ 44
def resOff (r : Nat) : Nat := r % 2 ^ 44

/-- R34: bytes of HBM4E of a package, and its other regions. -/
def hbmBytes : Nat := 0x9000000000
def isMmioOff (off : Nat) : Bool := 0xF0000000000 ≤ off
def isTier2Off (off : Nat) : Bool := 0x80000000000 ≤ off && off < 0x90000000000

/-- R33-R35: the home package and offset of a physical address; none is HOME_UNREACHABLE. -/
def State.resolve (s : State) (pa : Nat) : Option Nat :=
  if pa / 2 ^ 51 % 2 = 1 then
    if pa / 2 ^ 48 % 8 ≠ 0 ∨ (s.pkg 0).poolLim ≤ pa / 65536 % 2 ^ 35 then none
    else some (resolved (s.poolHome (poolFold (pa / 65536 % 2 ^ 35))) (s.poolOffset pa))
  else
    let p := pa / 2 ^ 44 % 128
    let off := pa % 2 ^ 44
    if 72 ≤ p then none
    else if off < hbmBytes then (if off < (s.pkg p).hbmEnd * 65536 then some (resolved p off) else none)
    else if isTier2Off off || isMmioOff off then some (resolved p off)
    else none

/-- R268: the home die (rack die index) of a resolved address; an MMIO address belongs to its package's host die, numbered
576 + package. -/
def homeDie (r : Nat) : Nat :=
  let o := resOff r
  if isMmioOff o then 576 + resPkg r
  else resPkg r * 8 + ((o / 2 ^ 8 % 16) ^^^ (o / 2 ^ 20 % 16) ^^^ (o / 2 ^ 32 % 16)) / 2
/-- R268: the home slice, numbered over the rack. -/
def homeSlice (r : Nat) : Nat :=
  let o := resOff r
  homeDie r * 16 + ((o / 2 ^ 12 % 16) ^^^ (o / 2 ^ 24 % 16) ^^^ (o / 2 ^ 36 % 16))

/-- Lines of 128 bytes, numbered by resolved address. -/
def lineOf (r : Nat) : Nat := r / 128
def lineAddr (l : Nat) : Nat := l * 128

-- memory: bytes, tags, poison

def State.readByte (s : State) (r : Nat) : Byte := sget 0 s.mem r
def State.writeByte (s : State) (r : Nat) (b : Byte) : State := { s with mem := sput 0 s.mem r b }
def State.readMem (s : State) (r n : Nat) : Nat := bytesNat ((List.range n).map fun i => s.readByte (r + i))
/-- The bytes of a list written from an address upward. -/
def memWrite (m : Sparse Byte) : Nat → List Byte → Sparse Byte
  | _, [] => m
  | r, b :: t => memWrite (sput 0 m r b) (r + 1) t
def State.writeMem (s : State) (r : Nat) (bs : List Byte) : State := { s with mem := memWrite s.mem r bs }

/-- The 128 bytes of a line as one value, byte 0 in the low bits. -/
def State.lineData (s : State) (l : Nat) : BitVec 1024 := BitVec.ofNat 1024 (s.readMem (lineAddr l) 128)
/-- The bytes that a mask selects, written from line data. -/
def State.writeLine (s : State) (l : Nat) (mask : BitVec 128) (data : BitVec 1024) : State :=
  (List.range 128).foldl (fun s i =>
    if mask.getLsbD i then s.writeByte (lineAddr l + i) (data.extractLsb' (8 * i) 8) else s) s

/-- The four granule tags of a line (R256). -/
def State.lineTags (s : State) (l : Nat) : BitVec 16 :=
  sget 0 s.tags (4 * l + 3) ++ sget 0 s.tags (4 * l + 2) ++ sget 0 s.tags (4 * l + 1) ++ sget 0 s.tags (4 * l)
def State.setTag (s : State) (granule : Nat) (t : BitVec 4) : State := { s with tags := sput 0 s.tags granule t }
/-- The four poison bits of a line (R266 PSN, R285). -/
def State.linePoison (s : State) (l : Nat) : BitVec 4 :=
  bit1 (sget false s.poison (4 * l + 3)) ++ bit1 (sget false s.poison (4 * l + 2))
    ++ bit1 (sget false s.poison (4 * l + 1)) ++ bit1 (sget false s.poison (4 * l))
def State.setPoison (s : State) (sector : Nat) (b : Bool) : State := { s with poison := sput false s.poison sector b }

/-- R286: a store that writes all 32 bytes of a sector clears its poison. -/
def State.clearPoison (s : State) (l : Nat) (mask : BitVec 128) : State :=
  (List.range 4).foldl (fun s k =>
    if mask.extractLsb' (32 * k) 32 = BitVec.allOnes 32 then s.setPoison (4 * l + k) false else s) s

-- stamps (R266, R271, R280)

/-- R280: a stamp as the current generation reads it. -/
def curStamp (cur gen : Bool) (t : Nat) : Nat := if cur = gen then t else t - 2 ^ 22

/-- The stamps of a line at its home: a line that is not in L2 is filled with the slice's memory stamp. -/
def State.stamps (s : State) (l : Nat) : L2Line :=
  let g := (s.pkg (resPkg (lineAddr l))).gen
  match kget s.l2 l with
  | some x => { x with wts := curStamp g x.gen x.wts, rts := curStamp g x.gen x.rts, gen := g }
  | none =>
    let t := sget 0 s.mts (homeSlice (lineAddr l))
    ⟨t, t, g, false, none⟩
/-- The stamps of a line of L2 in place. -/
def State.putStamps (s : State) (l : Nat) (x : L2Line) : State := { s with l2 := kput s.l2 l x }

/-- R266: a line leaves L2; its rts folds into the slice's memory stamp. Pinned and locked lines stay. -/
def State.evictLine (s : State) (l : Nat) : State :=
  match kget s.l2 l with
  | none => s
  | some x =>
    if x.pinned || x.lock.isSome then s
    else
      let sl := homeSlice (lineAddr l)
      let t := (s.stamps l).rts
      { s with l2 := serase l s.l2, mts := sput 0 s.mts sl (max (sget 0 s.mts sl) t) }

/-- R19: lines of 128 bytes that one slice of 32 MiB holds. -/
def sliceLines : Nat := 262144
/-- R229: pinned lines that one slice holds, 16 MiB. -/
def slicePinned : Nat := 131072

/-- The lines of a slice that L2 holds. -/
def State.inSlice (s : State) (slice : Nat) : List (Nat × L2Line) := s.l2.filter fun (l, _) => homeSlice (lineAddr l) == slice

/-- R19, R266: a full slice lets one line go before it takes another, the lowest that may leave. -/
def State.roomFor (s : State) (l : Nat) : State :=
  if s.l2.length < sliceLines || (kget s.l2 l).isSome then s
  else
    let mine := s.inSlice (homeSlice (lineAddr l))
    if mine.length < sliceLines then s
    else match mine.find? fun (_, x) => !x.pinned && x.lock.isNone with
      | some (k, _) => s.evictLine k
      | none => s

/-- A line takes its stamps; it enters L2 if it was not there. -/
def State.setStamps (s : State) (l : Nat) (x : L2Line) : State := (s.roomFor l).putStamps l x

/-- R229: a local line reached through a leaf with HOME = 01 is pinned in its slice, which holds at most 16 MiB of pinned lines. -/
def State.pinLine (s : State) (l : Nat) : State :=
  let x := s.stamps l
  if x.pinned then s
  else if slicePinned ≤ s.l2.length &&
      decide (slicePinned ≤ ((s.inSlice (homeSlice (lineAddr l))).filter fun (_, y) => y.pinned).length) then s
  else s.setStamps l { x with pinned := true }

/-- R271: a store or atomic stamps its line; the new wts. -/
def State.stampWrite (s : State) (l pts : Nat) : State × Nat :=
  let x := s.stamps l
  let t := max pts (x.rts + 1)
  (s.setStamps l { x with wts := t, rts := t }, t)

/-- R284: the line is held by a commit. -/
def State.locked (s : State) (l : Nat) : Bool := (s.stamps l).lock.isSome

/-- R269: the core's clock takes a stamp. -/
def State.foldPts (s : State) (core wts : Nat) : State :=
  let k := s.core core
  if k.pts < wts then s.setCore core { k with pts := wts, lastAdv := s.now } else s
/-- R277, R274: the clock advances by some ticks. -/
def State.tick (s : State) (core n : Nat) : State :=
  let k := s.core core
  s.setCore core { k with pts := k.pts + n, lastAdv := s.now }

end Sys2Proof.Machine
end

