-- ==== Sys2Proof/Machine/Fetch.lean ====
section
/-!
DEFINITION. Machine/Fetch.lean: the dispenser as it hands out items (R382-R393, R398, R399), keeps the return list (R391),
and moves the parties of a MOVABLE grid (R410-R412).
-/

namespace Sys2Proof.Machine

/-- R342, R20: the edge cores of a die. -/
def edgeCore (c : Nat) : Bool := 28 ≤ c % 32

-- the index space (R382, R383)

/-- N. -/
def Header.size (h : Header) : Nat := if h.fields = [] then 0 else h.fields.foldl (fun n f => n * f.extent) 1

/-- WorkId: the id so far, the next low bit, what is left of the index. -/
def workIdFrom : List IdField → Nat → Nat → Nat → Nat
  | [], id, _, _ => id
  | f :: t, id, lo, x => workIdFrom t (id + (x % f.extent) * 2 ^ lo) (lo + f.width) (x / f.extent)
def Header.workId (h : Header) (x : Nat) : Dword := BitVec.ofNat 64 (workIdFrom h.fields 0 0 x)

/-- R383. -/
def edgeFrom (mask : Nat) : List IdField → Nat → Nat → Bool
  | [], _, _ => false
  | f :: t, k, x => (mask.testBit k && x % f.extent + 1 == f.extent) || edgeFrom mask t (k + 1) (x / f.extent)
def Header.isEdge (h : Header) (x : Nat) : Bool := h.edgeRoute && edgeFrom h.edgeMask h.fields 0 x

-- grids

def State.grid? (s : State) (tag : BitVec 32) : Option Grid := kget s.grids tag.toNat
def State.setGrid (s : State) (g : Grid) : State := { s with grids := kput s.grids g.tag.toNat g }
def State.modGrid (s : State) (tag : BitVec 32) (f : Grid → Grid) : State :=
  match s.grid? tag with
  | some g => s.setGrid (f g)
  | none => s

/-- A die's range; empty where it has none. -/
def Grid.range (g : Grid) (die : Nat) : Nat × Nat := (kget g.ranges die).getD (0, 0)
def Grid.setRange (g : Grid) (die lo hi : Nat) : Grid :=
  { g with ranges := if lo < hi then kput g.ranges die (lo, hi) else serase die g.ranges }
def Grid.edgeList (g : Grid) (die : Nat) : List Nat := (kget g.edges die).getD []
def Grid.setEdges (g : Grid) (die : Nat) (l : List Nat) : Grid :=
  { g with edges := if l = [] then serase die g.edges else kput g.edges die l }

/-- The return list with a range added, lowest first. -/
def addRange (lo hi : Nat) : List (Nat × Nat) → List (Nat × Nat)
  | [] => if lo < hi then [(lo, hi)] else []
  | (a, b) :: t => if hi ≤ lo then (a, b) :: t else if lo < a then (lo, hi) :: (a, b) :: t else (a, b) :: addRange lo hi t

/-- The return list without an index. -/
def dropIndex (x : Nat) : List (Nat × Nat) → List (Nat × Nat)
  | [] => []
  | (a, b) :: t =>
    if a ≤ x ∧ x < b then (if a < x then [(a, x)] else []) ++ (if x + 1 < b then [(x + 1, b)] else []) ++ t
    else (a, b) :: dropIndex x t

/-- The lowest index of a range that is not an edge item; the first argument bounds the search by the range's length. -/
def firstPlain (h : Header) : Nat → Nat → Option Nat
  | 0, _ => none
  | k + 1, lo => if h.isEdge lo then firstPlain h k (lo + 1) else some lo

/-- R391: the lowest returned index that a core may take. -/
def Grid.returned (g : Grid) (core : Nat) : Option Nat :=
  g.back.findSome? fun (a, b) => if edgeCore core then (if a < b then some a else none) else firstPlain g.hdr (b - a) a

/-- What a FETCH finds (R389-R393): it waits for room in the edge list, which it has filled; there is no index, though the ranges may
have changed; an index. -/
inductive Take where
  | wait (g : Grid)
  | nothing (g : Grid)
  | got (x : Nat) (g : Grid)
  deriving DecidableEq, Repr

/-- R393: the edge indices at the bottom of a range, as far as there is room: the new bottom, those passed over, whether an edge index
is left at the bottom. -/
def passEdges (h : Header) : Nat → Nat → Nat → List Nat → Nat × List Nat × Bool
  | room, lo, hi, moved =>
    if hi ≤ lo ∨ h.isEdge lo = false then (lo, moved, false)
    else match room with
      | 0 => (lo, moved, true)
      | k + 1 => passEdges h k (lo + 1) hi (moved ++ [lo])

/-- R393: a FETCH of a core that is not an edge core passes over the edge indices at the bottom of its die's range. They join
the edge list, or the return list while no party runs on an edge core of the die (`keeps` = false). It waits when the edge list is full
and an edge index is left. -/
def Grid.passOver (g : Grid) (die : Nat) (keeps : Bool) : Grid × Bool :=
  let (lo, hi) := g.range die
  let es := g.edgeList die
  let (lo1, moved, full) := passEdges g.hdr (if keeps then 64 - es.length else hi - lo) lo hi []
  let g1 := g.setRange die lo1 hi
  (if keeps then g1.setEdges die (es ++ moved) else { g1 with back := moved.foldl (fun b x => addRange x (x + 1) b) g1.back }, full)

/-- The bottom of the die's range is taken, if there is one. -/
def Grid.bottom (g : Grid) (die : Nat) : Take :=
  let (lo, hi) := g.range die
  if lo < hi then .got lo (g.setRange die (lo + 1) hi) else .nothing g

/-- R391: a returned index is taken. -/
def Grid.takeBack (g : Grid) (x : Nat) : Take := .got x { g with back := dropIndex x g.back }

/-- R391: the lower of the returned index and the die's own. -/
def Grid.lower (g : Grid) (back own : Option Nat) (takeOwn : Take) : Take :=
  match back, own with
  | some x, some y => if x < y then g.takeBack x else takeOwn
  | some x, none => g.takeBack x
  | none, _ => takeOwn

/-- R390: the victim of a steal for a die: the scope's largest range of at least 2 indices. -/
def Grid.victim (g : Grid) (die : Nat) : Option (Nat × Nat × Nat) :=
  let best (f : Nat → Bool) : Option (Nat × Nat × Nat) :=
    g.ranges.foldl (fun acc r =>
      if r.1 != die && f r.1 && decide (r.2.1 + 2 ≤ r.2.2) then
        match acc with
        | none => some r
        | some b => if b.2.2 - b.2.1 < r.2.2 - r.2.1 then some r else acc
      else acc) none
  match best fun d => d / 8 == die / 8 with
  | some r => some r
  | none =>
    match best fun d => d / 72 == die / 72 with
    | some r => some r
    | none => best fun _ => true

/-- R390: a FETCH whose die has neither a range nor an edge list steals; the stolen range is its die's from then on. -/
def Grid.steal (g : Grid) (die core : Nat) (keeps : Bool) : Take :=
  match g.victim die with
  | none => .nothing g
  | some (v, a, b) =>
    let m := a + (b - a + 1) / 2
    let g1 := (g.setRange v a m).setRange die m b
    if edgeCore core then g1.bottom die
    else match g1.passOver die keeps with
      | (g2, true) => .wait g2
      | (g2, false) => g2.bottom die

/-- R389, R393: a FETCH of an edge core: the lowest of the edge list's head, the range's bottom and, below both, what was
returned. -/
def Grid.takeEdge (g : Grid) (die core : Nat) : Take :=
  let (lo, hi) := g.range die
  match g.edgeList die with
  | e :: t =>
    g.lower (g.returned core) (some (if lo < hi then min lo e else e))
      (if lo < hi ∧ lo < e then g.bottom die else .got e (g.setEdges die t))
  | [] => g.lower (g.returned core) (if lo < hi then some lo else none) (if lo < hi then g.bottom die else g.steal die core true)

/-- R389, R391, R393: a FETCH of another core. A returned index below its die's range comes first; else the edge items at the
bottom of the range are passed over. -/
def Grid.takePlain (g : Grid) (die core : Nat) (keeps : Bool) : Take :=
  let (lo, hi) := g.range die
  match g.returned core with
  | some x =>
    if x < lo ∨ hi ≤ lo then g.takeBack x
    else match g.passOver die keeps with
      | (g1, true) => .wait g1
      | (g1, false) =>
        let (lo1, hi1) := g1.range die
        g1.lower (some x) (if lo1 < hi1 then some lo1 else none) (g1.bottom die)
  | none =>
    match g.passOver die keeps with
    | (g1, true) => .wait g1
    | (g1, false) =>
      let (lo1, hi1) := g1.range die
      if lo1 < hi1 ∨ g1.edgeList die ≠ [] then g1.bottom die else g1.steal die core keeps

/-- RANGE mode (R389-R393). -/
def Grid.takeRange (g : Grid) (die core : Nat) (keeps : Bool) : Take :=
  if edgeCore core then g.takeEdge die core else g.takePlain die core keeps

/-- HASHED mode (R394): the head of the package's queue. -/
def Grid.takeHashed (g : Grid) (pkg : Nat) : Take :=
  match kget g.queues pkg with
  | some (x :: t) => .got x { g with queues := kput g.queues pkg t }
  | _ => .nothing g

/-- What a FETCH of a core finds; `keeps` says that a party of the grid runs on an edge core of its die. -/
def Grid.take (g : Grid) (core : Nat) (keeps : Bool) : Take :=
  if g.hdr.hashed then g.takeHashed (pkgOfCore core) else g.takeRange (dieOfCore core) core keeps

/-- R393: a compute party of the grid runs on an edge core of a die. -/
def State.edgeKept (s : State) (g : Grid) (die : Nat) : Bool :=
  s.parties.any fun (c, p) => p.grid == g.tag && !p.collective && dieOfCore c == die && edgeCore c
def State.takeFor (s : State) (g : Grid) (core : Nat) : Take := g.take core (s.edgeKept g (dieOfCore core))

/-- R392, R407: a FETCH of a core would receive EX. -/
def State.dry (s : State) (g : Grid) (core : Nat) : Bool :=
  match s.takeFor g core with
  | .nothing _ => true
  | _ => false

-- scopes (R31, R260)

/-- R31: the smallest fixed cover that holds a set, seen from a core. -/
def coverOf (core : Nat) (set : List Nat) : BitVec 3 :=
  if set.all (· == core) then 1
  else if set.all fun c => dieOfCore c == dieOfCore core then 2
  else if set.all fun c => pkgOfCore c == pkgOfCore core then 3
  else if set.all fun c => pkgOfCore c / 9 == pkgOfCore core / 9 then 4
  else 5

/-- R260: the core numbers of a bitmap. -/
def bitmapCores (bs : List Byte) : List Nat :=
  (bs.zipIdx).flatMap fun (b, k) => (List.range 8).filterMap fun i => if b.getLsbD i then some (8 * k + i) else none

-- parties that move (R410-R412)

/-- R335: the ROPE field of the party's configuration. -/
def Party.rope (p : Party) : Nat := (p.seq.cfg.extractLsb' 41 2).toNat

/-- The items that a party holds, as R412 counts them. -/
def Party.lowItem (p : Party) (n : Nat) : Nat :=
  match p.items with
  | [] => n
  | i :: t => t.foldl (fun m j => min m j.index) i.index
def Party.highItem (p : Party) (n : Nat) : Nat :=
  match p.items with
  | [] => n
  | i :: t => t.foldl (fun m j => max m j.index) i.index

/-- R412: a core of the grid that can take a party. -/
def State.freeFor (s : State) (g : Grid) (core : Nat) : Bool :=
  g.compute.contains core && !g.withdrawn.contains core && (s.party? core).isNone && (s.pkg (pkgOfCore core)).ready
    && !s.fenced.contains (dieOfCore core)

/-- A unit of R412: its members' last cores, its key, its lowest party number. -/
structure MoveUnit where
  cores : List Nat
  rope : Nat
  key : Nat
  index : Nat
  deriving DecidableEq, Repr

/-- R412: suspended units. A rope counts as one, holding the highest item of its members. -/
def State.parkedUnits (s : State) (g : Grid) : List MoveUnit :=
  let n := g.hdr.size
  let mine := s.saved.filter fun k => k.party.grid == g.tag && !k.party.collective
  mine.filterMap fun k =>
    let r := k.party.rope
    let group := mine.filter fun j => (ropeCores r k.core).contains j.core && (j.core == k.core || j.party.rope == r)
    if group.any fun j => j.core < k.core then none
    else some ⟨group.map Parked.core, r,
      if r = 0 then k.party.lowItem n else group.foldl (fun m j => max m (j.party.highItem n)) 0, k.party.index⟩

/-- R412: running units; one with a halting member is no longer suspended. -/
def State.runningUnits (s : State) (g : Grid) : List MoveUnit :=
  let n := g.hdr.size
  let mine := s.parties.filter fun (_, p) => p.grid == g.tag && !p.collective
  mine.filterMap fun (c, p) =>
    let r := p.rope
    let group := mine.filter fun (d, q) => (ropeCores r c).contains d && (d == c || q.rope == r)
    if group.any fun (d, q) => d < c || q.status == .halting then none
    else some ⟨group.map Prod.fst, r, group.foldl (fun m (_, q) => max m (q.highItem n)) 0, p.index⟩

/-- The places of the lowest core number. -/
def lowestPlace (cs : List (List Nat)) : Option (List Nat) :=
  cs.foldl (fun best x => if best.any fun b => b.headD 0 ≤ x.headD 0 then best else some x) none

/-- R412: where a suspended unit resumes: its own cores, else the lowest that are free in its shape. -/
def placeAmong (free : Nat → Bool) (cores : List Nat) (u : MoveUnit) : Option (List Nat) :=
  let shift (c : Nat) : List Nat :=
    u.cores.map fun k => if u.rope = 0 then c else if u.rope = 3 then c / 4 * 4 + k % 4 else c / 2 * 2 + k % 2
  if u.rope = 0 && u.cores.all free then some u.cores
  else lowestPlace ((cores.map shift).filter fun cs => cs.all free)
def State.placeFor (s : State) (g : Grid) (u : MoveUnit) : Option (List Nat) := placeAmong (s.freeFor g) g.compute u

/-- R396, R408, R411: a dispenser notice, at CYC. -/
def Party.dispenserNotice (p : Party) (cyc : Nat) (c : Cause) : Party :=
  p.notice (BitVec.ofNat 64 (5 * 2 ^ 56 + cyc % 2 ^ 56)) (causeCode c).toNat

/-- R149: a slot as it resumes. -/
def Slot.restored (l : Slot) : Slot :=
  let l1 := match l.wait with
    | .sleep _ _ => { l with wait := .none }
    | _ => l
  { l1 with
    laneAt := none
    uniAt := none
    accAt := none
    lastAt := none }

/-- R144, R149: what waits for a page is tried again when the party resumes, but not while its page fault awaits an answer. -/
def Access.restored (asked : Nat → Bool) (a : Access) : Access :=
  if a.step = .logged ∧ asked a.id = false then { a with fault := none } else a

/-- A descriptor's page is looked for again when the party resumes. -/
def Hold.restored : Hold → Hold
  | .descriptor va _ => .descriptor va true
  | h => h

/-- R149, R260, R411, R478: the party as it resumes on a core; `asked` names the accesses whose page fault awaits an answer. -/
def Party.restored (p : Party) (cyc core : Nat) (asked : Nat → Bool) : Party :=
  let strands := p.strands.map fun st => { st with slots := st.slots.map Slot.restored }
  { p with
    strands := strands
    accesses := p.accesses.map (Access.restored asked)
    seq := { p.seq with hold := p.seq.hold.restored }
    scopes := p.scopes.map fun (e : ScopeEntry) => if e.map = 0 then e else { e with cover := coverOf core e.exact }
    status := if p.dbg then .debugHalt else .running }.dispenserNotice cyc .preempted

/-- The events that a resumed party's waiting work goes on by: its fix-up entries in list order (R327), the operations of its
stream (R355), batches asked for (R407), held watch hits (R264), its end. -/
def State.resumeWork (s : State) (core : Nat) (p : Party) : State :=
  let s1 := p.fixups.foldl (fun s f => s.post (.segmentLand ⟨core, f.1, f.2⟩)) s
  let s2 := p.seq.ops.foldl (fun s o => s.post (.matrixOpComplete ⟨core, o.id⟩)) s1
  let s3 := p.producers.foldl (fun s (id, q) => match q.res with
    | .batch _ _ _ => s.post (.producerWriteback ⟨core, id⟩)
    | _ => s) s2
  let s4 := (List.range 16).foldl (fun s i => if (p.strand i).held.isSome then s.post (.trapDelivery ⟨core, i⟩) else s) s3
  if (List.range 16).any fun i => (p.strand i).live then s4 else s4.post (.partyEnd ⟨core⟩)

/-- PARTY_RESTORE (R149, R410): a suspended party resumes on a core; its fix-up entries are replayed in list order. -/
def State.restore (s : State) (last core : Nat) (tag : BitVec 32) : State :=
  match s.saved.find? fun k => k.core == last && k.party.grid == tag with
  | none => s
  | some k =>
    let asked (id : Nat) : Bool := s.bc.faults.any fun f =>
      f.grid == tag && f.index == k.party.index && f.who == .access id
    let p := k.party.restored (s.cyc core) core asked
    let s1 := { s with saved := s.saved.filter fun j => !(j.core == last && j.party.grid == tag) }
    let s2 := s1.setParty core p
    let s3 := s2.resumeWork core p
    match p.dbgWant with
    | none => s3
    | some all =>
      (s3.modParty core fun p => { p with status := .debugHalt, dbgWant := none }).post
        (.debugHalt ⟨core, all, .none⟩)

/-- R148: the party on a core begins to be saved. -/
def State.beginSave (s : State) (core : Nat) : State :=
  match s.party? core with
  | none => s
  | some p =>
    let want := if p.status = .debugHalt && !p.dbg then some (p.halt.any fun h => h.all) else p.dbgWant
    (s.setParty core { p with status := .saving, dbgWant := want }).post (.partySave ⟨core⟩)

/-- The unit with the least key, the lower party number first among equals. -/
def lowestUnit (us : List MoveUnit) : Option MoveUnit :=
  us.foldl (fun acc u => match acc with
    | none => some u
    | some b => if u.key < b.key || (u.key == b.key && u.index < b.index) then some u else acc) none
/-- The unit with the greatest key, the higher party number first among equals. -/
def highestUnit (us : List MoveUnit) : Option MoveUnit :=
  us.foldl (fun acc u => match acc with
    | none => some u
    | some b => if b.key < u.key || (u.key == b.key && b.index < u.index) then some u else acc) none

/-- One move of R412. While a party of the grid is being saved nothing moves. -/
def State.moveUnit (s : State) (tag : BitVec 32) : Option State :=
  match s.grid? tag with
  | none => none
  | some g =>
    if !g.hdr.movable || g.hdr.hashed || g.whole || s.parties.any (fun (_, p) => p.grid == tag && p.status == .saving) then none
    else
      match lowestUnit (s.parkedUnits g) with
      | none => none
      | some u =>
        match s.placeFor g u with
        | some cs => some ((u.cores.zip cs).foldl (fun s (k, c) => s.restore k c tag) s)
        | none =>
          match highestUnit (s.runningUnits g) with
          | none => none
          | some v => if u.key < v.key then some (v.cores.foldl State.beginSave s) else none

/-- Moves of R412 until none applies, at most `n`. -/
def moveUnits (tag : BitVec 32) : Nat → State → State
  | 0, s => s
  | n + 1, s =>
    match s.moveUnit tag with
    | none => s
    | some t => moveUnits tag n t

/-- MOVABLE_REBALANCE (R412). -/
def State.rebalance (s : State) (tag : BitVec 32) : State := moveUnits tag (s.saved.length + 1) s

/-- R412: a core has become free: it may be one of any MOVABLE grid's. -/
def State.rebalanceAll (s : State) : State := s.grids.foldl (fun s (_, g) => s.rebalance g.tag) s

/-- R391, R393: the range and the edge list of a die that has no running compute party go to the return list, and the
edge list of a die without a running party on an edge core. -/
def State.returnRange (s : State) (tag : BitVec 32) (die : Nat) : State :=
  match s.grid? tag with
  | none => s
  | some g =>
    if g.whole || g.hdr.hashed then s
    else
      let mine := s.parties.filter fun (c, p) => p.grid == tag && !p.collective && dieOfCore c == die
      let (lo, hi) := g.range die
      let g1 := if mine.isEmpty then { g with back := addRange lo hi g.back }.setRange die 0 0 else g
      let g2 := if s.edgeKept g die then g1
        else { g1 with back := (g1.edgeList die).foldl (fun b x => addRange x (x + 1) b) g1.back }.setEdges die []
      s.setGrid g2

-- obtaining an item (R389, R395, R398, R399)

/-- R395: the core is on thermal hold. -/
def State.onHold (s : State) (core : Nat) : Bool := s.holds.any fun h => h.core == core

/-- R393, R395: `n` FETCHes of a core would not wait. -/
def State.fetchFree (s : State) (core : Nat) (tag : BitVec 32) (n : Nat) : Bool :=
  n == 0 || (!s.onHold core && (s.grid? tag).all fun g => go (s.edgeKept g (dieOfCore core)) g core n)
where
  go (keeps : Bool) (g : Grid) (core : Nat) : Nat → Bool
    | 0 => true
    | k + 1 =>
      match g.take core keeps with
      | .wait _ => false
      | .nothing _ => true
      | .got _ g1 => go keeps g1 core k

/-- R394: a package whose queue has become empty; the steal comes after the threshold. -/
def State.noteIdle (s : State) (tag : BitVec 32) (pkg : Nat) : State :=
  match s.grid? tag with
  | none => s
  | some g =>
    if g.hdr.hashed && (kget g.queues pkg).getD [] == [] && (kget g.idle pkg).isNone then
      (s.setGrid { g with idle := kput g.idle pkg s.now }).post (.hashedSteal ⟨tag, pkg⟩)
    else s

/-- THE ITEM that a FETCH of a slot obtains (R398); none when there is none. -/
def State.obtain (s : State) (w : SlotRef) : Option Dword × State :=
  match s.party? w.core with
  | none => (none, s)
  | some p =>
    match s.grid? p.grid with
    | none => (none, s)
    | some g =>
      match s.takeFor g w.core with
      | .wait g1 => (none, s.setGrid g1)
      | .nothing g1 => (none, s.setGrid g1)
      | .got x g1 =>
        let wid := g.hdr.workId x
        let s1 := (s.setGrid g1).setParty w.core { p with items := p.items ++ [⟨x, wid⟩] }
        (some wid, (s1.noteIdle p.grid (pkgOfCore w.core)).rebalance p.grid)

/-- R393: a FETCH that waits has moved the edge indices for which there was room. -/
def State.fillEdges (s : State) (core : Nat) (tag : BitVec 32) : State :=
  match s.grid? tag with
  | none => s
  | some g =>
    match s.takeFor g core with
    | .wait g1 => s.setGrid g1
    | _ => s

/-- R387: a strand that the dispenser serves. -/
def Party.bound (p : Party) (w : SlotRef) : Bool := !p.collective && !(p.shadows && 8 ≤ w.strand)

end Sys2Proof.Machine
end

