-- ==== Sys2Proof/Machine/Stream.lean ====
section
/-!
DEFINITION. Machine/Stream.lean: the sequencer's registers and its faults (R330, R331, R359, R360, R506), and the slot
of a strand that receives what is not its own (R264, R359).
-/

namespace Sys2Proof.Machine

/-- R330: the sequencer at party start. -/
def Sequencer.start : Sequencer where
  state := .idle
  pc := 0
  k := Vector.replicate 16 0
  limit := 0
  cfg := 0
  valid := 0
  owner := 0
  wbuf := []
  acc := []
  ops := []
  hold := .none
  offer := none
  casts := []
  broken := false
  was := none

def Party.modSeq (p : Party) (f : Sequencer → Sequencer) : Party := { p with seq := f p.seq }
/-- A k register or zr (R79). -/
def Sequencer.kreg (q : Sequencer) (r : BitVec 7) : Dword := if r.toNat < 16 then q.k[r.toNat]?.getD 0 else 0
def Sequencer.setK (q : Sequencer) (r : BitVec 7) (v : Dword) : Sequencer := { q with k := q.k.setIfInBounds r.toNat v }

/-- R506: the handler of a stream fault has returned. -/
def Party.sequencerIdle (p : Party) : Party :=
  p.modSeq fun q => if q.state = .halted then { q with state := .idle, hold := .none } else q

/-- R95: the opcodes that the sequencer executes. -/
def streamOpcode (w0 : Word) : Bool :=
  let op := (w0.extractLsb' 24 7).toNat
  w0.getLsbD 31 && (op == 0x2A || op == 0x2B || (0x68 ≤ op && op ≤ 0x70) || (0x78 ≤ op && op ≤ 0x7D))

/-- R360: a matrix notice. -/
def Party.matrixNotice (p : Party) (pc : Pc) (addr : Nat) (halted : Bool) (c : Cause) : Party :=
  p.notice (4#8 ++ pc) (BitVec.ofNat 56 addr ++ bit1 halted ++ causeCode c)

/-- R359, R264: the slot of a strand that receives a stream fault or a held hit. -/
def Strand.receiver (st : Strand) : SlotId :=
  let a := st.slot .a
  if a.st = .notLive ∨ a.em = 0 then .b else .a

/-- R359: where a slot that is taken out of its wait resumes. -/
def Party.resumePc (p : Party) (l : Slot) : Pc :=
  match l.wait with
  | .sleep _ pc => pc
  | .engine pc => pc
  | .log id => ((p.accesses.find? (·.id == id)).map Access.pc).getD l.pc
  | _ => l.pc

/-- R457, R458: an instruction at which its slot waits once it has issued. -/
def holdsSlot : Option Instr → Bool
  | some (.xflow _) => true
  | some (.xabort _) => true
  | _ => false

/-- R359, R264: a slot leaves its wait; a close that waits is undone; an instruction that waits for a log entry goes back to its issue. -/
def Party.leaveWait (p : Party) (i : Nat) (x : SlotId) : Party :=
  let l := (p.strand i).slot x
  let p1 := match l.wait with
    | .log id =>
      let marks := (p.accesses.filter fun (a : Access) => a.id == id).flatMap fun (a : Access) => marksOf a.dst
      { p.modStrand i (·.setFulls true marks) with accesses := p.accesses.filter fun (a : Access) => a.id != id }
    | .engine _ => { p with
        accesses := p.accesses.filter fun (a : Access) => !(a.strand == i && a.slot == x && holdsSlot a.op)
        flows := p.flows.map fun (f : Flow) =>
          if f.closing.any (fun (c : SlotRef × BitVec 7) => c.1.strand == i && c.1.slot == x) then { f with closing := none } else f }
    | _ => p
  p1.modStrand i (·.modSlot x fun l =>
    { l with
      pc := p.resumePc l
      wait := .none
      stepped := if p.resumePc l = l.pc then l.stepped else none })

/-- The record of a trap that a strand receives for what is not its own instruction. -/
def receivedInfo (c : Cause) (pc : Pc) (words : Words) (addr : Dword) (stream : Bool) : TrapInfo :=
  ⟨c, pc, words, none, 0, addr, ⟨0, 0⟩, pc, stream⟩

/-- R359: the strand that receives a stream fault. -/
def Party.streamStrand (p : Party) : Option Nat :=
  if (p.strand p.seq.owner).live then some p.seq.owner else (List.range 16).find? fun i => (p.strand i).live

/-- R359: a stream fault of the instruction at the stream PC: the sequencer halts, a notice, the trap. -/
def State.streamFault (s : State) (core : Nat) (c : Cause) (words : Words) (addr : Nat := 0) : State :=
  match s.party? core with
  | none => s
  | some p =>
    let pc := p.seq.pc
    let p1 := (p.matrixNotice pc addr true c).modSeq fun q => { q with state := .halted, hold := .none, offer := none, broken := false }
    let s0 := s.breakRope core
    match p1.streamStrand with
    | none =>
      (s0.setParty core p1).halt ⟨core, p.seq.owner, .a⟩ (receivedInfo c pc words (pc.setWidth 64) true) false
    | some i =>
      let x := (p1.strand i).receiver
      let p2 := p1.leaveWait i x
      (s0.setParty core p2).takeTrap ⟨core, i, x⟩
        (receivedInfo c ((p2.strand i).slot x).pc words (pc.setWidth 64) true)

/-- The words of the instruction at which a member waits for its rope (R359). -/
def Hold.words : Hold → Words
  | .rendezvous _ w => w
  | .tcfg w => w
  | .pair _ _ _ w => w
  | _ => ⟨0, 0⟩

/-- R339, R340, R362: ROPE_MISMATCH at members that wait for their rope, each for its own instruction. -/
def State.ropeFaults (s : State) (members : List Nat) : State :=
  members.foldl (fun s m => s.streamFault m .ropeMismatch (((s.party? m).map fun t => t.seq.hold.words).getD ⟨0, 0⟩)) s

/-- R339: a party leaves its core: members of its rope that wait in the rendezvous of a TCFG raise ROPE_MISMATCH. -/
def State.leaveRope (s : State) (core : Nat) (grid : BitVec 32) : State :=
  let waits (m : Nat) : Bool := (s.party? m).any fun t => t.grid == grid && (match t.seq.hold with
    | .tcfg _ => t.seq.offer.any fun v => (ropeCores (v.extractLsb' 41 2).toNat m).contains core
    | _ => false)
  s.ropeFaults ((ropeCores 3 core).filter fun m => m != core && waits m)

end Sys2Proof.Machine
end

