-- ==== Sys2Proof/Machine/Issue.lean ====
section
/-!
DEFINITION. Machine/Issue.lean: the issue of one instruction by a PC slot: when it is ready (R126, R145, R237), the
checks in the order of R96, what every issue records (R128, R144), single step (R505), pops of q3 (R24, R131).
-/

namespace Sys2Proof.Machine

/-- What an instruction knows of its issue: the slot, its PC, the next PC, its words. -/
structure Ctx where
  w : SlotRef
  pc : Pc
  next : Pc
  words : Words
  deriving DecidableEq, Repr

/-- What the body of an instruction answers: it issued (and SINGLE_STEP, if on, falls on the slot named); it is not
ready after all; it faults with an address and performs nothing; its effect is a trap. -/
inductive Done where
  | ok (s : State) (stepAt : Option SlotRef)
  | stall
  | fault (c : Cause) (addr : Dword)
  | trap (t : TrapInfo) (s : State)

/-- The words of an instruction. -/
def instrWords (i : Instr) : Words :=
  match encode i with
  | [a] => ⟨a, 0⟩
  | a :: b :: _ => ⟨a, b⟩
  | [] => ⟨0, 0⟩

/-- Bytes of an instruction (R70). -/
def instrLen (i : Instr) : Nat := 4 * (encode i).length

/-- R504: the lanes that an issue or decode fault of `words` names. -/
def issueLanes (words : Words) (l : Slot) : Option (BitVec 5) × Word :=
  if halfBit words.w0 then (none, 0) else (lowLane l.m0, if l.m0 = 0 then 0 else l.m0)

/-- The record of a fault at issue (R504). -/
def Ctx.info (x : Ctx) (l : Slot) (c : Cause) (addr : Dword) : TrapInfo :=
  let ln := issueLanes x.words l
  ⟨c, x.pc, x.words, ln.1, ln.2, addr, ⟨0, 0⟩, x.pc, false⟩

/-- R144: the access holds a place of its strand's log, also while it is replayed. -/
def Access.inPlace (a : Access) : Bool := a.step == .logged || (a.placed && a.step == .attempt)

/-- R145: the log of a strand holds an entry. -/
def Party.logBusy (p : Party) (i : Nat) : Bool := p.accesses.any fun a => a.strand == i && a.inPlace

/-- R145: instructions that are not ready until the log is empty. -/
def needsEmptyLog : Instr → Bool
  | .fence _ | .bar _ | .tcommit _ | .wdone _ | .endStrand _ | .trap _ | .brk _ | .eret _ | .syswr _ | .mstart _ => true
  | .atom o => o.ord != 0
  | .ldo o => o.ord != 0
  | .sto o => o.ord != 0
  | .cprow o => o.ord != 0
  | .xput o => o.ord != 0
  | .xget o => o.ord != 0
  | .xred o => o.ord != 0
  | .xamo o => o.ord != 0
  | .xsig o => o.ord != 0
  | _ => false

/-- R237, R145: sixteen overtakers have issued after an access that has not settled, or while the log was never empty. -/
def Party.overLimit (p : Party) (i : Nat) : Bool :=
  (p.accesses.any fun a => a.strand == i && 16 ≤ a.ovr.count) || (p.logBusy i && 16 ≤ (p.strand i).logOver)

/-- R264: a held hit is to be delivered before the slot issues again. -/
def Strand.owesHit (st : Strand) (x : SlotId) : Bool := st.held.isSome && !st.inh && st.hitSlot == x

/-- R126: the slot and strand conditions of readiness. -/
def Party.slotReady (p : Party) (w : SlotRef) : Bool :=
  let st := p.strand w.strand
  let l := st.slot w.slot
  p.status == .running && st.live && l.st == .running && l.em != 0 && l.wait == .none && !p.overLimit w.strand
    && (l.stepped.isNone || st.inh) && !st.owesHit w.slot

/-- R77, R126: the sources that can hold an instruction back: a queue named as a uniform destination that is read too is
illegal there and holds nothing. -/
def holdingSrcs (ro : Roles) : List Src :=
  ro.srcs.filter fun x => !(isQ x.spec && x.kind == .uni && ro.dst.any fun d => d.spec == x.spec)

/-- R126: every condition that the instruction's words and operands set. -/
def Party.operandsReady (p : Party) (w : SlotRef) (i : Instr) : Bool :=
  let ro := roles i
  p.srcsReady w (holdingSrcs ro) [] && p.dstReady w ro.dst
    && !(ro.pipe == .access && (p.strand w.strand).fence.isSome)
    && !(needsEmptyLog i && p.logBusy w.strand)

/-- R96, classes 4 to 7, for a decoded instruction: `pre` gives the instruction's own PRIVILEGED or ILLEGAL_OPERAND. -/
def Party.issueFault (p : Party) (w : SlotRef) (i : Instr) (pre : Option Cause) : Option Cause :=
  if pre = some .privileged then some .privileged
  else if !reservedOk i then some .reservedField
  else if !operandOk i || !p.rolesOk w (roles i) then some .illegalOperand
  else if pre.isSome then pre
  else p.srcsFault w (roles i).srcs []

/-- R96: the sources at some specifiers hold a value before execution; an empty register or queue has none, and q3's is made by its
pop. -/
def Party.holdsAt (p : Party) (w : SlotRef) (i : Instr) (rs : List (BitVec 7)) : Bool :=
  !rs.contains 123
    && (p.srcsFault w (((roles i).srcs.filter fun x => rs.contains x.spec).map fun x => { x with e := true }) []).isNone

/-- R128: the class history of an issue. -/
def Slot.issued (l : Slot) (pipe : Pipe) (now : Nat) : Slot :=
  { l with
    lastAt := some now
    laneAt := if pipe = .lane then some now else l.laneAt
    uniAt := if pipe = .uniform then some now else l.uniAt
    accAt := if pipe = .access then some now else l.accAt }

/-- R144, R237: an instruction that issues overtakes every unsettled access of its strand. -/
def Access.overtaken (a : Access) (i : Nat) (pc : Pc) : Access :=
  if a.strand = i then { a with ovr := ⟨a.ovr.count + 1, if a.ovr.count = 0 then pc else a.ovr.pc⟩ } else a

/-- What every issue does before the instruction's own effect: history, overtakers, and the next PC. -/
def Party.beginIssue (p : Party) (x : Ctx) (pipe : Pipe) (now : Nat) : Party :=
  let passed := if p.logBusy x.w.strand then (p.strand x.w.strand).logOver + 1 else 0
  ({ p with accesses := p.accesses.map fun a => Access.overtaken a x.w.strand x.pc }.modStrand x.w.strand
    fun st => { st with logOver := passed }).modSlot x.w fun l => { l.issued pipe now with pc := x.next }

/-- R24, R398: the FETCHes that the q3 sources of an instruction make. -/
def fetchCount (i : Instr) : Nat := ((roles i).srcs.filter fun r => r.spec == 123 && r.kind == .uni).length

/-- R399: a FETCH that would open a 17th item; it comes after the other reasons of class 6. -/
def Party.itemLimit (p : Party) (n : Nat) (pre : Option Cause) : Option Cause :=
  if pre.isNone && n != 0 && decide (16 < p.items.length + n) then some .illegalOperand else pre

/-- R516: the queue pops of an instruction whose fault comes after its issue. -/
def Party.popSources (p : Party) (w : SlotRef) : List Src → Party
  | [] => p
  | x :: t =>
    if x.kind == .wait || x.spec == 123 then p.popSources w t
    else if x.kind == .uni then (p.srcU w x.spec).2.popSources w t
    else if isQ x.spec then (p.popLane w x.spec.toNat).2.popSources w t
    else p.popSources w t

/-- R24, R131: the items that the q3 sources of an instruction pop; each pop is a FETCH. -/
def State.popsOfQ3 (s : State) (w : SlotRef) : Nat → Option (Option Dword) → Option (Option Dword) × State
  | 0, last => (last, s)
  | k + 1, _ =>
    let (it, s1) := s.obtain w
    (s1.modParty w.core fun p => { p with dsq := p.dsq ++ [it.getD 0] }).popsOfQ3 w k (some it)

/-- R131: the destination that a pop of q3 makes a producer's: field d; a producer's own comes with its result, and CALLR leaves s23
full (R163). -/
def deferDst (i : Instr) : Option Dst :=
  match i with
  | .callr _ => none
  | i => if (roles i).dst.any Dst.producer then none else (roles i).dst

/-- R131, R134: an instruction that popped q3 is a producer: its destination and EX are written at write-back. -/
def State.deferQ3 (s : State) (w : SlotRef) (old : Strand) (d : Option Dst) (it : Option Dword) : State :=
  match s.party? w.core with
  | none => s
  | some p =>
    let st := p.strand w.strand
    let spec := (d.map Dst.spec).getD zr
    let v := (p.srcU w spec).1
    let st1 :=
      if isS spec then (st.setS (spec.toNat - 88) (old.sreg (spec.toNat - 88))).setFull false spec.toNat
      else if isM spec ∧ spec.toNat ≠ 112 then
        (st.setM (spec.toNat - 112) (old.mreg (spec.toNat - 112))).setFull false spec.toNat
      else if isM spec then
        (st.modSlot w.slot fun l => { l with m0 := (old.slot w.slot).m0 }).setFull false spec.toNat
      else st
    let p1 := (p.setStrand w.strand st1).modSlot w fun l => { l with exPending := true }
    let pr : Producer := ⟨w.strand, if isS spec || isM spec then [spec.toNat] else [],
      .fetched spec (.live w.slot) v it.isNone, none, s.now, none⟩
    ((s.setParty w.core { p1 with producers := kput p1.producers s.nextId pr }).post
      (.producerWriteback ⟨w.core, s.nextId⟩)).bump

/-- SINGLE_STEP after an issue (R505): the slot owes the trap, which is taken before it issues again. `lo` is the first number that an
access of the instruction can have. -/
def State.stepTrap (s : State) (x : Ctx) (before : Strand) (at_ : Option SlotRef) (lo : Nat) : State :=
  match at_ with
  | none => s
  | some w =>
    let st := s.strandOf w
    if before.step && !before.inh && st.live && !st.inh then
      s.modSlot w fun l => { l with stepped := some ⟨x.pc, x.words, lo, s.nextId⟩ }
    else s

/-- An access of the instruction of a step trap. -/
def StepOwed.made (o : StepOwed) (id : Nat) : Bool := decide (o.lo ≤ id ∧ id < o.hi)

/-- The step trap that a slot owes, taken at the end of a cycle once the instruction's wait has ended and its accesses have settled: if
one of them faults, that fault is delivered and no step trap (R505). -/
def State.tendStep (s : State) (w : SlotRef) : State :=
  let st := s.strandOf w
  let l := st.slot w.slot
  match l.stepped with
  | none => s
  | some o =>
    let may := (s.party? w.core).any fun p => p.status == .running && !p.accesses.any fun a => a.strand == w.strand && o.made a.id
    if st.live && !st.inh && may && l.st == .running && l.wait == .none then
      (s.modSlot w fun l => { l with stepped := none }).takeTrap w { Ctx.info ⟨w, o.pc, l.pc, o.words⟩ l .singleStep 0 with tepc := l.pc }
    else s

/-- What an instruction knows of its issue by a slot. -/
def Party.ctx (p : Party) (w : SlotRef) (i : Instr) : Ctx :=
  ⟨w, (p.slot w).pc, (p.slot w).pc + BitVec.ofNat 56 (instrLen i), instrWords i⟩

/-- THE ISSUE of instruction `i` by the slot in focus. A slot that is not ready leaves the state as it is. -/
def issue (i : Instr) (pre : Ctx → Party → Option Cause) (ready : Ctx → State → Bool)
    (body : Ctx → State → Done) (s : State) : Out :=
  match s.focus with
  | .none => .fault .noIssuer
  | .sequencer c => .next (s.markIssued.streamFault c .mstreamIllegal (instrWords i))
  | .slot w =>
    match s.party? w.core with
    | none => .fault .noIssuer
    | some p =>
      let l := p.slot w
      let x := p.ctx w i
      let ro := roles i
      let nq := fetchCount i
      if !(p.slotReady w && p.operandsReady w i && ready x s && (!p.bound w || s.fetchFree w.core p.grid nq)) then .next s
      else
        match p.issueFault w i (p.itemLimit (if p.bound w then nq else 0) (pre x p)) with
        | some c => .next (s.markIssued.takeTrap w (x.info l c 0))
        | none =>
          if nq != 0 && !p.bound w then
            .next ((s.markIssued.setParty w.core (p.popSources w ro.srcs)).takeTrap w (x.info l .fetchNotBound 0))
          else
          let (it, s0) := s.markIssued.popsOfQ3 w nq none
          let s1 := s0.modParty w.core fun p => p.beginIssue x ro.pipe s.now
          match body x s1 with
          | .stall => .next s
          | .fault c a => .next (s.markIssued.takeTrap w (x.info l c a))
          | .trap t s2 => .next (s2.takeTrap w t)
          | .ok s2 at_ =>
            let s3 := match it with
              | none => s2
              | some r => s2.deferQ3 w (p.strand w.strand) (deferDst i) r
            .next (s3.stepTrap x (p.strand w.strand) at_ s.nextId)

/-- No check of its own; ready as every instruction is. -/
def noPre (_ : Ctx) (_ : Party) : Option Cause := none
def always (_ : Ctx) (_ : State) : Bool := true

/-- An instruction whose whole effect lies in the party: `f` gives the party after it. -/
def issueParty (i : Instr) (f : Ctx → Party → Party) (s : State) : Out :=
  issue i noPre always (fun x s => .ok (s.modParty x.w.core (f x)) (some x.w)) s

/-- The same, with a check on values that faults and performs nothing. -/
def issueParty? (i : Instr) (pre : Ctx → Party → Option Cause) (f : Ctx → Party → Party) (s : State) : Out :=
  issue i pre always (fun x s => .ok (s.modParty x.w.core (f x)) (some x.w)) s

end Sys2Proof.Machine
end

