-- ==== Sys2Proof/Machine/LaneOps.lean ====
section
/-!
DEFINITION. Machine/LaneOps.lean: the shapes that lane instructions share (R185-R188, R195-R201) and the values they
compute lane by lane.
-/

namespace Sys2Proof.Machine

/-- d ← f a in every active lane. -/
def lane1 (i : Instr) (o : LR) (f : Word → Word) (s : State) : Out :=
  issueParty i (fun x p =>
    let (a, p1) := p.src32 x.w o.a
    p1.dst32 x.w o.d (tab fun k => f a[k])) s

/-- d ← f a b in every active lane. -/
def lane2 (i : Instr) (o : LR) (f : Word → Word → Word) (s : State) : Out :=
  issueParty i (fun x p =>
    let (a, p1) := p.src32 x.w o.a
    let (b, p2) := p1.src32 x.w o.b
    p2.dst32 x.w o.d (tab fun k => f a[k] b[k])) s

/-- d ← f a b d in every active lane. -/
def lane3 (i : Instr) (o : LR) (f : Word → Word → Word → Word) (s : State) : Out :=
  issueParty i (fun x p =>
    let (a, p1) := p.src32 x.w o.a
    let (b, p2) := p1.src32 x.w o.b
    let (d, p3) := p2.src32 x.w o.d
    p3.dst32 x.w o.d (tab fun k => f a[k] b[k] d[k])) s

/-- d ← f a imm in every active lane. -/
def laneI (i : Instr) (o : LI) (f : Word → Word → Word) (imm : Word) (s : State) : Out :=
  issueParty i (fun x p =>
    let (a, p1) := p.src32 x.w o.a
    p1.dst32 x.w o.d (tab fun k => f a[k] imm)) s

/-- Pairs: d ← f a b. -/
def pair2 (i : Instr) (o : LR) (f : Dword → Dword → Dword) (s : State) : Out :=
  issueParty i (fun x p =>
    let a := p.src64 x.w o.a
    let b := p.src64 x.w o.b
    p.dst64 x.w o.d (tab fun k => f a[k] b[k])) s

/-- Pairs: d ← f a b d. -/
def pair3 (i : Instr) (o : LR) (f : Dword → Dword → Dword → Dword) (s : State) : Out :=
  issueParty i (fun x p =>
    let a := p.src64 x.w o.a
    let b := p.src64 x.w o.b
    let d := p.src64 x.w o.d
    p.dst64 x.w o.d (tab fun k => f a[k] b[k] d[k])) s

/-- A pair from two 32-bit operands (R194). -/
def widen2 (i : Instr) (o : LR) (f : Word → Word → Dword) (s : State) : Out :=
  issueParty i (fun x p =>
    let (a, p1) := p.src32 x.w o.a
    let (b, p2) := p1.src32 x.w o.b
    p2.dst64 x.w o.d (tab fun k => f a[k] b[k])) s

/-- A pair shifted by a 32-bit operand (R194). -/
def pairShift (i : Instr) (o : LR) (f : Dword → Nat → Dword) (s : State) : Out :=
  issueParty i (fun x p =>
    let a := p.src64 x.w o.a
    let (b, p1) := p.src32 x.w o.b
    p1.dst64 x.w o.d (tab fun k => f a[k] (b[k].toNat % 64))) s

/-- A cross-lane d ← g of the whole source (R187): `g` maps the active mask and the source lanes to the results. -/
def cross1 (i : Instr) (d a : BitVec 7) (g : Word → Lanes Word → Lanes Word) (s : State) : Out :=
  issueParty i (fun x p =>
    let (v, p1) := p.src32 x.w a
    p1.dst32 x.w d (g (p.active x.w) v)) s

/-- A cross-lane instruction of two sources. -/
def cross2 (i : Instr) (o : LR) (g : Word → Lanes Word → Lanes Word → Lanes Word) (s : State) : Out :=
  issueParty i (fun x p =>
    let (a, p1) := p.src32 x.w o.a
    let (b, p2) := p1.src32 x.w o.b
    p2.dst32 x.w o.d (g (p.active x.w) a b)) s

/-- R205: the cycles from its issue before which a producer of the lane pipes does not write back. -/
def writeBackAfter (i : Instr) : Nat :=
  match i with
  | .fdivF64 _ | .fsqrtF64 _ => 16
  | .fdivF32 _ | .fdivF16 _ | .fdivB16 _ | .fsqrtF32 _ | .fsqrtF16 _ | .fsqrtB16 _ => 8
  | .frcp _ | .frsq _ | .fexp2 _ | .flog2 _ | .fsin _ | .fcos _ | .ftanh _ | .fsincos _ => 8
  | _ => 0

/-- R188, R205: the cycles from its issue after which a producer has written back. -/
def writeBackBy (i : Instr) : Option Nat :=
  match i with
  | .vdiv _ | .vdivn _ | .vrem _ | .vremn _ | .sdiv _ | .sdivn _ | .srem _ | .sremn _ => some 40
  | .fdivF64 _ | .fsqrtF64 _ => some 64
  | .fdivF32 _ | .fdivF16 _ | .fdivB16 _ | .fsqrtF32 _ | .fsqrtF16 _ | .fsqrtB16 _ => some 32
  | .frcp _ | .frsq _ | .fexp2 _ | .flog2 _ | .fsin _ | .fcos _ | .ftanh _ | .fsincos _ => some 32
  | _ => none

/-- R131: a producer's result put in flight, to write back after `n` cycles and within `late`: its destination is marked empty,
and its write-back event is posted. -/
def State.produceWithin (s : State) (n : Nat) (late : Option Nat) (w : SlotRef) (marks : List Nat) (r : Result) (acc : Option Nat) : State :=
  ((s.modParty w.core fun p =>
      { p.modStrand w.strand (·.setFulls false marks) with
        producers := kput p.producers s.nextId ⟨w.strand, marks, r, acc, s.now + n, late.map (s.now + ·)⟩ }).post
    (.producerWriteback ⟨w.core, s.nextId⟩)).bump
def State.produce (s : State) (w : SlotRef) (marks : List Nat) (r : Result) (acc : Option Nat) : State :=
  s.produceWithin 0 none w marks r acc
/-- The same for an instruction whose times R188 or R205 gives. -/
def State.produceTimed (s : State) (i : Instr) (w : SlotRef) (marks : List Nat) (r : Result) : State :=
  s.produceWithin (writeBackAfter i) (writeBackBy i) w marks r none

/-- A producer of 32-bit lane results. -/
def laneProducer (i : Instr) (d : BitVec 7) (read : SlotRef → Party → Lanes Word × Party) (s : State) : Out :=
  issue i noPre always (fun x s =>
    match s.party? x.w.core with
    | none => .stall
    | some p =>
      let (v, p1) := read x.w p
      .ok ((s.setParty x.w.core p1).produceTimed i x.w (marksOf (roles i).dst)
        (if d = zr then .nothing else .lanes d.toNat (p.active x.w) v)) (some x.w)) s

/-- A producer d ← f a b. -/
def laneProd2 (i : Instr) (o : LR) (f : Word → Word → Word) (s : State) : Out :=
  laneProducer i o.d (fun w p =>
    let (a, p1) := p.src32 w o.a
    let (b, p2) := p1.src32 w o.b
    (tab fun k => f a[k] b[k], p2)) s

/-- A producer d ← f a. -/
def laneProd1 (i : Instr) (o : LR) (f : Word → Word) (s : State) : Out :=
  laneProducer i o.d (fun w p =>
    let (a, p1) := p.src32 w o.a
    (tab fun k => f a[k], p1)) s

/-- A producer of pairs. -/
def pairProducer (i : Instr) (d : BitVec 7) (read : SlotRef → Party → Lanes Dword) (s : State) : Out :=
  issue i noPre always (fun x s =>
    match s.party? x.w.core with
    | none => .stall
    | some p =>
      .ok (s.produceTimed i x.w (marksOf (roles i).dst)
        (if d = zr then .nothing else .pairs d.toNat (p.active x.w) (read x.w p))) (some x.w)) s

/-- A compare of two sources into md (R197, R210). -/
def compare2 (i : Instr) (o : LC) (f : Word → Word → Bool) (s : State) : Out :=
  issueParty i (fun x p =>
    let (a, p1) := p.src32 x.w o.a
    let (b, p2) := p1.src32 x.w o.b
    p2.dstMask x.w o.md.toNat fun k => f a[k] b[k]) s

/-- A compare of two pairs into md. -/
def comparePair (i : Instr) (o : LC) (f : Dword → Dword → Bool) (s : State) : Out :=
  issueParty i (fun x p =>
    let a := p.src64 x.w o.a
    let b := p.src64 x.w o.b
    p.dstMask x.w o.md.toNat fun k => f a[k] b[k]) s

-- values

/-- R63: an integer clamped to the signed range of 32 bits. -/
def satS32 (x : Int) : Word := BitVec.ofInt 32 (max (-2147483648) (min x 2147483647))
/-- R63: an integer clamped to the unsigned range of 32 bits. -/
def satN32 (x : Int) : Word := BitVec.ofInt 32 (max 0 (min x 4294967295))
/-- The high half of a product. -/
def mulHigh {w : Nat} (x y : Int) : BitVec w := BitVec.ofInt w ((x * y) / 2 ^ w)

/-- R190, R154: signed quotient toward zero; y = 0 gives all ones, and the overflowing quotient wraps. -/
def sdivide {w : Nat} (x y : BitVec w) : BitVec w :=
  if y = 0 then BitVec.allOnes w else BitVec.ofInt w (x.toInt.tdiv y.toInt)
/-- R190, R154: unsigned quotient. -/
def udivide {w : Nat} (x y : BitVec w) : BitVec w :=
  if y = 0 then BitVec.allOnes w else BitVec.ofNat w (x.toNat / y.toNat)
/-- R190, R154: signed remainder with the sign of x. -/
def sremain {w : Nat} (x y : BitVec w) : BitVec w :=
  if y = 0 then x else BitVec.ofInt w (x.toInt.tmod y.toInt)
/-- R190, R154: unsigned remainder. -/
def uremain {w : Nat} (x y : BitVec w) : BitVec w := if y = 0 then x else BitVec.ofNat w (x.toNat % y.toNat)

/-- The low `n` bits set. -/
def lowBits (w n : Nat) : BitVec w := BitVec.ofNat w (2 ^ n - 1)

/-- Bits [lo + u - 1:lo] of x (R192, R155). -/
def fieldOf {w : Nat} (x : BitVec w) (lo u : Nat) : BitVec w := (x >>> lo) &&& lowBits w u
/-- R192: position and used width of a 32-bit field descriptor. -/
def field32 (y : Word) : Nat × Nat :=
  let lo := y.toNat % 32
  (lo, min (y.toNat / 32 % 64) (32 - lo))
/-- R155: position and used width of a 64-bit field descriptor. -/
def field64 (y : Dword) : Nat × Nat :=
  let lo := y.toNat % 64
  (lo, min (y.toNat / 64 % 128) (64 - lo))
/-- A field sign-extended from its top bit (R192); an empty field gives 0. -/
def signField {w : Nat} (x : BitVec w) (u : Nat) : BitVec w :=
  if u = 0 then 0 else if x.getLsbD (u - 1) then x ||| ~~~lowBits w u else x
/-- A field replaced (R192, R155). -/
def insertField {w : Nat} (d x : BitVec w) (lo u : Nat) : BitVec w :=
  (d &&& ~~~(lowBits w u <<< lo)) ||| ((x &&& lowBits w u) <<< lo)

/-- Bit k to bit 31 - k (R189 VBREV). -/
def reverseBits (x : Word) : Word :=
  (List.range 32).foldl (fun r k => if x.getLsbD k then r ||| (1#32 <<< (31 - k)) else r) 0

/-- R193: for lane i, the active lanes below it whose flag is set. -/
def rankOf (m : Word) (a : Lanes Word) (i : Fin 32) : Word :=
  BitVec.ofNat 32 ((laneList.filter fun j => j < i && inMask m j && a[j] != 0).length)

/-- R200: the running sums; `excl` for VSCANX. -/
def scanSums (excl : Bool) (m : Word) (a b : Lanes Word) : Lanes Word :=
  let step (r : Word × Bool × List Word) (j : Fin 32) : Word × Bool × List Word :=
    let (acc, begun, out) := r
    if inMask m j then
      let acc := if !begun || b[j] != 0 then 0 else acc
      let sum := acc + a[j]
      (sum, true, out ++ [if excl then acc else sum])
    else (acc, begun, out ++ [0])
  let out := (laneList.foldl step (0, false, [])).2.2
  tab fun i => out.getD i.val 0

/-- R201: a reduction over the active lanes; `f` combines two values. No lane is written when there is none. -/
def reduceLanes (f : Word → Word → Word) (m : Word) (a : Lanes Word) : Lanes Word :=
  let vals := (laneList.filter fun j => inMask m j).map fun j => a[j]
  splat (match vals with | [] => 0 | v :: t => t.foldl f v)

/-- A choice by signed or unsigned order. -/
def minS {w : Nat} (x y : BitVec w) : BitVec w := if y.toInt < x.toInt then y else x
def maxS {w : Nat} (x y : BitVec w) : BitVec w := if x.toInt < y.toInt then y else x
def minU {w : Nat} (x y : BitVec w) : BitVec w := if y.toNat < x.toNat then y else x
def maxU {w : Nat} (x y : BitVec w) : BitVec w := if x.toNat < y.toNat then y else x

/-- imm8 sign-extended to a lane word (R90, R195). -/
def imm32 (o : LI) : Word := o.imm.signExtend 32
/-- An unsigned count of imm8[4:0] (R195, R199). -/
def immCount (o : LI) : Nat := o.imm.toNat % 32

end Sys2Proof.Machine
end

