-- ==== Sys2Proof/Machine/Mmio.lean ====
section
/-!
DEFINITION. Machine/Mmio.lean: the MMIO region of a package (R470): its register blocks (R471), sensors (R498), POOLMAP, host
windows; reads and writes of it by a core (R34, R268).
-/

namespace Sys2Proof.Machine

/-- Offset inside the MMIO region of a resolved address. -/
def mmioOff (r : Nat) : Nat := resOff r - 0xF0000000000

/-- R470: the register blocks, which take 8-byte aligned accesses of 8 bytes alone. -/
def inRegBlock (r : Nat) : Bool := isMmioOff (resOff r) && decide (mmioOff r < 0x2000)
/-- R470: an access of `n` bytes reads or writes what it names. -/
def regWidthOk (r n : Nat) : Bool := !inRegBlock r || (n == 8 && r % 8 == 0)

/-- A field of a doubleword, in place. -/
def maskField (v : Dword) (lo n : Nat) : Nat := v.toNat / 2 ^ lo % 2 ^ n * 2 ^ lo

/-- R471: the value of a queue or parameter register of a package. -/
def State.regRead (s : State) (pkg off : Nat) : Nat :=
  let b := s.bc
  let k := s.pkg pkg
  match off with
  | 0x000 => b.qbase
  | 0x008 => b.qsize
  | 0x010 => b.qtail
  | 0x018 => b.qhead
  | 0x020 => b.qroot
  | 0x028 => b.state.toNat * 4 + b.en.toNat
  | 0x030 => b.qerr.toNat
  | 0x038 => b.qerrSeq
  | 0x040 => b.qerrAddr
  | 0x048 => b.cqbase
  | 0x050 => b.cqsize
  | 0x058 => b.cqtail
  | 0x060 => b.cqhead
  | 0x068 => b.fqbase
  | 0x070 => b.fqsize
  | 0x078 => b.fqtail
  | 0x080 => b.fqhead
  | 0x088 => k.hwBase0.toNat
  | 0x090 => k.hwBase1.toNat
  | 0x100 => k.driftM1 * 2 ^ 32 + k.lease
  | 0x108 => k.droopMax * 2 ^ 16 + k.tLo * 2 ^ 8 + k.tHi
  | 0x110 => k.holdMax * 2 ^ 32 + k.droopWin
  | 0x118 => k.hbmEnd * 2 ^ 16
  | 0x120 => k.poolLim * 2 ^ 16
  | 0x128 => k.pwrCap
  | 0x130 => s.own.owner.isSome.toNat * 2 + k.ready.toNat
  | _ => 0

/-- R267, R471: a grid has a party in the package. -/
def State.partyIn (s : State) (pkg : Nat) : Bool :=
  s.parties.any (fun (c, _) => pkgOfCore c == pkg) || s.saved.any fun k => pkgOfCore k.core == pkg

def State.modBc (s : State) (f : BaseCamp → BaseCamp) : State := { s with bc := f s.bc }

/-- R267: COHPARAM. -/
def State.cohWrite (s : State) (pkg : Nat) (v : Dword) : State :=
  let d := v.toNat / 2 ^ 32 % 2 ^ 16
  let l := v.toNat % 256
  if d < 15 ∨ l = 0 ∨ s.partyIn pkg = true then s
  else s.modPkg pkg fun k => { k with driftM1 := d, lease := l }

/-- R395, R471: HOLD0 and HOLD1. -/
def State.hold0Write (s : State) (pkg : Nat) (v : Dword) : State :=
  let hi := v.toNat % 256
  let lo := v.toNat / 256 % 256
  let dm := v.toNat / 65536 % 256
  if hi < 60 ∨ 110 < hi ∨ lo < 50 ∨ hi < lo + 2 ∨ dm = 0 ∨ s.partyIn pkg = true then s
  else s.modPkg pkg fun k => { k with tHi := hi, tLo := lo, droopMax := dm }
def State.hold1Write (s : State) (pkg : Nat) (v : Dword) : State :=
  let m := v.toNat / 2 ^ 32
  let w := v.toNat % 2 ^ 21
  if m < 40000 ∨ 4000000 < m ∨ w < 4096 ∨ 1048576 < w ∨ s.partyIn pkg = true then s
  else s.modPkg pkg fun k => { k with holdMax := m, droopWin := w }

/-- R472: a QTAIL that would overfill the ring is dropped. -/
def BaseCamp.tailWrite (b : BaseCamp) (v : Dword) : BaseCamp :=
  let t := v.toNat % 2 ^ 32
  if 2 ^ b.qsize < (t + 2 ^ 32 - b.qhead) % 2 ^ 32 then b else { b with qtail := t }

/-- R471: EN starts or stops dequeuing; a halted queue stays halted. -/
def BaseCamp.enWrite (b : BaseCamp) (on : Bool) : BaseCamp :=
  { b with en := on, state := if b.state = 2 then 2 else if on then 1 else 0 }

/-- A LOG2 field within its range. -/
def logField (v : Dword) (hi : Nat) : Option Nat :=
  let n := v.toNat % 32
  if 4 ≤ n ∧ n ≤ hi then some n else none

/-- R471: a write of a queue or parameter register by one who may write it. SKIP has its own step. -/
def State.regStore (s : State) (pkg off : Nat) (v : Dword) : State :=
  match off with
  | 0x000 => s.modBc fun b => { b with qbase := maskField v 6 50, seq := (b.seq / 2 ^ 64 + 1) * 2 ^ 64 }
  | 0x008 => s.modBc fun b => { b with qsize := (logField v 20).getD b.qsize }
  | 0x010 => s.modBc (·.tailWrite v)
  | 0x020 => s.modBc fun b => { b with qroot := maskField v 16 36 }
  | 0x028 => s.modBc (·.enWrite (v.getLsbD 0))
  | 0x048 => s.modBc fun b => { b with cqbase := maskField v 5 51 }
  | 0x050 => s.modBc fun b => { b with cqsize := (logField v 20).getD b.cqsize }
  | 0x060 => s.modBc fun b => { b with cqhead := v.toNat % 2 ^ 32 }
  | 0x068 => s.modBc fun b => { b with fqbase := maskField v 5 51 }
  | 0x070 => s.modBc fun b => { b with fqsize := (logField v 16).getD b.fqsize }
  | 0x080 => s.modBc fun b => { b with fqhead := v.toNat % 2 ^ 32 }
  | 0x088 => s.modPkg pkg fun k => { k with hwBase0 := BitVec.ofNat 64 (maskField v 12 52) }
  | 0x090 => s.modPkg pkg fun k => { k with hwBase1 := BitVec.ofNat 64 (maskField v 12 52) }
  | 0x100 => s.cohWrite pkg v
  | 0x108 => s.hold0Write pkg v
  | 0x110 => s.hold1Write pkg v
  | 0x128 =>
    let w := v.toNat % 4096
    if w < 1200 ∨ 3600 < w then s else s.modPkg pkg fun k => { k with pwrCap := w }
  | _ => s

/-- The byte at an offset of a package's MMIO region. A strand is no host, so it has no copy of the mailbox (R491), whose
block reads zero; a host window's byte is host memory, which the rack does not hold. -/
def State.mmioByte (s : State) (pkg o : Nat) : Byte :=
  if o < 0x1000 then BitVec.ofNat 8 (s.regRead pkg (o / 8 * 8) / 2 ^ (8 * (o % 8)))
  else if 0x10000 ≤ o ∧ o < 0x20000 then sget 0 (s.pkg pkg).sensors (o - 0x10000)
  else if 0x20000 ≤ o ∧ o < 0x20400 then sget 0 s.poolmap (o - 0x20000)
  else if 0x8000000000 ≤ o ∧ o < 0xC000000000 then
    Config.hostByte s.now (2 * pkg) ((s.pkg pkg).hwBase0.toNat + (o - 0x8000000000))
  else if 0xC000000000 ≤ o ∧ o < 0x10000000000 then
    Config.hostByte s.now (2 * pkg + 1) ((s.pkg pkg).hwBase1.toNat + (o - 0xC000000000))
  else 0

/-- A read of `n` bytes at a resolved MMIO address; what a register block gives to an access of another width is for the
reader to discard (regWidthOk). -/
def State.mmioRead (s : State) (r n : Nat) : Nat :=
  bytesNat ((List.range n).map fun i => s.mmioByte (resPkg r) (mmioOff r + i))

/-- A write of the bytes of a line that a mask selects: each whole register of the line is written. What is written to a host
window leaves the machine. -/
def State.mmioWrite (s : State) (core line : Nat) (mask : BitVec 128) (data : BitVec 1024) : State :=
  let r := lineAddr line
  if mmioOff r < 0x1000 then
    (List.range 16).foldl (fun s k =>
      if mask.extractLsb' (8 * k) 8 = BitVec.allOnes 8 then
        let v : Dword := data.extractLsb' (64 * k) 64
        let off := mmioOff r + 8 * k
        let s1 := s.regStore (resPkg r) off v
        if off = 0x028 ∧ v.getLsbD 1 then s1.post (.qctlSkip ⟨.device core, resPkg r, off, v⟩) else s1
      else s) s
  else s

end Sys2Proof.Machine
end

