-- ==== Sys2Proof/Machine/Route.lean ====
section
/-!
DEFINITION. Machine/Route.lean: the dies and links of the rack, routes (R18, R441, R442), and the sending of messages with the
transaction ids and windows of R435-R438. Dies are numbered package x 8 + die, and the host die of package p is 576 + p. Link
p x 64 + k is, for k = 0-7, CDk's to its clockwise neighbour, for k = 8-15 CD(k - 8)'s to its counter-clockwise one, for
k = 16-23 CD(k - 16)'s to the host die, for k = 24-31 the host die's to CD(k - 24), for k = 32-49 fabric port k - 32 outward.
-/

namespace Sys2Proof.Machine

def hostDie (p : Nat) : Nat := 576 + p
def pkgOfDie (d : Nat) : Nat := if 576 ≤ d then d - 576 else d / 8

-- links

/-- R441: the package and the port at the other end of a fabric port. -/
def portPeer (p j : Nat) : Nat × Nat :=
  let t := p / 9
  let s := p % 9
  if j < 8 then (t * 9 + (s + j + 1) % 9, 7 - j)
  else if j < 15 then ((t + (j - 8) + 1) % 8 * 9 + s, 22 - j)
  else ((t ^^^ 2 ^ (j - 15)) * 9 + s, j)

/-- The other direction of a link. -/
def revLink (l : Nat) : Nat :=
  let p := l / 64
  let k := l % 64
  if k < 8 then p * 64 + 8 + (k + 1) % 8
  else if k < 16 then p * 64 + (k + 7) % 8
  else if k < 24 then p * 64 + k + 8
  else if k < 32 then p * 64 + k - 8
  else
    let (q, j) := portPeer p (k - 32)
    q * 64 + 32 + j

/-- A module that carries flits or checks. -/
def Module.alive (m : Module) : Bool := m.low || m.high
def Link.alive (l : Link) : Bool := !l.down && l.modules.any Module.alive

/-- R434: a link is up when both directions are. A link that has not been trained is not. -/
def State.linkUp (s : State) (l : Nat) : Bool :=
  (kget s.links l).any Link.alive && (kget s.links (revLink l)).any Link.alive

/-- A module after a training that it passes or not (R434): ACTIVE64 or OFF. -/
def Module.fresh (on : Bool) : Module := ⟨on, on, none, 0, 0, 0, 0⟩

/-- A link as it trains (R434, R497): its modules, of full width or OFF. -/
def Link.ofModules (ms : List Module) : Link := ⟨ms, 0, [], 0, [], [], [], 0, none, false, false, 0, 0, false, 0⟩
/-- A link all of whose `n` modules have trained. -/
def Link.trained (n : Nat) : Link := Link.ofModules (List.replicate n (Module.fresh true))

/-- A fabric port is a link of one module. -/
def isPort (l : Nat) : Bool := 32 ≤ l % 64
def State.modLink (s : State) (l : Nat) (f : Link → Link) : State :=
  match kget s.links l with
  | none => s
  | some x => { s with links := kput s.links l (f x) }

-- routes (R18, R442)

/-- A ring path of `n` links from a die, one way round. -/
def ringPath (p die : Nat) (clockwise : Bool) : Nat → List Nat
  | 0 => []
  | n + 1 =>
    if clockwise then (p * 64 + die) :: ringPath p ((die + 1) % 8) true n
    else (p * 64 + 8 + die) :: ringPath p ((die + 7) % 8) false n

/-- The shorter ring path between two dies of a package; of two equal ones the clockwise one. -/
def ringRoute (p a b : Nat) : List Nat :=
  let d := (b + 8 - a) % 8
  if d ≤ 4 then ringPath p a true d else ringPath p a false (8 - d)

/-- The first of some paths whose links are all up. -/
def State.firstUp (s : State) (ps : List (List Nat)) : Option (List Nat) := ps.find? fun p => p.all s.linkUp

/-- R18: the route between two dies of one package. -/
def State.innerRoute (s : State) (a b : Nat) : Option (List Nat) :=
  let p := pkgOfDie a
  if a = b then some []
  else if 576 ≤ a then s.firstUp [[p * 64 + 24 + b % 8]]
  else if 576 ≤ b then s.firstUp [[p * 64 + 16 + a % 8]]
  else
    let ring := ringRoute p (a % 8) (b % 8)
    let host := [p * 64 + 16 + a % 8, p * 64 + 24 + b % 8]
    if s.fenced.contains (hostDie p) then s.firstUp [ring]
    else if ring.length = 1 then s.firstUp [ring, host] else s.firstUp [host, ring]

/-- R442: the ports of a package that serve one hop, as links; every other link is alone. -/
def hopPorts (l : Nat) : List Nat :=
  if isPort l then
    let p := l / 64
    ((List.range 18).filter fun j => (portPeer p j).1 == (portPeer p (l % 64 - 32)).1).map (p * 64 + 32 + ·)
  else [l]

/-- R442: a hop from one package to another: its first port that is up stands for it in a route. -/
def State.hop (s : State) (p q : Nat) : Option (List Nat) :=
  if p = q then some []
  else
    let ports := (List.range 18).filter fun j => (portPeer p j).1 == q && s.linkUp (p * 64 + 32 + j)
    ports.head?.map fun j => [p * 64 + 32 + j]

/-- A package that forwards flits: its host die is not fenced. -/
def State.turnOk (s : State) (q : Nat) : Bool := !s.fenced.contains (hostDie q)

/-- R442: hops through some packages in turn. -/
def State.hops (s : State) (p : Nat) : List Nat → Option (List Nat)
  | [] => some []
  | q :: t =>
    if !s.turnOk q then none
    else
      match s.hop p q, s.hops q t with
      | some a, some b => some (a ++ b)
      | _, _ => none

/-- R442: the route between two packages: at most two hops, and when a port or a turn is lost, by another position. -/
def State.fabricRoute (s : State) (p q : Nat) : Option (List Nat) :=
  let turn := q / 9 * 9 + p % 9
  let others := (List.range 9).filterMap fun x => if x = p % 9 then none else some [p / 9 * 9 + x, q / 9 * 9 + x, q]
  ([turn, q] :: others).findSome? fun way => s.hops p way

/-- The links from a die to another; none when no route remains, or when either is fenced. -/
def State.route (s : State) (a b : Nat) : Option (List Nat) :=
  let p := pkgOfDie a
  let q := pkgOfDie b
  if s.fenced.contains a || s.fenced.contains b then none
  else if p = q then s.innerRoute a b
  else if !s.turnOk p then none
  else
    match s.innerRoute a (hostDie p), s.fabricRoute p q, s.innerRoute (hostDie q) b with
    | some x, some y, some z => some (x ++ y ++ z)
    | _, _, _ => none

/-- A route from one die to another exists (R18). -/
def State.routeUp (s : State) (src dst : Nat) : Bool := (s.route src dst).isSome

-- sending (R431, R432)

/-- R446: the payload of a packet, in bytes: the 32-byte units that a write packet writes into, the 64-bit entries of a mailbox packet,
the operands of XRED's and XAMO's lanes (DESIGN CHOICE, log entry 126), nothing else. -/
def Packet.payload (k : Packet) : Nat :=
  let n := k.lanes.length * (if k.wide then 8 else 4)
  match k.kind with
  | .put | .txa => 32 * ((k.bytes.map fun b => b.1 / 32).eraseDups).length
  | .mbx => 8 * k.lanes.length
  | .red => n
  | .amo => if k.fn = 10 ∨ k.fn = 12 ∨ k.fn = 13 then 2 * n else n
  | .get | .sig | .abort => 0

/-- R431: the slots of a message. -/
def State.slotsOf (s : State) (ev : Instr) : Nat :=
  match ev with
  | .readResponse _ => 5
  | .homeStore _ => 5
  | .addDrainLine _ => 5
  | .coreBackedAccess o => if o.data.isSome && !o.atom then 5 else 1
  | .collectivePacket o =>
    match s.packets.find? (·.id == o.id) with
    | some k => 1 + (k.payload + 31) / 32
    | none => 1
  | _ => 1

/-- R431: the slot of an atomic request, with its transaction id and the physical address. -/
def AtomMsg.slot (o : AtomMsg) (id phys : Nat) : BitVec 256 :=
  o.y ++ o.x ++ BitVec.ofNat 52 phys ++ o.fn ++ (if o.wide then 1#2 else 0#2) ++ 0#4 ++ BitVec.ofNat 24 o.pts
    ++ BitVec.ofNat 15 o.core ++ BitVec.ofNat 16 id ++ 0#4 ++ 3#5

/-- An event that need not stand in the agenda twice. -/
def State.postOnce (s : State) (i : Instr) : State := if s.agenda.contains i then s else s.post i

/-- The ports of a hop, or the one link, look for work. -/
def State.wakeLinks (s : State) (l : Nat) : State := (hopPorts l).foldl (fun s k => s.postOnce (.flitStart ⟨k⟩)) s

/-- A message waits on the first link of its path; a link that is down loses it. -/
def State.enqueue (s : State) (m : Message) : State :=
  match m.path with
  | [] => s
  | l :: _ => if s.linkUp l then (s.modLink l fun x => { x with queue := x.queue ++ [(m, m.slots)] }).wakeLinks l else s

/-- A message sent on the route there is now; with none it is lost. -/
def State.transmit (s : State) (src dst : Nat) (ev : Instr) (num : Option (Nat × Nat)) : State :=
  match s.route src dst with
  | none => s
  | some path => if path = [] then s.post ev else s.enqueue ⟨dst, ev, s.slotsOf ev, path, num⟩

-- transaction ids (R435-R438)

/-- R431, R436: a numbered request, by its source core. -/
def numberedCore (ev : Instr) : Option Nat :=
  match ev with
  | .homeStore o => some o.core
  | .atomicRequest o => some o.core
  | .addDrainLine o => some o.core
  | .transactionCommitStep o => if o.line.isSome then some o.core else none
  | .coreBackedAccess o => if o.data.isSome then some o.core else none
  | _ => none
/-- A request without a number. -/
def plainCore (ev : Instr) : Option Nat :=
  match ev with
  | .readRequest o => some o.core
  | .coreBackedAccess o => if o.data.isSome then none else some o.core
  | _ => none

/-- R439: the response answers the request. -/
def answers (resp req : Instr) : Bool :=
  match resp, req with
  | .storeAcknowledgement a, .homeStore r => a.core == r.core && (if r.seg.isSome then a.part == r.seg else a.part.isNone && a.sb == r.sb)
  | .storeAcknowledgement a, .addDrainLine r => a.core == r.core && a.part == r.home.map fun g => (r.op, g.1)
  | .segmentFail a, .addDrainLine r => a.core == r.core && a.cmd == r.op && r.home.any fun g => g.1 == a.seg
  | .storeAcknowledgement a, .coreBackedAccess r => a.core == r.core && a.part == some (r.acc, r.lane)
  | .transactionCommitStep a, .transactionCommitStep r => a.core == r.core && a.strand == r.strand && a.line.isNone && r.line.isSome
  | .atomicResponse a, .atomicRequest r => a.core == r.core && a.acc == r.acc && a.lane == r.lane
  | .readResponse a, .readRequest r => a.core == r.core && a.acc == r.acc && a.line == r.line
  | _, _ => false

/-- R437: numbered requests of a core to a die that have left and have no response. -/
def State.outstanding (s : State) (core die : Nat) : Nat :=
  (s.requests.filter fun r => r.core == core && r.die == die && r.id.isSome).length

/-- A request becomes known until it is answered. -/
def State.keepRequest (s : State) (r : Request) : State := { s with requests := s.requests ++ [r] }

/-- A numbered request takes the next id of its pair and leaves. -/
def State.numberRequest (s : State) (core die : Nat) (ev : Instr) : State :=
  let key := (core, die)
  let i := ((s.txIds.find? fun x => x.1 == key).map Prod.snd).getD 0
  let ids : List ((Nat × Nat) × Nat) := s.txIds.filter (fun x => x.1 != key) ++ [(key, (i + 1) % 65536)]
  ({ s.keepRequest ⟨core, die, some i, ev, false⟩ with txIds := ids }).transmit (dieOfCore core) die ev (some (core, i))

/-- While 64 are unanswered, or others wait, it is held at the core. -/
def State.sendNumbered (s : State) (core die : Nat) (ev : Instr) : State :=
  if 64 ≤ s.outstanding core die ∨ s.requests.any (fun r => r.core == core && r.die == die && r.held) = true then
    s.keepRequest ⟨core, die, none, ev, true⟩
  else s.numberRequest core die ev

/-- Held requests leave while there is room, in order. -/
def releaseHeld : List Request → State → State
  | [], s => s
  | r :: t, s =>
    if s.outstanding r.core r.die < 64 then
      let rest : List Request := s.requests.erase r
      releaseHeld t (State.numberRequest { s with requests := rest } r.core r.die r.ev)
    else releaseHeld t s

/-- R438: a home's response: it is saved in the window of its request, the last 64 of them. -/
def Window.save (w : Window) (resp : Instr) : Window :=
  match w.given.find? fun g => answers resp g.2 with
  | none => w
  | some g =>
    let all := w.saved ++ [(g.1, resp)]
    { w with given := w.given.erase g, saved := all.drop (all.length - 64) }

/-- A message from one die to another. On one die it is an event at once; between dies a request stays known until it is
answered, and a response is saved. -/
def State.send (s : State) (src dst : Nat) (ev : Instr) : State :=
  if src = dst then s.post ev
  else
    match numberedCore ev, plainCore ev with
    | some core, _ => s.sendNumbered core dst ev
    | _, some core =>
      (s.keepRequest ⟨core, dst, none, ev, false⟩).transmit src dst ev none
    | _, _ =>
      let s1 := { s with windows := s.windows.map fun (w : Window) => if w.die = src then w.save ev else w }
      s1.transmit src dst ev none

-- arrival

/-- Held requests whose turn has come are handed to the home (R438). -/
def handOn : Nat → Window → List Instr → Window × List Instr
  | 0, w, out => (w, out)
  | k + 1, w, out =>
    match w.held.find? fun h => h.1 == w.nx with
    | none => (w, out)
    | some h =>
      handOn k { w with
        nx := (w.nx + 1) % 65536
        held := w.held.erase h
        given := w.given ++ [h] } (out ++ [h.2])

def State.window (s : State) (die core : Nat) : Window :=
  (s.windows.find? fun w => w.die == die && w.core == core).getD ⟨die, core, 0, [], [], []⟩
def State.setWindow (s : State) (w : Window) : State :=
  { s with windows := s.windows.filter (fun (x : Window) => !(x.die == w.die && x.core == w.core)) ++ [w] }

/-- R438: a numbered request reaches its die. -/
def State.takeNumbered (s : State) (die core id : Nat) (ev : Instr) : State :=
  let w := s.window die core
  if id = w.nx ∨ (id + 65536 - w.nx) % 65536 < 32768 then
    let w1 := if w.held.any (fun h => h.1 == id) then w else { w with held := w.held ++ [(id, ev)] }
    let (w2, out) := handOn (w1.held.length + 1) w1 []
    out.foldl (fun s e => s.post e) (s.setWindow w2)
  else
    match w.saved.find? fun x => x.1 == id with
    | some (_, resp) => s.transmit die (dieOfCore core) resp none
    | none => s

/-- The line of a numbered request that its home slice applies in turn (R438). -/
def turnLine (ev : Instr) : Option Nat :=
  match ev with
  | .homeStore o => some o.line
  | .atomicRequest o => some (lineOf o.pa)
  | .addDrainLine o => o.home.map Prod.snd
  | _ => none

/-- Two records of one request; which line leaves L2 for it is no part of it. -/
def sameRequest (a b : Instr) : Bool :=
  match a, b with
  | .homeStore x, .homeStore y => x.core == y.core && x.sb == y.sb && x.seg == y.seg
  | _, _ => a == b

/-- R438: a request that was handed to the same home slice before this one of the same core has not been applied. -/
def State.notInTurn (s : State) (core line : Nat) (ev : Instr) : Bool :=
  let slice := homeSlice (lineAddr line)
  let given := (s.window (homeDie (lineAddr line)) core).given.map Prod.snd
  given.any (sameRequest ev) && (given.takeWhile fun x => !sameRequest ev x).any fun x =>
    (turnLine x).any fun l => homeSlice (lineAddr l) == slice

/-- A message at its destination: a numbered request goes through its window; a response frees its request. -/
def State.arrive (s : State) (m : Message) : State :=
  match m.num with
  | some (core, id) => s.takeNumbered m.dst core id m.ev
  | none =>
    let s1 := { s with requests := s.requests.filter fun (r : Request) =>
        !(answers m.ev r.ev || (r.ev == m.ev && r.id.isNone && (match r.ev with | .coreBackedAccess _ => true | _ => false))) }
    releaseHeld (s1.requests.filter fun (r : Request) => r.held) (s1.post m.ev)

/-- A message at the end of a link: it goes on, or it has arrived. -/
def State.onward (s : State) (m : Message) : State :=
  match m.path.drop 1 with
  | [] => s.arrive m
  | rest => s.enqueue { m with path := rest }

end Sys2Proof.Machine
end

