-- ==== Sys2Proof/Machine/Walk.lean ====
section
/-!
DEFINITION. Machine/Walk.lean: page tables, the walker and the cluster TLB (R22, R224-R232).
-/

namespace Sys2Proof.Machine

-- page tables (R225-R228)

/-- Fields of an entry (R226). -/
def ptePa (e : Dword) : Nat := (e.extractLsb' 16 36).toNat * 65536
def pteHome (e : Dword) : Nat := (e.extractLsb' 6 2).toNat
def pteCoh (e : Dword) : Nat := (e.extractLsb' 8 2).toNat
def pteV (e : Dword) : Bool := e.getLsbD 0
def pteR (e : Dword) : Bool := e.getLsbD 1
def pteW (e : Dword) : Bool := e.getLsbD 2
def pteX (e : Dword) : Bool := e.getLsbD 3
def pteP (e : Dword) : Bool := e.getLsbD 4
def pteTag (e : Dword) : Bool := e.getLsbD 5
def pteMcast (e : Dword) : Bool := e.getLsbD 10
def pteA (e : Dword) : Bool := e.getLsbD 11
def pteD (e : Dword) : Bool := e.getLsbD 12
def pteL (e : Dword) : Bool := e.getLsbD 13

/-- Offset bits of a page at a level (R225). -/
def pageBits (level : Nat) : Nat := 16 + 10 * level

/-- R227: the attributes that a leaf may not have. -/
def leafConflict (level : Nat) (e : Dword) : Bool :=
  e.extractLsb' 52 12 != 0 || e.extractLsb' 14 2 != 0 || level == 3 || 2 ≤ pteCoh e
    || ptePa e % 2 ^ pageBits level != 0
    || (pteHome e == 3 && (level != 0 || pteTag e || pteMcast e || pteCoh e != 0 || e.extractLsb' 38 14 != 0))

/-- What one entry of a walk gives: a fault, a leaf, or the next table. -/
inductive WalkStep where
  | fail (c : Cause)
  | leaf (e : Dword) (r : Nat)
  | table (pa : Nat)
  deriving DecidableEq, Repr

/-- R225: where the entry of a table for an address lies. -/
def entryPa (table va level : Nat) : Nat := table + 8 * (va / 2 ^ pageBits level % 1024)

/-- R225-R227: one entry of a table read at its home and checked; `up` tells which dies the reader reaches (R18). -/
def State.walkEntry (s : State) (up : Nat → Bool) (table va level : Nat) : WalkStep :=
  match s.resolve (entryPa table va level) with
  | none => .fail .homeUnreachable
  | some r =>
    if !up (homeDie r) then .fail .homeUnreachable
    else
    let e : Dword := BitVec.ofNat 64 (s.readMem r 8)
    if !pteV e then .fail .pageNotPresent
    else if level = 0 ∨ pteL e then (if leafConflict level e then .fail .attributeConflict else .leaf e r)
    else .table (ptePa e)

/-- R225-R227: the walk from a table down: the leaf's level, its entry and where the entry lies. -/
def State.walkFrom (s : State) (up : Nat → Bool) (table va : Nat) : Nat → Except Cause (Nat × Dword × Nat)
  | 0 =>
    match s.walkEntry up table va 0 with
    | .fail c => .error c
    | .leaf e r => .ok (0, e, r)
    | .table _ => .error .pageNotPresent
  | k + 1 =>
    match s.walkEntry up table va (k + 1) with
    | .fail c => .error c
    | .leaf e r => .ok (k + 1, e, r)
    | .table t => s.walkFrom up t va k

/-- The leaf at which a walk stops, its attributes not judged. -/
def State.bareLeaf (s : State) (table va : Nat) : Nat → Option Dword
  | 0 => (s.resolve (entryPa table va 0)).map fun r => BitVec.ofNat 64 (s.readMem r 8)
  | k + 1 =>
    match s.resolve (entryPa table va (k + 1)) with
    | none => none
    | some r =>
      let e : Dword := BitVec.ofNat 64 (s.readMem r 8)
      if pteL e then some e else s.bareLeaf (ptePa e) va k

/-- R235: what an access reports of a walk that failed: the rights of a leaf come before its attributes. -/
def State.walkFault (s : State) (root va : Nat) (reads writes priv : Bool) (c : Cause) : Cause :=
  if c ≠ .attributeConflict then c
  else
    match s.bareLeaf root va 3 with
    | none => c
    | some e =>
      if reads && (!pteR e || (pteP e && !priv)) then .protectionRead
      else if writes && (!pteW e || (pteP e && !priv)) then .protectionWrite
      else c

/-- The place of a walk's fault among the checks of R235. -/
def walkOrder : Cause → Nat
  | .pageNotPresent => 4
  | .protectionRead => 5
  | .protectionWrite => 6
  | .homeUnreachable => 10
  | _ => 7

/-- R228: a bit of an entry set at its home, as one step. -/
def State.setPteBits (s : State) (r : Nat) (e : Dword) : State :=
  (s.writeMem r (natBytes 8 e.toNat)).stampWrite (lineOf r) 0 |>.1

/-- The page number of a virtual address at a level. -/
def vpnOf (va level : Nat) : Nat := va / 2 ^ pageBits level

/-- R232: the TLB entry of a cluster for an address. -/
def State.tlbFind (s : State) (cluster root va : Nat) : Option TlbEntry :=
  s.tlb.find? fun t => t.cluster == cluster && t.root == root && t.vpn == vpnOf va t.level

/-- The dies that the walker of a cluster's die reaches. -/
def State.walkerUp (s : State) (cluster : Nat) : Nat → Bool := s.routeUp (cluster / 8)

/-- R284: an entry on the way of a walk lies in a line that a commit holds. -/
def State.pathLocked (s : State) (table va : Nat) : Nat → Bool
  | 0 => (s.resolve (entryPa table va 0)).any fun r => s.locked (lineOf r)
  | k + 1 =>
    match s.resolve (entryPa table va (k + 1)) with
    | none => false
    | some r =>
      let e : Dword := BitVec.ofNat 64 (s.readMem r 8)
      s.locked (lineOf r) || (pteV e && !pteL e && s.pathLocked (ptePa e) va k)

/-- R22: entries of a cluster's TLB. -/
def tlbEntries : Nat := 8192

/-- A TLB entry put first; a full TLB loses its oldest entry. -/
def tlbPut (t : TlbEntry) (l : List TlbEntry) : List TlbEntry :=
  let keep := l.filter fun x => !(x.cluster == t.cluster && x.root == t.root && x.vpn == t.vpn && x.level == t.level)
  if keep.length < tlbEntries || (keep.filter fun x => x.cluster == t.cluster).length < tlbEntries then t :: keep
  else t :: (keep.reverse.eraseP fun x => x.cluster == t.cluster).reverse

/-- Bits A and D of an entry. -/
def usedBits (write : Bool) : Dword := 0x800#64 ||| (if write then 0x1000#64 else 0)

/-- PAGE WALK (R225-R228, R232): the leaf is loaded with A set at its home. -/
def State.walk (s : State) (cluster root va : Nat) : Except Cause State :=
  match s.walkFrom (s.walkerUp cluster) root va 3 with
  | .error c => .error c
  | .ok (level, e, r) =>
    let e1 := e ||| usedBits false
    let s1 := if e1 = e then s else s.setPteBits r e1
    let keep := s1.tlb.filter fun t => !(t.cluster == cluster && t.root == root && t.vpn == vpnOf va t.level)
    .ok { s1 with tlb := tlbPut ⟨cluster, root, level, vpnOf va level, e1, r⟩ keep }

/-- R228: D of a TLB entry set at the entry's home, where the entry is still valid with the same PA and attributes. -/
def State.setDirty (s : State) (t : TlbEntry) : Option State :=
  let e : Dword := BitVec.ofNat 64 (s.readMem t.home 8)
  if pteV e && (e ||| usedBits true) == (t.pte ||| usedBits true) then
    let s1 := s.setPteBits t.home (e ||| usedBits true)
    some { s1 with tlb := s1.tlb.map fun x => if x = t then { x with pte := e ||| usedBits true } else x }
  else none

/-- R228, R232: a miss served: the D bit of an entry of the TLB set, or a walk; an entry that has changed at its home is dropped
first. The fault of the walk, or of an entry whose home no route reaches (R18), if it has one. -/
def State.serveMiss (s : State) (cluster root va : Nat) (write : Bool) : State × Option Cause :=
  match if write then s.tlbFind cluster root va else none with
  | none => walkMiss s
  | some t =>
    if !s.walkerUp cluster (homeDie t.home) then (s, some .homeUnreachable)
    else
      match s.setDirty t with
      | some s1 => (s1, none)
      | none => walkMiss { s with tlb := s.tlb.filter fun x => x != t }
where
  walkMiss (s : State) : State × Option Cause :=
    match s.walk cluster root va with
    | .ok s1 => (s1, none)
    | .error c => (s, some c)

/-- R232: the start of the page that a miss concerns, by which misses coalesce; where no leaf is found, its 64 KiB. -/
def State.missPage (s : State) (cluster root va : Nat) : Nat :=
  match s.walkFrom (s.walkerUp cluster) root va 3 with
  | .ok (level, _, _) => va / 2 ^ pageBits level * 2 ^ pageBits level
  | .error _ => va / 65536 * 65536

/-- R225: the physical address of an access through a leaf. -/
def leafPa (level : Nat) (e : Dword) (va : Nat) : Nat := ptePa e + va % 2 ^ pageBits level

end Sys2Proof.Machine
end

