-- ==== Sys2Proof/Machine/Access.lean ====
section
/-!
DEFINITION. Machine/Access.lean: an access of a strand from issue to settlement: translation and the checks of R235,
watchpoints (R262, R264), the operand log (R144, R145), loads, stores and atomics on their way to scratchpad, L1, the
store buffer and the homes (R239-R248, R269-R275), transactions (R252, R253), fences (R250, R277-R279), and the
delivery of an access's fault (R236, R237, R147, R516).
-/

namespace Sys2Proof.Machine

-- scopes (R30, R31, R288)

/-- The cover that an instruction's scope entry names, strand taken as party (R250, R32). -/
def ScopeEntry.covers (e : ScopeEntry) : Nat := max 1 e.cover.toNat
/-- A scope entry as it is now. -/
def Party.entryAt (p : Party) (e : BitVec 5) : ScopeEntry := p.scopes[e.toNat]?.getD ⟨0, false, 6, []⟩
def Party.cover (p : Party) (e : BitVec 5) : Nat := (p.entryAt e).covers

/-- R288: a home address lies in the memory of a core's cover. -/
def inCover (cover core r : Nat) : Bool :=
  match cover with
  | 0 | 1 => false
  | 2 => homeDie r == dieOfCore core
  | 3 => resPkg r == pkgOfCore core
  | 4 => resPkg r / 9 == pkgOfCore core / 9
  | _ => true

/-- A core lies in the exact set or the cover of a scope entry, seen from a party's core (R31, R262). -/
def ScopeEntry.holds (e : ScopeEntry) (fixed : Bool) (owner core : Nat) : Bool :=
  if !fixed then e.exact.contains core
  else
    match e.cover.toNat with
    | 0 | 1 => core == owner
    | 2 => dieOfCore core == dieOfCore owner
    | 3 => pkgOfCore core == pkgOfCore owner
    | 4 => pkgOfCore core / 9 == pkgOfCore owner / 9
    | _ => true

-- how a line is reached (R229)

def remoteTo (core r : Nat) : Bool := resPkg r != pkgOfCore core

def modeOf (core : Nat) (pte : Dword) (r : Nat) : LineMode :=
  if pteHome pte = 2 || isMmioOff (resOff r) then .never
  else if pteCoh pte = 1 then .si
  else if remoteTo core r then .never
  else .ts

-- kinds of access

def AccKind.reads : AccKind → Bool
  | .load | .atomic | .tagLoad => true
  | _ => false
def AccKind.writes : AccKind → Bool
  | .store | .atomic | .tagStore | .tagFill => true
  | _ => false
def AccKind.tagOp : AccKind → Bool
  | .tagLoad | .tagStore | .tagFill => true
  | _ => false

/-- R262: the kinds that a watchpoint's KIND names. -/
def watchKind (k : AccKind) (kind : BitVec 2) : Bool :=
  match k with
  | .load | .tagLoad => kind = 0 || kind = 2
  | .store | .tagStore | .tagFill => kind = 1 || kind = 2
  | .atomic => kind = 1 || kind = 2 || kind = 3
  | .command | .group => false

/-- Kind code of a watch record (R264). -/
def watchCode : AccKind → Nat
  | .load | .tagLoad => 0
  | .store | .tagStore | .tagFill => 1
  | .atomic => 2
  | .command | .group => 3

/-- Ranges meet. -/
def meets (a n b m : Nat) : Bool := a < b + m && b < a + n

/-- R261: the watched virtual range. -/
def Watch.range (k : Watch) : Nat × Nat :=
  let n := 2 ^ k.log2.toNat
  (k.base.toNat / n * n, n)

/-- R172, R262: the enabled watchpoints, with their numbers, that an access or command numbered `id` meets. -/
def Strand.watching (st : Strand) (id : Nat) : List (Nat × Watch) :=
  ((List.range 4).filterMap fun n => (st.wp[n]?).bind fun (k : Watch) => if k.en && decide (k.since ≤ id) then some (n, k) else none)
    ++ st.pastWp.filterMap fun (n, k, till) => if k.since ≤ id ∧ id < till then some (n, k) else none

/-- R262: a watchpoint of the strand itself matches its access of `n` bytes at `va`. -/
def Watch.own (k : Watch) (a : Access) (lane va n : Nat) : Bool :=
  watchKind a.kind k.kind && meets va n k.range.1 k.range.2 && (k.scope != 0 || a.uniform || k.lmask.getLsbD lane)

/-- R31, R262: a watchpoint at a scope whose accessors are the strands and engines of its own party. -/
def Watch.wholeParty (k : Watch) (core : Nat) : Bool :=
  k.scope != 0 && decide (k.seen.cover.toNat ≤ 1) && (decide (k.scope.toNat ≤ 6) || k.seen.exact.contains core)

-- the accesses of a party

def Party.access? (p : Party) (id : Nat) : Option Access := p.accesses.find? (·.id == id)
def Party.setAccess (p : Party) (a : Access) : Party :=
  { p with accesses := p.accesses.map fun b => if b.id = a.id then a else b }
def Party.dropAccess (p : Party) (id : Nat) : Party := { p with accesses := p.accesses.filter (·.id != id) }
def State.access? (s : State) (core id : Nat) : Option Access := (s.party? core).bind (·.access? id)
def State.setAccess (s : State) (core : Nat) (a : Access) : State := s.modParty core (·.setAccess a)
def State.dropAccess (s : State) (core id : Nat) : State := s.modParty core (·.dropAccess id)

/-- The bytes that a lane of an access touches from its address on (R262): its size, for a tag operation the byte at the pointer
(log entry 103), for TAGFILL what it fills of a page of 64 KiB. -/
def Access.bytesAt (a : Access) (q : LanePart) : Nat :=
  if a.kind = .tagFill then min q.x (65536 - q.addr.toNat % 65536) else if a.kind.tagOp then 1 else a.size

-- translation (R232)

/-- What one lane's checks give. -/
inductive Verdict where
  | ok (p : LanePart)
  | wait (write : Bool)
  | bad (order : Nat) (c : Cause)
  deriving DecidableEq, Repr

/-- R232: the leaf through which a core reaches an address: a TLB entry, or the leaf that an L1 line under that
virtual tag was filled through. -/
def State.leafFor (s : State) (core root va : Nat) : Option (Nat × Dword) :=
  match s.tlbFind (clusterOfCore core) root va with
  | some t => some (leafPa t.level t.pte va, t.pte)
  | none => none

/-- The address inside an L1 line under its virtual tag, where no TLB entry is left. -/
def State.l1Tagged (s : State) (core root va : Nat) : Option (Nat × Dword) :=
  ((s.core core).l1.find? fun l => l.root == root && l.va == va / 128).map fun l =>
    (lineAddr l.line + va % 128, l.pte)

/-- The home address, leaf and whether it is resolved, of a virtual address. -/
def State.translate (s : State) (core root va : Nat) : Option (Option Nat × Nat × Dword) :=
  match s.leafFor core root va with
  | some (pa, e) => some (if pteHome e = 3 then some pa else s.resolve pa, pa, e)
  | none => (s.l1Tagged core root va).map fun (r, e) => (some r, r, e)

/-- R230: core and scratchpad offset of a core-backed physical address. -/
def backedCore (pa : Nat) : Nat := pa / 2 ^ 16 % 2 ^ 15
def backedOff (pa : Nat) : Nat := pa / 2 ^ 31 % 128 * 65536 + pa % 65536

/-- R256: a copy's tags with the stored ones in place. -/
def mergeTags (old new : BitVec 16) (mask : BitVec 4) : BitVec 16 :=
  let m : BitVec 16 := [0, 1, 2, 3].foldl (fun m k => if mask.getLsbD k then m ||| (15#16 <<< (4 * k)) else m) 0
  (old &&& ~~~m) ||| (new &&& m)

/-- R241, R256: what the store buffer holds of a line's tags: the mask of granules and their youngest tags. -/
def Core.bufferedTags (k : Core) (line : Nat) : BitVec 4 × BitVec 16 :=
  (k.sb.filter fun e => e.2.line == line).foldl (fun (m, t) e => (m ||| e.2.tagMask, mergeTags t e.2.tags e.2.tagMask)) (0, 0)

/-- A line's tags as the core sees them: its buffered tag stores over what its copy or the home holds. -/
def Core.tagsOver (k : Core) (line : Nat) (tags : BitVec 16) : BitVec 16 :=
  let (m, t) := k.bufferedTags line
  mergeTags tags t m

/-- R270: a copy that a load may use without asking the home. -/
def usableCopy (pts : Nat) (mode : LineMode) (policy : BitVec 2) (l : L1Line) : Bool :=
  policy != 2 && (match mode with
    | .ts => pts ≤ l.rts
    | .si => true
    | .never => false)

/-- R279: the package's L2 copy of a remote SI line that an access may use. -/
def State.packageCopy (s : State) (core line : Nat) (mode : LineMode) (policy : BitVec 2) : Option RemoteCopy :=
  s.remotes.find? fun c => mode == .si && c.pkg == pkgOfCore core && c.line == line && policy != 2

/-- The granule tag that an access compares: the core's buffered one, that of the copy that it may use, or the home's (R256). An
access without a policy uses no copy. -/
def State.granuleTag (s : State) (core r : Nat) (mode : LineMode) (policy : Option (BitVec 2)) : BitVec 4 :=
  let k := s.core core
  let home := s.lineTags (lineOf r)
  let tags : BitVec 16 := match policy with
    | none => home
    | some po =>
      match k.l1.find? (·.line == lineOf r) with
      | some l => if usableCopy k.pts mode po l then l.tags else home
      | none => ((s.packageCopy core (lineOf r) mode po).map RemoteCopy.tags).getD home
  (k.tagsOver (lineOf r) tags).extractLsb' (4 * (r / 32 % 4)) 4

/-- R230, R235: what a core-backed byte range meets at the named core: no route, no party of the grid, or an offset beyond its
scratchpad. -/
def State.backedFault (s : State) (core : Nat) (grid : BitVec 32) (c off n : Nat) : Option Cause :=
  if !s.routeUp (dieOfCore core) (dieOfCore c) then some .homeUnreachable
  else
    match (s.party? c).filter fun t => t.grid == grid with
    | none => some .homeUnreachable
    | some t => if t.scratchSize < off + n then some .scratchRange else none

/-- Checks 5 to 10 of R235 on a translated lane. -/
def State.leafChecks (s : State) (core : Nat) (p : Party) (a : Access) (q : LanePart) (pa : Nat)
    (r? : Option Nat) (e : Dword) : Verdict :=
  let st := p.strand a.strand
  let va := q.addr.toNat % 2 ^ 56
  if a.kind.reads && (!pteR e || (pteP e && !p.priv)) then .bad 5 .protectionRead
  else if a.kind.writes && (!pteW e || (pteP e && !p.priv)) then .bad 6 .protectionWrite
  else if pteMcast e || (pteHome e == 3 && p.movable) then .bad 7 .attributeConflict
  else if (a.kind == .tagStore || a.kind == .tagFill) && !pteTag e then .bad 7 .attributeConflict
  else if (st.watching a.id).any fun x => x.2.own a q.lane va (a.bytesAt q) && !x.2.act then .bad 8 .watchHit
  else if pteHome e = 3 then
    let c := backedCore pa
    match s.backedFault core p.grid c (backedOff pa) a.size with
    | some .scratchRange => .bad 11 .scratchRange
    | some f => .bad 10 f
    | none => .ok { q with pa := pa, pte := e, place := .coreBacked c (backedOff pa) }
  else
    match r? with
    | none => .bad 10 .homeUnreachable
    | some r =>
      if isMmioOff (resOff r) && !p.priv then .bad 10 .homeUnreachable
      else if pteTag e && !a.kind.tagOp && s.granuleTag core r (modeOf core e r) (if a.kind = .atomic then none else some a.policy)
          != q.addr.extractLsb' 56 4 then .bad 9 .tagMismatch
      else if !s.routeUp (dieOfCore core) (homeDie r) then .bad 10 .homeUnreachable
      else .ok { q with pa := r, pte := e, place := .global (lineOf r) }

/-- The checks of R235 on one lane, in their order. -/
def State.laneChecks (s : State) (core : Nat) (p : Party) (a : Access) (q : LanePart) : Verdict :=
  if a.loc then
    if !a.kind.tagOp && q.addr.toNat % a.size ≠ 0 then .bad 2 .misalignedAccess
    else if q.addr.toNat + a.size > p.scratchSize then .bad 3 .scratchRange
    else .ok { q with place := .scratch q.addr.toNat }
  else if q.addr.extractLsb' 60 4 ≠ 0 then .bad 1 .noncanonicalAddress
  else if !a.kind.tagOp && q.addr.toNat % a.size ≠ 0 then .bad 2 .misalignedAccess
  else
    let va := q.addr.toNat % 2 ^ 56
    match s.walkFails.find? fun f => f.cluster == clusterOfCore core && f.root == p.root && f.page == va / 65536 with
    | some f =>
      let c := s.walkFault p.root va a.kind.reads a.kind.writes p.priv f.cause
      .bad (walkOrder c) c
    | none =>
      match s.translate core p.root va with
      | none => .wait false
      | some (r?, pa, e) =>
        if a.kind.writes && !pteD e && pteW e && !(pteP e && !p.priv) then .wait true
        else s.leafChecks core p a q pa r? e

-- watch records and held hits (R264)

/-- R264: a watch record. -/
def watchRecord (va : Nat) (core strand kind wp : Nat) : Dword × Dword :=
  (BitVec.ofNat 64 (2 * 2 ^ 56 + va % 2 ^ 56),
   BitVec.ofNat 64 (core + strand * 2 ^ 16 + kind * 2 ^ 20 + wp * 2 ^ 24))

/-- R264: a hit of another accessor on watchpoint `n`, `act` its action: held for the watching strand, or a record. -/
def Party.hitStrand (p : Party) (i n : Nat) (act : Bool) (va core strand kind : Nat) : Party :=
  let st := p.strand i
  let (w0, w1) := watchRecord va core strand kind n
  if act || kind == 3 || !st.live || st.held.isSome then p.notice w0 w1
  else p.modStrand i fun st => { st with held := some ⟨n, BitVec.ofNat 64 va, core, strand, kind⟩ }

/-- The virtual address of a lane. -/
def LanePart.va (q : LanePart) : Nat := q.addr.toNat % 2 ^ 56

/-- R262, R264: the strand's own recording watchpoints, and those of the other strands of the party whose accessors are the whole
party. An access that several of its lanes bring to a watchpoint is one hit, of the lowest such lane. -/
def Party.watchParty (p : Party) (core : Nat) (a : Access) (qs : List LanePart) : Party :=
  (List.range 16).foldl (fun p i => ((p.strand i).watching a.id).foldl (fun p (n, k) =>
    if i = a.strand then
      match qs.find? fun q => k.act && k.own a q.lane q.va (a.bytesAt q) with
      | some q =>
        let (w0, w1) := watchRecord (max q.va k.range.1) core a.strand (watchCode a.kind) n
        p.notice w0 w1
      | none => p
    else
      match qs.find? fun q => k.wholeParty core && watchKind a.kind k.kind && meets q.va (a.bytesAt q) k.range.1 k.range.2 with
      | some q => p.hitStrand i n k.act (max q.va k.range.1) core a.strand (watchCode a.kind)
      | none => p) p) p

/-- R262, R263: comparators at the homes of a package: watchpoints of scope die or wider on a physical range, whose set holds the
accessor's core. `runs` are the bytes that the access touches there, one hit for all of them; the access or command numbered `id`
issued at core `by_` (R172). -/
def State.watchHome (s : State) (core strand by_ id : Nat) (k : AccKind) (engine : Bool) (runs : List (Nat × Nat)) : State :=
  s.parties.foldl (fun s (c, p) =>
    (List.range 16).foldl (fun s i => ((p.strand i).watching (if c = by_ then id else s.nextId)).foldl (fun s (j, w) =>
      match w.comps with
      | none => s
      | some (lo, len) =>
        match runs.find? fun (r, n) => pkgOfCore c == resPkg r && meets r n lo len with
        | none => s
        | some (r, _) =>
          if watchKind k w.kind && w.seen.holds (decide (w.scope.toNat ≤ 6)) c core && !(c == core && i == strand && !engine) then
            s.modParty c (·.hitStrand i j w.act (w.base.toNat / len * len + (r - lo)) core strand (if engine then 3 else watchCode k))
          else s) s) s) s

/-- R263: a home refuses leases on the lines that a comparator watches. -/
def State.watchedLine (s : State) (l : Nat) : Bool :=
  s.parties.any fun (c, p) => pkgOfCore c == resPkg (lineAddr l) && (List.range 16).any fun i =>
    (List.range 4).any fun j => ((p.strand i).wp[j]?).any fun (w : Watch) =>
      w.en && w.comps.any fun (lo, len) => meets (lineAddr l) 128 lo len

-- faults of an access (R236, R237, R147)

/-- R516: the destinations of a strand's faulted and discarded accesses are marked full at delivery. -/
def Party.fillDiscarded (p : Party) (i : Nat) : Party :=
  let marks := (p.accesses.filter fun a => a.strand == i).flatMap fun a => marksOf a.dst
  p.modStrand i (·.setFulls true marks)

/-- The first access of the strand that has neither settled nor gone to the log behind an older one. -/
def Party.firstFault (p : Party) (i : Nat) : Option Access :=
  match p.accesses.filter fun a => a.strand == i with
  | [] => none
  | a :: t => if a.step == .faulted && t.all (fun b => b.step == .faulted || b.step == .logged) then some a else none

/-- The slots that accesses which are gone held: they go on (R147, R457, R458). -/
def Party.freeHolders (p : Party) (gone : List Access) : Party :=
  gone.foldl (fun p a => p.modStrand a.strand (·.modSlot a.slot fun l => match l.wait with
    | .engine _ => if a.kind = .group then { l with wait := .none } else l
    | .log id => if id = a.id then { l with wait := .none } else l
    | _ => l)) p

/-- R237, R147, R516: the fault of the strand's oldest access is delivered once every overtaker has settled or sits in
the log; overtakers in the log are discarded at delivery, and at a halt they stay for the inventory alone (R508). A strand that
has ended takes no fault any more (R138, log entry 104). A fault of an access whose slot has been pushed is taken by the strand's
receiving slot (log entry 116). The handler is the one of the access's issue (R172), and an instruction that faults owes no step
trap (R505). -/
def State.deliverAccess (s : State) (core i : Nat) : State × Bool :=
  match s.party? core with
  | none => (s, true)
  | some p =>
    match p.firstFault i with
    | none => (s, !(p.accesses.any fun a => a.strand == i && a.step == .faulted))
    | some a =>
      match a.fault with
      | none => (s, true)
      | some f =>
        let w : SlotRef := ⟨core, i, if a.pushed.isSome then (p.strand i).hitSlot else a.slot⟩
        let t : TrapInfo := ⟨f.cause, a.pc, a.words, f.lane, f.mask, f.addr, a.ovr, a.pc, false⟩
        let delivered := p.status != .halting && !(p.strand i).inh && a.thnd != 0
        let keep (b : Access) : Bool := b.strand != i || (!delivered && b.step == .logged)
        let p1 := if delivered then (p.fillDiscarded i).freeHolders (p.accesses.filter fun b => !keep b) else p
        let p2 := p1.modSlot w fun l => { l with stepped := l.stepped.filter fun o => !(decide (o.lo ≤ a.id) && decide (a.id < o.hi)) }
        let s1 := s.setParty core { p2 with accesses := p2.accesses.filter keep }
        (if (p.strand i).live then s1.takeTrapUnder a.thnd w t else s1, true)

/-- An access stops with a fault; it is delivered now or by a later event. -/
def State.failAccess (s : State) (core : Nat) (a : Access) (f : AccFault) : State :=
  let s1 := s.setAccess core { a with step := .faulted, fault := some f }
  let (s2, done) := s1.deliverAccess core a.strand
  if done then s2 else s2.post (.trapDelivery ⟨core, a.strand⟩)

/-- R482: the access kind of a record. -/
def Access.faultKind (a : Access) : Nat :=
  match a.op with
  | some (.emit _) => 1
  | _ => if a.kind.writes then 1 else 0

/-- R144, R145: a resumable fault `f` puts the access in the log, or makes its slot wait for a free entry; with none it goes
behind an older entry of its page. -/
def State.logAccess (s : State) (core : Nat) (a : Access) (f : Option AccFault) : State :=
  match s.party? core with
  | none => s
  | some p =>
    let held := (p.accesses.filter fun b => b.strand == a.strand && b.inPlace && b.id != a.id).length
    if held < 4 then
      let s0 := if held = 0 && !a.placed then s.modParty core (·.modStrand a.strand fun st => { st with logOver := 0 }) else s
      let s1 := (s0.setAccess core { a with step := .logged, fault := f, placed := true }).modSlot ⟨core, a.strand, a.slot⟩ fun l =>
        if l.wait = .log a.id then { l with wait := .none } else l
      match f with
      | some x => s1.post (.faultService ⟨core, x.addr.setWidth 56, a.faultKind, .access a.id⟩)
      | none => s1
    else
      (s.setAccess core { a with step := .logWait, fault := f }).modSlot ⟨core, a.strand, a.slot⟩ fun l =>
        match l.wait with
        | .engine _ => l
        | _ => if a.pushed.isSome then l else { l with wait := .log a.id }

-- bytes of a line

/-- The mask of `n` bytes at an offset of a line. -/
def byteMask (off n : Nat) : BitVec 128 := BitVec.ofNat 128 ((2 ^ n - 1) * 2 ^ off)
/-- A value placed at a byte offset of a line. -/
def atByte (off v : Nat) : BitVec 1024 := BitVec.ofNat 1024 (v * 2 ^ (8 * off))
/-- `n` bytes of a line from an offset. -/
def lineBytes (d : BitVec 1024) (off n : Nat) : Nat := d.toNat / 2 ^ (8 * off) % 2 ^ (8 * n)
/-- Every byte of a mask widened to eight bits. -/
def spreadMask (m : BitVec 128) : BitVec 1024 :=
  BitVec.ofNat 1024 ((List.range 128).foldl (fun n i => if m.getLsbD i then n + 255 * 2 ^ (8 * i) else n) 0)
/-- Bytes of `d` replaced by those of `x` that the mask selects. -/
def mergeLine (d x : BitVec 1024) (m : BitVec 128) : BitVec 1024 :=
  let k := spreadMask m
  (d &&& ~~~k) ||| (x &&& k)

/-- R241: what the store buffer holds of a line: the mask of bytes and their youngest values. -/
def Core.buffered (k : Core) (line : Nat) : BitVec 128 × BitVec 1024 :=
  (k.sb.filter fun e => e.2.line == line).foldl (fun (m, d) e => (m ||| e.2.mask, mergeLine d e.2.data e.2.mask)) (0, 0)

/-- R270: an L1 copy of a line. -/
def Core.copy (k : Core) (line : Nat) : Option L1Line := k.l1.find? (·.line == line)
def Core.dropLine (k : Core) (line : Nat) : Core := { k with l1 := k.l1.filter (·.line != line) }
/-- R19: lines of 128 bytes that an L1 of 512 KiB holds. -/
def l1Lines : Nat := 4096
/-- A line filled into L1, first, or, with .STREAM, last. A full L1 loses its last line (R244, log entry 105). -/
def Core.fillLine (k : Core) (stream : Bool) (l : L1Line) : Core :=
  let rest := (k.l1.filter (·.line != l.line)).take (l1Lines - 1)
  { k with l1 := if stream then rest ++ [l] else l :: rest }
/-- R233: a line found under another virtual tag is tagged anew. -/
def Core.retag (k : Core) (line root va : Nat) (pte : Dword) : Core :=
  { k with l1 := k.l1.map fun l => if l.line = line then { l with root := root, va := va, pte := pte } else l }

-- transactions (R252, R253)

/-- A lane of the access is a member of the strand's open transaction that has not failed. -/
def Strand.txnLane (st : Strand) (a : Access) (lane : Nat) : Bool :=
  a.txn && st.txn.any fun t => t.members.getLsbD lane && (t.lanes[lane]?).any fun l => l.code == 0

def Strand.modTxnLane (st : Strand) (lane : Nat) (f : TxnLane → TxnLane) : Strand :=
  { st with txn := st.txn.map fun t =>
      { t with lanes := t.lanes.setIfInBounds lane (f (t.lanes[lane]?.getD ⟨[], [], 0⟩)) } }

/-- R253: a member lane fails and its stores are discarded. -/
def Strand.failLane (st : Strand) (lane : Nat) (code : BitVec 2) : Strand :=
  st.modTxnLane lane fun l => if l.code = 0 then { l with code := code, writes := [] } else l

/-- R253: the lines read, and the lines written, over all members: the lanes' own lines are added up, so that a line of two lanes counts
twice, and what a failed lane has read still counts (DESIGN CHOICE, log entry 128). -/
def Txn.readCount (t : Txn) : Nat := laneList.foldl (fun n i => n + t.lanes[i].reads.length) 0
def Txn.writeCount (t : Txn) : Nat := laneList.foldl (fun n i => n + t.lanes[i].writes.length) 0

/-- R252, R253: a line put in a lane's read set, its wts to come, or a capacity failure. -/
def Strand.txnReserve (st : Strand) (lane line : Nat) : Strand :=
  match st.txn with
  | none => st
  | some t =>
    let l := t.lanes[lane]?.getD ⟨[], [], 0⟩
    if l.reads.any (·.1 == line) then st
    else if 8 ≤ l.reads.length ∨ 64 ≤ t.readCount then st.failLane lane 2
    else st.modTxnLane lane fun l => { l with reads := l.reads ++ [(line, none)] }

/-- R252: the wts of a line of the read set, as the first load of it returns it. -/
def Strand.txnRead (st : Strand) (lane line wts : Nat) : Strand :=
  st.modTxnLane lane fun l => { l with reads := l.reads.map fun r => if r.1 = line ∧ r.2 = none then (line, some wts) else r }

/-- R252, R253: the lanes of a load that are members enter the lines that they read, from the lowest lane up; a line that is not
a local TS line fails its lane. -/
def Strand.txnLoads (st : Strand) (core : Nat) (a : Access) : Strand :=
  a.parts.foldl (fun st q =>
    match q.place with
    | .global line =>
      if !st.txnLane a q.lane then st
      else if modeOf core q.pte q.pa != .ts then st.failLane q.lane 3
      else st.txnReserve q.lane line
    | _ => st) st

/-- A lane of the access is a member of the open transaction that has failed: its stores are discarded (R253). -/
def Strand.txnLost (st : Strand) (a : Access) (lane : Nat) : Bool :=
  a.txn && !st.txnLane a lane && st.txn.any fun t => t.members.getLsbD lane

/-- R252, R253: a transactional write put in the lane's write set, or a capacity failure. -/
def Strand.txnWrite (st : Strand) (lane line : Nat) (m : BitVec 128) (d : BitVec 1024) : Strand :=
  match st.txn with
  | none => st
  | some t =>
    let l := t.lanes[lane]?.getD ⟨[], [], 0⟩
    match l.writes.find? (·.1 == line) with
    | some (_, m0, d0) =>
      st.modTxnLane lane fun l =>
        { l with writes := l.writes.map fun x => if x.1 = line then (line, m0 ||| m, mergeLine d0 d m) else x }
    | none =>
      if 4 ≤ l.writes.length ∨ 32 ≤ t.writeCount then st.failLane lane 2
      else st.modTxnLane lane fun l => { l with writes := l.writes ++ [(line, m, d)] }

/-- The lane's own buffered bytes of a line (R252). -/
def Strand.txnOwn (st : Strand) (lane line : Nat) : BitVec 128 × BitVec 1024 :=
  match st.txn with
  | none => (0, 0)
  | some t =>
    match ((t.lanes[lane]?).map TxnLane.writes).bind (·.find? (·.1 == line)) with
    | some (_, m, d) => (m, d)
    | none => (0, 0)

-- the parts of an access

def Access.modPart (a : Access) (lane : Nat) (f : LanePart → LanePart) : Access :=
  { a with parts := a.parts.map fun q => if q.lane = lane then f q else q }

/-- The tag of the granule of a physical address among the tags of its line. -/
def lineTagAt (tags : BitVec 16) (pa : Nat) : BitVec 4 := tags.extractLsb' (4 * (pa % 128 / 32)) 4

/-- R256: the pointer's tag differs from that of its granule in the line's tags. -/
def LanePart.strays (q : LanePart) (tags : BitVec 16) : Bool := pteTag q.pte && lineTagAt tags q.pa != q.addr.extractLsb' 56 4

/-- A lane's data have come: the bytes of its line, poisoned or not, with the line's tags, which are compared here (R235, R256);
none where the store buffer served the lane. -/
def Access.gotLine (a : Access) (lane : Nat) (d : BitVec 1024) (psn : BitVec 4) (covered : BitVec 128)
    (tags : Option (BitVec 16)) : Access :=
  a.modPart lane fun q =>
    let off := q.pa % 128
    if a.kind = .tagLoad then
      { q with step := .done, old := if pteTag q.pte then (lineTagAt (tags.getD 0) q.pa).toNat else 0 }
    else
      { q with
        step := .done
        mistag := tags.any q.strays
        old := if regWidthOk q.pa a.size then lineBytes d off a.size else 0
        poisoned := (List.range a.size).any fun i =>
          !covered.getLsbD (off + i) && psn.getLsbD ((off + i) / 32) }

/-- The value that a load writes in a lane (R243). -/
def Access.value (a : Access) (q : LanePart) : Nat :=
  match a.form with
  | .sext => ((BitVec.ofNat (8 * a.size) q.old).signExtend 64).toNat
  | _ => q.old

def Access.laneValue (a : Access) (i : Fin 32) : Nat :=
  match a.parts.find? (·.lane == i.val) with
  | some q => a.value q
  | none => 0

/-- Where the slot that issued the access stands. -/
def Access.home (a : Access) : SlotHome :=
  match a.pushed with
  | some k => .pushed k
  | none => .live a.slot

/-- What the write-back of a completed access writes (R243, R245, R248). -/
def Access.result (a : Access) : Result :=
  match a.dst with
  | none => .nothing
  | some d =>
    if d.spec = zr then .nothing
    else match d.kind with
      | .uni => .uniform d.spec a.home (BitVec.ofNat 64 (a.laneValue 0))
      | .l64 => .pairs d.spec.toNat a.m0 (tab fun i => BitVec.ofNat 64 (a.laneValue i))
      | .l128 => .quads d.spec.toNat a.m0 (tab fun i => BitVec.ofNat 128 (a.laneValue i))
      | _ => .lanes d.spec.toNat a.m0 (tab fun i => BitVec.ofNat 32 (a.laneValue i))

/-- The mask of the lanes for which `f` holds. -/
def Access.maskWhere (a : Access) (f : LanePart → Bool) : Word :=
  if a.uniform then 0 else a.parts.foldl (fun m q => if f q then m ||| (1#32 <<< q.lane) else m) 0

/-- R236: the fault record of the lanes for which `f` holds. -/
def Access.faultOf (a : Access) (c : Cause) (f : LanePart → Bool) : AccFault :=
  let m := a.maskWhere f
  ⟨c, m, lowLane m, ((a.parts.find? f).map LanePart.addr).getD 0⟩

/-- An access whose lanes are all done settles: a tag that does not match and poison fault (R256, R286), a load or atomic goes to
write-back. -/
def State.finishAccess (s : State) (core : Nat) (a : Access) : State :=
  if !a.parts.all (fun q => q.step == .done) then s
  else if a.kind.reads && a.parts.any LanePart.mistag then
    s.failAccess core a (a.faultOf .tagMismatch LanePart.mistag)
  else if a.kind.reads && a.parts.any LanePart.poisoned then
    s.failAccess core a (a.faultOf .poisonConsumed LanePart.poisoned)
  else
    let s1 := s.dropAccess core a.id
    if a.kind.reads then s1.produce ⟨core, a.strand, a.slot⟩ (marksOf a.dst) a.result none else s1

-- atomics (R247)

/-- R247: the new value of an atomic step on `w`-bit values; none where nothing is written. -/
def atomNew {w : Nat} (fn : Nat) (old x y : BitVec w) : Option (BitVec w) :=
  match fn with
  | 0 => some (old + x)
  | 1 => some (old &&& x)
  | 2 => some (old ||| x)
  | 3 => some (old ^^^ x)
  | 4 => some (minS old x)
  | 5 => some (maxS old x)
  | 6 => some (minU old x)
  | 7 => some (maxU old x)
  | 8 => some x
  | 9 => if old = y then some x else none
  | 10 => some (BitVec.ofNat w (fAdd f32 (old.toNat % 2 ^ 32) (x.toNat % 2 ^ 32)))
  | 11 => some (BitVec.ofNat w (fAdd b16 (old.toNat % 65536) (x.toNat % 65536)
      + 65536 * fAdd b16 (old.toNat / 65536 % 65536) (x.toNat / 65536 % 65536)))
  | 12 => if y.toNat ≤ old.toNat then some 0 else some (old + 1)
  | 13 => if old = 0 ∨ y.toNat < old.toNat then some y else some (old - 1)
  | _ => none

/-- The same at 4 or 8 bytes, on numbers. -/
def atomStep (fn : BitVec 6) (wide : Bool) (old x y : Nat) : Option Nat :=
  if wide then (atomNew (w := 64) fn.toNat (BitVec.ofNat 64 old) (BitVec.ofNat 64 x) (BitVec.ofNat 64 y)).map BitVec.toNat
  else (atomNew (w := 32) fn.toNat (BitVec.ofNat 32 old) (BitVec.ofNat 32 x) (BitVec.ofNat 32 y)).map BitVec.toNat

-- scratchpad accesses (R242: performed at the port in issue order)

/-- A granule of 32 bytes of scratchpad is poisoned. -/
def Party.scratchPoison (p : Party) (off n : Nat) : Bool :=
  sget false p.spoison (off / 32) || sget false p.spoison ((off + n - 1) / 32)

/-- R286: granules that stores of `size` bytes at some offsets fill become clean. -/
def Party.cleanGranules (p : Party) (size : Nat) (offs : List Nat) : Party :=
  let covers (u : Nat) : Bool := (List.range 32).all fun b => offs.any fun o => o ≤ 32 * u + b && 32 * u + b < o + size
  (offs.map (· / 32)).foldl (fun p u =>
    if covers u then { p with spoison := sput false p.spoison u false } else p) p

/-- One lane at the scratchpad port. -/
def Party.scratchLane (p : Party) (a : Access) (q : LanePart) : Party × LanePart :=
  let off := q.addr.toNat
  match a.kind with
  | .load =>
    (p, { q with step := .done, old := p.readScratch off a.size, poisoned := p.scratchPoison off a.size })
  | .atomic =>
    let old := p.readScratch off a.size
    if p.scratchPoison off a.size then (p, { q with step := .done, old := old, poisoned := true })
    else
      let p1 := match atomStep a.fn (a.size == 8) old q.x q.y with
        | some v => p.writeScratch off a.size v
        | none => p
      (p1, { q with step := .done, old := old })
  | _ => (p.writeScratch off a.size q.x, { q with step := .done })

/-- All lanes of a local access, in ascending lane order. -/
def Party.scratchLanes (p : Party) (a : Access) : Party × List LanePart :=
  let (p1, out) := a.parts.foldl (fun (acc : Party × List LanePart) q =>
    let (p1, q1) := acc.1.scratchLane a q
    (p1, acc.2 ++ [q1])) (p, [])
  (if a.kind = .store then p1.cleanGranules a.size (a.parts.map fun q => q.addr.toNat) else p1, out)

-- sending (R240, R241, R269-R273)

/-- A response or request between a core and the home of a line. -/
def State.toHome (s : State) (core line : Nat) (ev : Instr) : State := s.send (dieOfCore core) (homeDie (lineAddr line)) ev
def State.fromHome (s : State) (core line : Nat) (ev : Instr) : State := s.send (homeDie (lineAddr line)) (dieOfCore core) ev

/-- R233: a store finds the line resident under another tag: it is re-tagged, or leaves L1 where the two names reach it in different
ways (R279). -/
def Core.retagStore (k : Core) (core : Nat) (e : SbEntry) : Core :=
  let r := lineAddr e.line
  match k.copy e.line with
  | some l => if modeOf core l.pte r = modeOf core e.pte r then k.retag e.line e.root e.va e.pte else k.dropLine e.line
  | none => k

/-- A store to one line enters the store buffer and will drain (R241). -/
def State.bufferStore (s : State) (core : Nat) (e : SbEntry) : State :=
  ((s.modCore core fun k => { k.retagStore core e with sb := k.sb ++ [(s.nextId, e)] }).post (.storeDrain ⟨core, s.nextId⟩)).bump

/-- R275: a fresh load of a local TS line raises the clock past its copy's lease. -/
def State.freshClock (s : State) (core line : Nat) (fresh : Bool) : State :=
  match ((s.core core).copy line).filter fun _ => fresh with
  | some l => s.foldPts core (l.rts + 1)
  | none => s

/-- A read of a line asked of its home for every lane that waits on it; `named` is the version of the core's copy. -/
def State.askLine (s : State) (core : Nat) (a : Access) (line : Nat) (mode : LineMode) (pts : Nat) (named : Option Nat) :
    State × Access :=
  (s.toHome core line (.readRequest ⟨core, a.id, line, mode, pts, named, none⟩),
    { a with parts := a.parts.map fun r => if r.step = .waiting ∧ r.place = .global line then { r with step := .sent } else r })

/-- One line of a load: forwarded from the store buffer, hit in L1 or in the package's L2 copy, or asked of the home.
The lanes on the line that wait are served together. -/
def State.loadLine (s0 : State) (core : Nat) (a : Access) (q : LanePart) (line : Nat) : State × Access :=
  match s0.party? core with
  | none => (s0, a)
  | some p =>
    let st := p.strand a.strand
    let mode := modeOf core q.pte q.pa
    let s := s0.freshClock core line (a.policy == 2 && mode == .ts)
    let k := s.core core
    let (bm, bd) := k.buffered line
    let txn := st.txnLane a q.lane
    let (om, od) := if txn then st.txnOwn q.lane line else (0, 0)
    let off := q.pa % 128
    let need := if a.kind = .tagLoad then 0 else byteMask off a.size
    let ovr := mergeLine bd od om
    let have_ := bm ||| om
    if a.kind = .load && !txn && need &&& have_ == need then
      (s, a.gotLine q.lane ovr 0 have_ none)
    else if a.kind = .tagLoad && (k.bufferedTags line).1.getLsbD (off / 32) then
      (s, a.gotLine q.lane 0 0 0 (some (k.bufferedTags line).2))
    else if need &&& bm != 0 then (s, a)
    else
      match k.copy line with
      | some l =>
        if usableCopy k.pts mode a.policy l then
          -- R233; not under a translation that has ended (R234)
          let s1 := if a.noFill then s else s.modCore core (·.retag line p.root (q.va / 128) q.pte)
          let s2 := if mode = .ts then s1.foldPts core l.wts else s1
          let s3 := if txn then s2.modStrand ⟨core, a.strand, a.slot⟩ (·.txnRead q.lane line l.wts) else s2
          (s3, a.gotLine q.lane (mergeLine l.data ovr have_) l.poison have_ (some (k.tagsOver line l.tags)))
        else if mode = .ts then s.askLine core a line mode k.pts (some l.wts)
        -- R244: a fresh SI load drops the copy
        else (s.modCore core (·.dropLine line)).askLine core a line mode 0 none
      | none =>
        match s.packageCopy core line mode a.policy with
        | some c => (s, a.gotLine q.lane (mergeLine c.data ovr have_) c.poison have_ (some (k.tagsOver line c.tags)))
        | none => s.askLine core a line mode (if remoteTo core q.pa then 0 else k.pts) none

/-- The home of a part of an access lies on another die than the core's. -/
def LanePart.offDie (q : LanePart) (core : Nat) : Bool :=
  match q.place with
  | .global line => homeDie (lineAddr line) != dieOfCore core
  | _ => false

/-- R440: a lane whose home is on another die leaves after the lower lanes of that kind, one in a cycle; R248: at a home on the core's
own die the lanes on one line go one after the other. -/
def Access.atomWaits (a : Access) (core now : Nat) (q : LanePart) (line : Nat) : Bool :=
  if q.offDie core then
    a.sentAt == some now || a.parts.any fun r => decide (r.lane < q.lane) && r.step == .waiting && r.offDie core
  else a.parts.any fun r => r.place == .global line && r.step == .sent

/-- One lane of an atomic sent to its home in its turn, and after the party's buffered stores to its line (R242). The core drops its
L1 copy (R272). -/
def State.atomLane (s : State) (core : Nat) (a : Access) (q : LanePart) (line : Nat) : State × Access :=
  let (bm, _) := (s.core core).buffered line
  if a.atomWaits core s.now q line || bm != 0 || ((s.core core).bufferedTags line).1 != 0 then (s, a)
  else
    let s1 := s.modCore core (·.dropLine line)
    let pts := if remoteTo core q.pa then 0 else (s.core core).pts
    (s1.toHome core line (.atomicRequest ⟨core, a.id, q.lane, q.pa, a.fn, a.size == 8,
      BitVec.ofNat 64 q.x, BitVec.ofNat 64 q.y, pts⟩),
      { a.modPart q.lane fun r => { r with step := .sent } with sentAt := if q.offDie core then some s.now else a.sentAt })

/-- The lanes of a store gathered by line, the higher lane's bytes over the lower's (R240). -/
def Access.storeLines (a : Access) (keep : LanePart → Bool) : List (Nat × SbEntry) :=
  a.parts.foldl (fun acc q =>
    match q.place with
    | .global line =>
      if !keep q || !regWidthOk q.pa a.size then acc
      else
        let off := q.pa % 128
        let tag := a.kind == .tagStore
        let g := off / 32
        let e : SbEntry := ⟨a.strand, a.id, 0, q.va / 128, line, q.pte,
          if tag then 0 else byteMask off a.size, if tag then 0 else atByte off (q.x % 2 ^ (8 * a.size)),
          if tag then 1#4 <<< g else 0, if tag then (BitVec.ofNat 16 (q.x % 16)) <<< (4 * g) else 0, false, false, []⟩
        match kget acc line with
        | none => acc ++ [(line, e)]
        | some f => acc.map fun x => if x.1 = line then
            (line, { f with
              mask := f.mask ||| e.mask
              data := mergeLine f.data e.data e.mask
              tagMask := f.tagMask ||| e.tagMask
              tags := (f.tags &&& ~~~(if tag then 15#16 <<< (4 * g) else 0)) ||| e.tags }) else x
    | _ => acc) []

/-- The lanes of a checked store on global memory go to their write sets or to the store buffer. -/
def State.storeGlobal (s : State) (core : Nat) (p : Party) (a : Access) : State :=
  let st := p.strand a.strand
  let w : SlotRef := ⟨core, a.strand, a.slot⟩
  let s1 := a.parts.foldl (fun s q =>
    match q.place with
    | .global line =>
      if st.txnLane a q.lane then
        if modeOf core q.pte q.pa != .ts then s.modStrand w (·.failLane q.lane 3)
        else s.modStrand w (·.txnWrite q.lane line (byteMask (q.pa % 128) a.size) (atByte (q.pa % 128) (q.x % 2 ^ (8 * a.size))))
      else s
    | _ => s) s
  (a.storeLines fun q => !st.txnLane a q.lane && !st.txnLost a q.lane).foldl (fun s (line, e) =>
    let s := if a.policy = 1 then s.modCore core (·.dropLine line) else s
    s.bufferStore core { e with remote := remoteTo core (lineAddr line), root := p.root }) s1

def LanePart.isBacked (q : LanePart) : Bool := match q.place with | .coreBacked _ _ => true | _ => false

/-- R240: the lane stands for the lanes of its load or store in one 128 bytes of a named core's scratchpad; each lane of an atomic stands
for itself. -/
def Access.leads (a : Access) (q : LanePart) : Bool :=
  a.kind == .atomic || !(a.parts.takeWhile fun r => r.lane != q.lane).any fun r => match r.place, q.place with
    | .coreBacked c x, .coreBacked d y => c == d && x / 128 == y / 128
    | _, _ => false

/-- A checked store is performed, and has settled (R237). One with lanes on core-backed pages goes to the named cores first, where
every lane is checked before any is performed (R236). -/
def State.performStore (s : State) (core : Nat) (a : Access) : State :=
  match s.party? core with
  | none => s
  | some p =>
    if !a.parts.any LanePart.isBacked then (s.storeGlobal core p a).dropAccess core a.id
    else
      let s1 := a.parts.foldl (fun s q => match q.place with
        | .coreBacked c off =>
          if a.leads q then
            s.send (dieOfCore core) (dieOfCore c) (.coreBackedAccess ⟨core, a.id, q.lane, c, off, a.size, some q.x, false⟩)
          else s
        | _ => s) s
      s1.setAccess core { a with step := .active, parts := a.parts.map fun q => { q with step := if q.isBacked then .sent else .waiting } }

/-- A checked load or atomic: every lane that waits is served, forwarded or sent. -/
def State.sendLanes (s : State) (core : Nat) (a : Access) : State :=
  let (s1, a1) := a.parts.foldl (fun (acc : State × Access) q0 =>
    let (s, a) := acc
    match a.parts.find? (·.lane == q0.lane) with
    | none => acc
    | some q =>
      if q.step != .waiting then acc
      else match q.place with
        | .scratch _ => acc
        | .global line => if a.kind = .atomic then s.atomLane core a q line else s.loadLine core a q line
        | .coreBacked c off =>
          let busy := a.kind == .atomic && a.parts.any fun r => r.place == q.place && r.step == .sent
          if busy then acc
          else
            let ev : Instr := .coreBackedAccess ⟨core, a.id, q.lane, c, off, a.size, if a.kind = .atomic then some q.x else none,
              a.kind == .atomic⟩
            (if a.leads q then s.send (dieOfCore core) (dieOfCore c) ev else s,
             a.modPart q.lane fun r => { r with step := .sent })) (s, a)
  (s1.setAccess core a1).finishAccess core a1

/-- Two places, of `n` and `m` bytes, as a core sees them, that one line or one byte of a scratchpad joins (R242). -/
def Place.clash (core : Nat) (x : Place) (n : Nat) (y : Place) (m : Nat) : Bool :=
  match x, y with
  | .coreBacked c a, .coreBacked d b => c == d && meets a n b m
  | .coreBacked c a, .scratch b => c == core && meets a n b m
  | .scratch a, .coreBacked d b => d == core && meets a n b m
  | _, _ => x == y

/-- R242: an older access of the strand still has a lane at one of these places. -/
def Party.lineBusy (p : Party) (core : Nat) (a : Access) : Bool :=
  let older := p.accesses.takeWhile (·.id != a.id)
  older.any fun b => b.strand == a.strand && b.step == .active && b.parts.any fun r =>
    r.step != .done && a.parts.any fun q => q.place.clash core a.size r.place b.size

/-- R242: an older access of the strand still has a lane in a line of a range of global memory. -/
def Party.rangeBusy (p : Party) (a : Access) (r n : Nat) : Bool :=
  (p.accesses.takeWhile (·.id != a.id)).any fun b => b.strand == a.strand && b.step == .active && b.parts.any fun q =>
    q.step != .done && (match q.place with
      | .global line => meets (lineAddr line) 128 r n
      | _ => false)

/-- Pages of 64 KiB that a part of an access touches, the first and the last; TAGFILL touches those of its whole range. -/
def Access.pageSpan (a : Access) (q : LanePart) : Nat × Nat :=
  let va := q.addr.toNat % 2 ^ 56
  (va / 65536, if a.kind = .tagFill then (va + q.x - 1) / 65536 else va / 65536)

/-- R145: two accesses touch one page. -/
def Access.samePage (a b : Access) : Bool :=
  a.parts.any fun q => b.parts.any fun r =>
    (a.pageSpan q).1 ≤ (b.pageSpan r).2 && (b.pageSpan r).1 ≤ (a.pageSpan q).2

/-- R145: an access touches a page of one of the strand's logged entries. -/
def Party.inLog (p : Party) (a : Access) : Bool :=
  p.accesses.any fun b => b.strand == a.strand && b.step == .logged && a.samePage b
/-- The same, of the entries before it. -/
def Party.inLogBefore (p : Party) (a : Access) : Bool :=
  (p.accesses.takeWhile (·.id != a.id)).any fun b => b.strand == a.strand && b.step == .logged && a.samePage b

/-- R22: misses of a cluster that may be outstanding. -/
def clusterMisses : Nat := 64

/-- R232: another miss of the cluster may be served now. -/
def State.missRoom (s : State) (cluster : Nat) : Bool := (s.walks.filter fun q => q.cluster == cluster).length < clusterMisses

/-- R232: a walk asked for, once per page of a cluster. -/
def State.askWalk (s : State) (core root va : Nat) (write : Bool) : State :=
  let c := clusterOfCore core
  let page := s.missPage c root va
  if (s.walks.any fun o => o.cluster == c && o.root == root && o.va.toNat == page) || !s.missRoom c then s
  else
    let o : WalkReq := ⟨c, root, BitVec.ofNat 56 page, write⟩
    { s with walks := s.walks ++ [o] }.post (.pageWalk o)

/-- R228, R232: an access at an address misses in a cluster's TLB: no entry, or a store that the leaf permits to a page whose D bit is
clear. -/
def State.needsMiss (s : State) (cluster root va : Nat) (write priv : Bool) : Bool :=
  match s.tlbFind cluster root va with
  | some t => write && !pteD t.pte && pteW t.pte && (!pteP t.pte || priv)
  | none => true

/-- R228, R232: the misses of an access served at once, one after the other: the walk, and D for a store. The fault of a walk. -/
def State.serveAll (s : State) (cluster root va : Nat) (write priv : Bool) : Nat → State × Option Cause
  | 0 => (s, none)
  | n + 1 =>
    if !s.needsMiss cluster root va write priv then (s, none)
    else match s.serveMiss cluster root va write with
      | (s1, none) => s1.serveAll cluster root va write priv n
      | r => r

/-- R228, R284: a commit holds a line in which an entry of the miss lies. -/
def State.missHeld (s : State) (cluster root va : Nat) : Bool :=
  s.pathLocked root va 3 || (s.tlbFind cluster root va).any fun t => s.locked (lineOf t.home)

/-- R22, R284: the miss of an address, if it is one, cannot be served now. -/
def State.missWaits (s : State) (cluster root va : Nat) (write priv : Bool) : Bool :=
  s.needsMiss cluster root va write priv && (!s.missRoom cluster || s.missHeld cluster root va)

/-- The walks that some pointers need, made at once; what fails stands in walkFails until the caller has looked. -/
def State.preWalk (s : State) (core root : Nat) (write priv : Bool) (ptrs : List Dword) : State :=
  let c := clusterOfCore core
  ptrs.foldl (fun (s : State) (ptr : Dword) =>
    let va := ptr.toNat % 2 ^ 56
    let need := match s.translate core root va with
      | none => true
      | some _ => write && s.needsMiss c root va write priv
    if ptr.extractLsb' 60 4 ≠ 0 ∨ need = false ∨ (!s.missRoom c || s.missHeld c root va) = true then s
    else
      match s.serveAll c root va write priv 3 with
      | (s1, none) => s1
      | (s, some f) => { s with walkFails := ⟨c, root, va / 65536, write, f⟩ :: s.walkFails }) s

/-- R22, R284: of some pointers one still needs a walk that has to wait. -/
def State.lanesWait (s : State) (core root : Nat) (write priv : Bool) (ptrs : List Dword) : Bool :=
  let c := clusterOfCore core
  ptrs.any fun ptr =>
    let va := ptr.toNat % 2 ^ 56
    ptr.extractLsb' 60 4 == 0 && s.missWaits c root va write priv
      && !s.walkFails.any fun w => w.cluster == c && w.root == root && w.page == va / 65536

/-- The earliest cause among the lanes (R236). -/
def worst (vs : List (LanePart × Verdict)) : Option (Nat × Cause) :=
  vs.foldl (fun acc v =>
    match v.2 with
    | .bad n c => (match acc with | none => some (n, c) | some (m, d) => if n < m then some (n, c) else some (m, d))
    | _ => acc) none

/-- A read of a line that the core's copy or its package's copy serves. -/
def State.copyServes (s : State) (core line : Nat) (mode : LineMode) (policy : BitVec 2) : Bool :=
  let k := s.core core
  (k.copy line).any (usableCopy k.pts mode policy) || (s.packageCopy core line mode policy).isSome

/-- R263: a load that the core's own copies and buffered stores serve does not reach the home. -/
def State.servedAtCore (s : State) (core : Nat) (a : Access) (q : LanePart) (line : Nat) : Bool :=
  let need := byteMask (q.pa % 128) a.size
  (a.kind == .load || a.kind == .tagLoad)
    && (s.copyServes core line (modeOf core q.pte q.pa) a.policy
      || (a.kind == .load && need &&& ((s.core core).buffered line).1 == need))

/-- The watchpoints that the checked lanes of an access meet (R262-R264). -/
def State.watchLanes (s : State) (core : Nat) (a : Access) (qs : List LanePart) : State :=
  let runs := qs.filterMap fun q => match q.place with
    | .global line => if s.servedAtCore core a q line then none else some (q.pa, a.bytesAt q)
    | _ => none
  (s.modParty core (·.watchParty core a qs)).watchHome core a.strand core a.id a.kind false runs

/-- R235-R238: an access that has not been performed is translated and checked, and then performed, logged or
failed. -/
def State.attempt (s : State) (core : Nat) (a : Access) : State :=
  match s.party? core with
  | none => s
  | some p =>
    if !a.loc && p.inLogBefore a then s.logAccess core a none
    else
      let vs := a.parts.map fun q => (q, s.laneChecks core p a q)
      let waits := vs.filter fun v => match v.2 with | .wait _ => true | _ => false
      match worst vs with
      | some (n, c) =>
        if !waits.isEmpty && 4 ≤ n then waits.foldl (fun s v => s.askWalk core p.root (v.1.addr.toNat % 2 ^ 56) a.kind.writes) s
        else
          let isBad (q : LanePart) : Bool := vs.any fun v => v.1.lane == q.lane && v.2 == .bad n c
          if c = .pageNotPresent then
            s.logAccess core a (some (a.faultOf c isBad))
          else s.failAccess core a (a.faultOf c isBad)
      | none =>
        if !waits.isEmpty then waits.foldl (fun s v => s.askWalk core p.root (v.1.addr.toNat % 2 ^ 56) a.kind.writes) s
        else
          let a1 := { a with parts := vs.map fun v => match v.2 with | .ok q => q | _ => v.1 }
          if p.lineBusy core a1 then s
          else if a.loc then
            let (p1, parts) := p.scratchLanes a1
            let a2 := { a1 with parts := parts, step := .active }
            ((s.setParty core p1).setAccess core a2).finishAccess core a2
          else
            let s1 := s.watchLanes core a1 a1.parts
            if a.kind.reads then
              let s2 := if a.txn then s1.modParty core (·.modStrand a.strand (·.txnLoads core a1)) else s1
              (s2.setAccess core { a1 with step := .active }).sendLanes core { a1 with step := .active }
            else s1.performStore core a1

-- TAGFILL (R258): a page at a time

/-- The tag stores of TAGFILL from its next granule to the end of the page or of the range. -/
def State.fillPage (s : State) (core : Nat) (a : Access) : State :=
  match s.party? core, a.parts with
  | some p, q :: _ =>
    let left := q.x
    let whole : List LanePart :=
      [{ q with addr := (a.pl2[0]).setWidth 64, x := (a.pl3[0]).toNat }]
    if q.addr.toNat % 32 ≠ 0 ∨ left % 32 ≠ 0 then s.failAccess core a ⟨.misalignedAccess, 0, none, q.addr⟩
    else if left = 0 then s.dropAccess core a.id
    else if p.inLogBefore a then s.logAccess core { a with parts := whole } none
    else
      match s.laneChecks core p a q with
      | .wait w => s.askWalk core p.root (q.addr.toNat % 2 ^ 56) w
      | .bad _ c =>
        if c = .pageNotPresent then s.logAccess core { a with parts := whole } (some ⟨c, 0, none, q.addr⟩)
        else s.failAccess core a ⟨c, 0, none, q.addr⟩
      | .ok r =>
        let n := a.bytesAt q
        let here := { a with parts := [r] }
        if p.rangeBusy a r.pa n then s
        else
        let s := s.watchLanes core here [r]
        let tag : BitVec 16 := BitVec.ofNat 16 (q.y % 16)
        let s1 := (List.range (n / 32)).foldl (fun s i =>
          let g := r.pa / 32 + i
          let e : SbEntry := ⟨a.strand, a.id, p.root, (r.va + 32 * i) / 128, g / 4, r.pte, 0, 0, 1#4 <<< (g % 4), tag <<< (4 * (g % 4)), false,
            remoteTo core r.pa, []⟩
          s.bufferStore core e) s
        let next := { q with addr := q.addr + BitVec.ofNat 64 n, x := left - n }
        if left = n then s1.dropAccess core a.id else s1.setAccess core { a with parts := [next] }
  | _, _ => s

-- the pump: every access of a core that can move on does so

/-- R144: an entry of the log whose page has been served, or that went behind an older one, is replayed once the entries before it
are gone. A party that halts keeps its log as it is (R147, R508). -/
def Party.replays (p : Party) (a : Access) : Bool :=
  a.fault.isNone && p.status != .halting
    && !((p.accesses.takeWhile (·.id != a.id)).any fun b => b.strand == a.strand && b.inPlace)

def State.replay (s : State) (core id : Nat) : State :=
  match s.party? core with
  | none => s
  | some p =>
    match p.access? id with
    | some a => if a.step = .logged ∧ p.replays a = true then s.setAccess core { a with step := .attempt } else s
    | none => s

/-- One access tries to move on. A strand's accesses to global memory are attempted in issue order; those of the party's strands to
scratchpad are performed in issue order (R242). -/
def State.progress (s : State) (core id : Nat) : State :=
  match s.party? core with
  | none => s
  | some p =>
    match p.access? id with
    | none => s
    | some a =>
      let paused := (s.pkg (pkgOfCore core)).paused && !a.loc
      -- R242: what a strand issues after a TCOMMIT follows its commit
      let commits := !a.loc && (p.strand a.strand).txn.any fun t => t.commit.isSome
      let older := p.accesses.takeWhile (·.id != id)
      let blocked :=
        if a.loc then older.any fun b => b.loc && b.step == .attempt
        else paused || commits || older.any fun b => b.strand == a.strand && (b.step == .attempt || b.step == .logWait)
      match a.step with
      | .attempt =>
        if blocked ∨ a.kind = .command ∨ a.kind = .group then s
        else if a.kind = .tagFill then s.fillPage core a
        else s.attempt core a
      | .active => if a.kind.reads && !paused then s.sendLanes core a else s
      | .logWait => s.logAccess core a a.fault
      | _ => s

-- fences (R250, R277-R279)

/-- R290, R292: the reads of a package's cores whose responses are on their way, and which `f` names, leave no copy: what they bring may
be older than what has been read or written since. -/
def State.staleReads (s : State) (pkg : Nat) (f : Nat → LanePart → Bool) : State :=
  { s with parties := s.parties.map fun ((c, p) : Nat × Party) =>
      if pkgOfCore c = pkg then
        (c, { p with accesses := p.accesses.map fun (a : Access) =>
          if (a.kind == .load || a.kind == .tagLoad) && a.parts.any (fun q => q.step == .sent && f c q) then { a with noFill := true } else a })
      else (c, p) }

/-- The same for the SI reads of one line. -/
def State.staleLine (s : State) (pkg line : Nat) : State :=
  s.staleReads pkg fun c q => q.place == .global line && modeOf c q.pte q.pa == .si

/-- R278, R279: what an acquire at a cover drops from the issuing core's L1 and its package's L2, with what reads in flight would put
there (R292). -/
def State.acquireDrops (s : State) (core cover : Nat) : State :=
  if cover ≤ 1 then s
  else if cover ≤ 3 then
    let stale (l : L1Line) : Bool := pteCoh l.pte == 1 && inCover cover core (lineAddr l.line)
    (s.modCore core fun k => { k with l1 := k.l1.filter fun l => !stale l }).staleReads (pkgOfCore core) fun c q =>
      c == core && pteCoh q.pte == 1 && inCover cover core q.pa
  else
    let s1 := (s.modCore core fun k => { k with l1 := [] }).staleReads (pkgOfCore core) fun c q => c == core || modeOf c q.pte q.pa == .si
    { s1 with remotes := s1.remotes.filter fun c => c.pkg != pkgOfCore core }

/-- R455, R40: an access that reads: a load, an atomic, an XGET or XAMO, a copy not yet accepted. -/
def Access.isRead (a : Access) : Bool :=
  a.kind.reads || (a.kind == .group && (match a.op with
    | some (.xget _) => true
    | some (.xamo _) => true
    | _ => false))
    || a.kind == .command

/-- R455: an acquire waits for it: an access that reads, or an XRED, an atomic that returns nothing. -/
def Access.acquired (a : Access) : Bool :=
  a.isRead || (match a.op with
    | some (.xred _) => true
    | _ => false)

/-- R288: a core's scratchpad lies in the cover. -/
def coreInCover (cover core c : Nat) : Bool :=
  match cover with
  | 0 | 1 => c == core
  | 2 => dieOfCore c == dieOfCore core
  | 3 => pkgOfCore c == pkgOfCore core
  | 4 => pkgOfCore c / 9 == pkgOfCore core / 9
  | _ => true

/-- R455: a home of the packet's writes lies in the cover. -/
def State.packetIn (s : State) (cover core : Nat) (k : Packet) : Bool :=
  ((k.mem.inScratch || k.count.isSome || k.kind == .mbx || k.kind == .abort) && coreInCover cover core k.mem.core)
    || !k.mem.inScratch && (k.bytes.map Prod.fst ++ k.lanes.map PktLane.off).any fun o => (s.resolve (k.mem.base + o)).any fun r => inCover cover core r

/-- An engine command of the strand still has reads or writes to perform (R40, R250). -/
def Party.cmdBusy (p : Party) (i upTo : Nat) : Bool :=
  p.cmds.any fun c => c.strand == i && !c.seq && c.at_ < upTo
    && c.segs.any fun g => g.step != .landed && g.step != .failed

/-- R250: the fence of a strand is satisfied. -/
def State.fenceDone (s : State) (core i : Nat) (f : FenceWait) : Bool :=
  match s.party? core with
  | none => true
  | some p =>
    let acq := f.kind.getLsbD 0
    let rel := f.kind.getLsbD 1
    let mine (a : Access) : Bool := a.strand == i && a.id < f.upTo
    let engine := f.cmds && p.cmdBusy i f.upTo
    let sent (k : Packet) : Bool := k.core == core && k.grid == p.grid && k.strand == i && k.at_ < f.upTo
    (!acq || (!(p.accesses.any fun a => mine a && a.acquired) && !engine && !(s.packets.any fun k => sent k && k.kind == .red)))
      && (!rel || (!(p.accesses.any mine) && !engine
        && !(s.packets.any fun k => sent k && s.packetIn f.cover core k)
        && !(p.txas.any fun t => t.strand == i && t.id < f.upTo)
        && !((s.core core).sb.any fun (_, e) => e.strand == i && e.acc < f.upTo && inCover f.cover core (lineAddr e.line))))

/-- Fences that are satisfied end, an acquire with its drops. -/
def State.settleFences (s : State) (core : Nat) : State :=
  (List.range 16).foldl (fun s i =>
    match (s.party? core).bind fun p => (p.strand i).fence with
    | none => s
    | some f =>
      if s.fenceDone core i f then
        let s1 := s.modParty core (·.modStrand i fun st => { st with fence := none })
        if f.kind.getLsbD 0 then s1.acquireDrops core f.cover else s1
      else s) s

/-- Every access of the core that can move on does so, then the fences that are satisfied end. -/
def State.pump (s : State) (core : Nat) : State :=
  match s.party? core with
  | none => s
  | some p =>
    ((p.accesses.map Access.id).foldl (fun s id => (s.replay core id).progress core id) s).settleFences core

/-- An access still has to be tried that touches the page of a walk that failed. -/
def State.keepsFail (s : State) (f : WalkFail) : Bool :=
  [0, 1, 2, 3].any fun i => (s.party? (f.cluster * 4 + i)).any fun p => p.root == f.root &&
    p.accesses.any fun a => a.step == .attempt && a.parts.any fun q => q.addr.toNat % 2 ^ 56 / 65536 == f.page

/-- The accesses of every core of a cluster move on after a walk; the faults of walks that no access waits for are then
forgotten. -/
def State.pumpCluster (s : State) (cluster : Nat) : State :=
  let s1 := [0, 1, 2, 3].foldl (fun s i => s.pump (cluster * 4 + i)) s
  { s1 with walkFails := s1.walkFails.filter fun f => f.cluster != cluster || s1.keepsFail f }

-- starting an access

/-- An access issued: it joins its strand's accesses, its destination is marked empty, and it is attempted. -/
def State.startAccess (s : State) (core : Nat) (a : Access) : State :=
  let s1 := s.modParty core fun p =>
    { p.modStrand a.strand (·.setFulls false (marksOf a.dst)) with
      accesses := p.accesses ++ [{ a with id := s.nextId }] }
  s1.bump.pump core

/-- An access that has just issued. -/
def Ctx.access (x : Ctx) (p : Party) (kind : AccKind) (size : Nat) : Access where
  id := 0
  strand := x.w.strand
  slot := x.w.slot
  pc := x.pc
  words := x.words
  m0 := p.active x.w
  uniform := false
  loc := false
  kind := kind
  size := size
  form := .zext
  policy := 0
  fn := 0
  ord := 0
  dst := none
  parts := []
  op := none
  base := 0
  pl1 := splat 0
  pl2 := splat 0
  pl3 := splat 0
  step := .attempt
  txn := false
  fault := none
  ovr := ⟨0, 0⟩
  placed := false
  entry := ⟨0, true, 1, []⟩
  noFill := false
  fixed := false
  pushed := none
  thnd := p.thnd
  sentAt := none

/-- The parts of a lane access: one for each active lane. -/
def laneParts (m : Word) (f : Fin 32 → Dword × Nat × Nat) : List LanePart :=
  (laneList.filter (inMask m)).map fun i =>
    let (addr, x, y) := f i
    ⟨i.val, addr, x, y, 0, 0, .scratch 0, .waiting, 0, false, false⟩

end Sys2Proof.Machine
end

