-- ==== Sys2Proof/Machine/EngineMem.lean ====
section
/-!
DEFINITION. Machine/EngineMem.lean: reads at the homes and the copies that they leave (R229, R270, R279), loads that an
instruction makes at issue (R260, R306, R462), and line operations of the engines, under the checks of R235 (R273, R324).
-/

namespace Sys2Proof.Machine

/-- Who reads: the core, its root table, whether it is privileged, whether its grid is MOVABLE, its grid. -/
structure Reader where
  core : Nat
  root : Nat
  priv : Bool
  movable : Bool
  grid : BitVec 32
  deriving DecidableEq, Repr

def Party.reader (p : Party) (core : Nat) : Reader := ⟨core, p.root, p.priv, p.movable, p.grid⟩

/-- R225-R228: the leaf for an address, from the TLB or by a miss served at once; a store needs its D bit set. -/
def State.leafAt (s : State) (o : Reader) (va : Nat) (write : Bool) : Except Cause (State × TlbEntry) :=
  let c := clusterOfCore o.core
  let (s1, bad) := s.serveAll c o.root va write o.priv 3
  match bad, s1.tlbFind c o.root va with
  | some e, _ => .error e
  | none, some t => .ok (s1, t)
  | none, none => .error .pageNotPresent

/-- R228: the entry that a write found changed at its home leaves the TLB, also where the walk after it faults. -/
def State.dropStale (s : State) (o : Reader) (va : Nat) : State :=
  match s.tlbFind (clusterOfCore o.core) o.root va with
  | some t => if pteW t.pte && !pteD t.pte && (s.setDirty t).isNone then { s with tlb := s.tlb.filter fun x => x != t } else s
  | none => s

/-- Where a checked run of bytes lies. -/
inductive RunAt where
  | global (r : Nat)
  | scratch (core off : Nat)
  deriving DecidableEq, Repr

/-- The checks of R235 on a run of bytes inside one 128-byte line, as one read or write; a fault with its first failing byte. -/
def State.checkRun (s : State) (o : Reader) (ptr : Dword) (n : Nat) (write : Bool) (tags : Bool := true) :
    Except (Cause × Nat) (State × RunAt × Dword) :=
  let va := ptr.toNat % 2 ^ 56
  let bad (c : Cause) : Except (Cause × Nat) (State × RunAt × Dword) := .error (c, va)
  if ptr.extractLsb' 60 4 ≠ 0 then bad .noncanonicalAddress
  else
    match s.leafAt o va write with
    | .error c => bad (s.walkFault o.root va (!write) write o.priv c)
    | .ok (s1, t) =>
      let e := t.pte
      let pa := leafPa t.level e va
      if !write && (!pteR e || (pteP e && !o.priv)) then bad .protectionRead
      else if write && (!pteW e || (pteP e && !o.priv)) then bad .protectionWrite
      else if pteMcast e || (pteHome e == 3 && o.movable) then bad .attributeConflict
      else if pteHome e = 3 then
        -- R500 lets no segment report SCRATCH_RANGE (log entry 119)
        match s1.backedFault o.core o.grid (backedCore pa) (backedOff pa) n with
        | some _ => bad .homeUnreachable
        | none => .ok (s1, .scratch (backedCore pa) (backedOff pa), e)
      else
        match s1.resolve pa with
        | none => bad .homeUnreachable
        | some r =>
          if isMmioOff (resOff r) && !o.priv then bad .homeUnreachable
          else
            let stray := if tags && pteTag e then (List.range (n / 32 + 2)).find? fun k => r / 32 + k ≤ (r + n - 1) / 32 &&
                s1.granuleTag o.core ((r / 32 + k) * 32) (modeOf o.core e r) (some 0) != ptr.extractLsb' 56 4
              else none
            match stray with
            | some k => .error (.tagMismatch, va + ((r / 32 + k) * 32 - r))
            | none => if !s1.routeUp (dieOfCore o.core) (homeDie r) then bad .homeUnreachable else .ok (s1, .global r, e)

/-- The bytes of a checked run, the core's buffered stores on top; poisoned bytes fault. -/
def State.runBytes (s : State) (core : Nat) (n : Nat) : RunAt → Except Cause (List Byte)
  | .scratch c off =>
    let p := s.party? c
    if p.any fun t => t.scratchPoison off n then .error .poisonConsumed
    else .ok (natBytes n ((p.map fun t => t.readScratch off n).getD 0))
  | .global r =>
    let l := lineOf r
    let (m, d) := (s.core core).buffered l
    let ovr := mergeLine (s.lineData l) d m
    if (List.range n).any fun i => !m.getLsbD (r % 128 + i) && sget false s.poison ((r + i) / 32) then .error .poisonConsumed
    else .ok (natBytes n (lineBytes ovr (r % 128) n))

/-- The line that a home returns; an MMIO window is read at its device. -/
def State.homeData (s : State) (line : Nat) : BitVec 1024 :=
  if isMmioOff (resOff (lineAddr line)) then BitVec.ofNat 1024 (s.mmioRead (lineAddr line) 128) else s.lineData line

/-- R229: a local line reached through a leaf with HOME = 01 stays in its slice. -/
def State.touchLine (s : State) (core : Nat) (pte : Dword) (line : Nat) : State :=
  if pteHome pte = 1 && !remoteTo core (lineAddr line) && !isMmioOff (resOff (lineAddr line)) then s.pinLine line else s

/-- R270, R263: a read of a line at its home: how it may be cached, its wts, and the end of the copy's lease. A read of an SI or
never-cached line makes no entry of the slice for it (DESIGN CHOICE, log entry 129). -/
def State.homeRead (s : State) (core line : Nat) (mode : LineMode) (pts : Nat) : State × LineMode × Nat × Nat :=
  let x := s.stamps line
  if mode = .ts && !remoteTo core (lineAddr line) && !s.watchedLine line then
    let g := max x.wts pts + (s.pkg (resPkg (lineAddr line))).lease
    (s.setStamps line { x with rts := max x.rts g }, .ts, x.wts, g - 1)
  else (s, if mode = .si then .si else .never, x.wts, 0)

/-- R270, R279: a core's copy of a line that a read has brought, with its package's copy of a remote SI line. A copy with a later
wts is kept; reads that may bring older data than have been seen leave none (State.staleReads). -/
def State.installCopy (s : State) (core : Nat) (mode : LineMode) (stream : Bool) (l : L1Line) : State :=
  let newer := mode == .ts && ((s.core core).copy l.line).any fun x => decide (l.wts < x.wts)
  if mode = .never || newer then s
  else
    let s1 := if mode = .si ∧ remoteTo core (lineAddr l.line) then
        { s with remotes := ⟨pkgOfCore core, l.line, l.data, l.tags, l.poison⟩ ::
            s.remotes.filter fun c => !(c.pkg == pkgOfCore core && c.line == l.line) }
      else s
    s1.modCore core (·.fillLine stream l)

/-- R270, R273, R279: a line read at once for an engine or for loads that an instruction makes at issue: the L1 copy or the package's
copy while it may be used, else the home; none while a commit holds the line. The line with the core's buffered stores on top,
the mask of these, and the poisoned sectors. -/
def State.engineLoadLine (s : State) (core root va : Nat) (pte : Dword) (line : Nat) :
    Option (State × BitVec 1024 × BitVec 128 × BitVec 4) :=
  let k := s.core core
  let (bm, bd) := k.buffered line
  let mode := modeOf core pte (lineAddr line)
  match (k.copy line).filter (usableCopy k.pts mode 0) with
  | some l =>
    let s1 := s.modCore core (·.retag line root (va / 128) pte)
    some (if mode = .ts then s1.foldPts core l.wts else s1, mergeLine l.data bd bm, bm, l.poison)
  | none =>
    match s.packageCopy core line mode 0 with
    | some c => some (s, mergeLine c.data bd bm, bm, c.poison)
    | none =>
      if s.locked line then none
      else
        let (s1, cached, wts, rts) := (s.touchLine core pte line).homeRead core line mode k.pts
        let d := s.homeData line
        let s2 := (s1.installCopy core cached false ⟨line, root, va / 128, pte, wts, rts, d, s.lineTags line, s.linePoison line⟩).staleLine
          (pkgOfCore core) line
        some (if remoteTo core (lineAddr line) then s2 else s2.foldPts core wts, mergeLine d bd bm, bm, s.linePoison line)

-- watchpoints of engines

/-- R262, R264: an engine's access, of command `id`, meets the watchpoints whose accessors are its whole party: a record. -/
def Party.watchEngine (p : Party) (core strand id : Nat) (k : AccKind) (va n : Nat) : Party :=
  (List.range 16).foldl (fun p i => ((p.strand i).watching id).foldl (fun p (j, w) =>
    if w.wholeParty core && watchKind k w.kind && meets va n w.range.1 w.range.2 then
      p.hitStrand i j w.act (max va w.range.1) core strand 3
    else p) p) p

/-- The watchpoints that an engine's access meets (R262-R264); a read that a copy at the core serves does not reach the home. -/
def State.watchEngine (s : State) (core strand id : Nat) (k : AccKind) (va : Nat) (at_ : RunAt) (pte : Dword) (n : Nat) : State :=
  let s1 := s.modParty core (·.watchEngine core strand id k va n)
  match at_ with
  | .global r =>
    if k == .load && s1.copyServes core (lineOf r) (modeOf core pte r) 0 then s1 else s1.watchHome core strand core id k true [(r, n)]
  | .scratch _ _ => s1

-- loads of 16 bytes that an instruction of a strand makes at issue (R260, R306, R462)

/-- What such loads give: a home or a walk that is not ready; a fault with its address; the bytes. -/
inductive Loads where
  | again
  | bad (s : State) (c : Cause) (addr : Dword)
  | got (s : State) (bs : List Byte)

/-- The checks of R235 on the loads, in order; none where a walk has to wait. -/
def State.checkLoads (s : State) (core : Nat) (p : Party) (a : Access) (ptr : Dword) :
    Nat → Option (State × Except (Cause × Dword) (List LanePart))
  | 0 => some (s, .ok [])
  | k + 1 =>
    match s.checkLoads core p a ptr k with
    | none => none
    | some (s0, .error e) => some (s0, .error e)
    | some (s0, .ok qs) =>
      let at_ : Dword := ptr + BitVec.ofNat 64 (16 * k)
      let va := at_.toNat % 2 ^ 56
      let c := clusterOfCore core
      let miss := at_.extractLsb' 60 4 == 0 && at_.toNat % 16 == 0 && s0.needsMiss c p.root va false p.priv
      if miss && s0.missWaits c p.root va false p.priv then none
      else
        let (s1, bad) := if miss then s0.serveMiss c p.root va false else (s0, none)
        match bad with
        | some e => some (s1, .error (s1.walkFault p.root va true false p.priv e, at_))
        | none =>
          match s1.laneChecks core p a ⟨0, at_, 0, 0, 0, 0, .scratch 0, .waiting, 0, false, false⟩ with
          | .bad _ e => some (s1, .error (e, at_))
          | .ok q => some (s1, .ok (qs ++ [q]))
          | .wait _ => none

/-- What a checked load of 16 bytes meets of watchpoints: a strand's own access, or the sequencer's for the strand `by_` (R264). -/
def State.watchLoad (s : State) (core : Nat) (a : Access) (by_ : Option Nat) (q : LanePart) : State :=
  match by_ with
  | none => s.watchLanes core a [q]
  | some i => s.watchEngine core i a.id .load q.va (match q.place with | .global _ => .global q.pa | _ => .scratch core 0) q.pte 16

/-- The data of the checked loads, in order; the watchpoints of others and recording ones see each (R264). -/
def State.takeLoads (s : State) (core root : Nat) (a : Access) (by_ : Option Nat) : List LanePart → List Byte → Loads
  | [], acc => .got s acc
  | q :: t, acc =>
    let s1 := s.watchLoad core a by_ q
    match q.place with
    | .global line =>
      match s1.engineLoadLine core root (q.addr.toNat % 2 ^ 56) q.pte line with
      | none => .again
      | some (s2, d, m, psn) =>
        let off := q.pa % 128
        if (List.range 16).any fun i => !m.getLsbD (off + i) && psn.getLsbD ((off + i) / 32) then .bad s2 .poisonConsumed q.addr
        else s2.takeLoads core root a by_ t (acc ++ natBytes 16 (if regWidthOk q.pa 16 then lineBytes d off 16 else 0))
    | .coreBacked c off =>
      match s1.party? c with
      | none => .bad s1 .homeUnreachable q.addr
      | some x =>
        if x.scratchPoison off 16 then .bad s1 .poisonConsumed q.addr
        else s1.takeLoads core root a by_ t (acc ++ natBytes 16 (x.readScratch off 16))
    | .scratch _ => .bad s1 .homeUnreachable q.addr

/-- `n` loads of 16 bytes from a pointer upward, by the strand that issues `a`, or by the sequencer for the strand `by_`; all are checked
before any returns data. They wait out a pause of the package (R280). -/
def State.strandLoads (s : State) (core : Nat) (p : Party) (a : Access) (ptr : Dword) (n : Nat) (by_ : Option Nat := none) : Loads :=
  let b := { a with kind := .load, size := 16, uniform := true, loc := false, policy := 0, strand := if by_.isSome then 16 else a.strand }
  if (s.pkg (pkgOfCore core)).paused then .again
  else
  match s.checkLoads core p b ptr n with
  | none => .again
  | some (s1, .error (c, at_)) => .bad s1 c at_
  | some (s1, .ok qs) => s1.takeLoads core p.root b by_ qs []

-- line operations of the engines

/-- What a line operation of an engine that reads gives: the home is not ready; a cause; the bytes, each with the poison of its
sector (R285). -/
inductive RunRead where
  | again
  | bad (c : Cause) (addr : Nat)
  | got (s : State) (bs : List (Byte × Bool))

/-- A line operation that reads `n` bytes of one line as engine work of command `id` of a strand (R273, R324, R326). -/
def State.readRun (s : State) (o : Reader) (strand id : Nat) (ptr : Dword) (n : Nat) (tags : Bool) : RunRead :=
  let va := ptr.toNat % 2 ^ 56
  if ptr.extractLsb' 60 4 == 0 && s.missWaits (clusterOfCore o.core) o.root va false o.priv then .again
  else
  match s.checkRun o ptr n false tags with
  | .error (c, addr) => .bad c addr
  | .ok (s1, at_, e) =>
    let s2 := s1.watchEngine o.core strand id .load va at_ e n
    match at_ with
    | .scratch c off =>
      match s2.party? c with
      | none => .bad .homeUnreachable va
      | some t => .got s2 ((List.range n).map fun i => (sget 0 t.scratch (off + i), t.scratchPoison (off + i) 1))
    | .global r =>
      match s2.engineLoadLine o.core o.root va e (lineOf r) with
      | none => .again
      | some (s3, d, m, psn) =>
        .got s3 ((List.range n).map fun i =>
          let k := r % 128 + i
          (if regWidthOk r n then d.extractLsb' (8 * k) 8 else 0, !m.getLsbD k && psn.getLsbD (k / 32)))

/-- Little-endian field of a byte list. -/
def fieldAt (bs : List Byte) (off n : Nat) : Nat := bytesNat ((bs.drop off).take n)

end Sys2Proof.Machine
end

