-- ==== Sys2Proof/Machine/InstrFetch.lean ====
section
/-!
DEFINITION. Machine/InstrFetch.lean: fetching and decoding the instruction at a PC (R70-R74, R332).
-/

namespace Sys2Proof.Machine

/-- What the fetch of one word gives: it has not arrived; it failed; the word. -/
inductive FetchedWord where
  | miss
  | bad (c : Cause)
  | word (w : Word)
  deriving DecidableEq, Repr

/-- R71, R74: one instruction word of a program's address space, through the cluster's TLB; a walk without room or a line held by a
commit is waited for (R22, R284). R71 has no row for a word at an unpopulated physical address or at a home that no route reaches: the
model raises FETCH_FAULT there, and takes poisoned words as they are (DESIGN CHOICE, log entry 102). -/
def State.fetchWord (s : State) (core root : Nat) (priv : Bool) (pc : Pc) : FetchedWord :=
  match s.tlbFind (clusterOfCore core) root pc.toNat with
  | none =>
    if s.missWaits (clusterOfCore core) root pc.toNat false false then .miss
    else
      match s.walk (clusterOfCore core) root pc.toNat with
      | .error _ => .bad .fetchFault
      | .ok _ => .miss
  | some t =>
    if !pteX t.pte || (pteP t.pte && !priv) then .bad .protectionExec
    else if pteHome t.pte = 3 ∨ pteMcast t.pte then .bad .fetchFault
    else
      match s.resolve (leafPa t.level t.pte pc.toNat) with
      | none => .bad .fetchFault
      | some r =>
        if s.routeUp (dieOfCore core) (homeDie r) then .word (BitVec.ofNat 32 (s.readMem r 4)) else .bad .fetchFault

/-- R232, R22, R284: the walk that the fetch of a word starts. -/
def State.fetchWalk (s : State) (core root : Nat) (pc : Pc) : State :=
  match s.tlbFind (clusterOfCore core) root pc.toNat with
  | some _ => s
  | none =>
    if s.missWaits (clusterOfCore core) root pc.toNat false false then s
    else match s.walk (clusterOfCore core) root pc.toNat with
    | .error _ => s
    | .ok s1 => s1

/-- The instruction that decode names: an instruction, or the event of a refused word. -/
noncomputable def decodedInstr (w v : Word) : Instr :=
  match decodeWords w v with
  | .instr i => i
  | .illegalOpcode => .illegalOpcode ⟨w, if isLong w then v else 0⟩
  | .reservedField => .reservedField ⟨w, if isLong w then v else 0⟩

/-- R71, R96: the instruction at a PC, or the fault of its fetch; none while a word has not arrived. -/
noncomputable def State.instrAt (s : State) (core root : Nat) (priv : Bool) (pc : Pc) : Option Instr :=
  if pc.extractLsb' 0 2 ≠ 0 then some (.instructionFetchFault ⟨.misalignedFetch, pc.setWidth 64⟩)
  else
    match s.fetchWord core root priv pc with
    | .miss => none
    | .bad c => some (.instructionFetchFault ⟨c, pc.setWidth 64⟩)
    | .word w =>
      if !isLong w then some (decodedInstr w 0)
      else
        match s.fetchWord core root priv (pc + 4) with
        | .miss => none
        | .bad c => some (.instructionFetchFault ⟨c, (pc + 4).setWidth 64⟩)
        | .word v => some (decodedInstr w v)

/-- The walks that the fetch of the instruction at a PC needs. -/
def State.fetchWalks (s : State) (core root : Nat) (priv : Bool) (pc : Pc) : State :=
  if pc.extractLsb' 0 2 ≠ 0 then s
  else
    let s1 := s.fetchWalk core root pc
    match s1.fetchWord core root priv pc with
    | .word w => if isLong w then s1.fetchWalk core root (pc + 4) else s1
    | _ => s1

end Sys2Proof.Machine
end

