-- ==== Sys2Proof/Machine/Bins.lean ====
section
/-!
DEFINITION. Machine/Bins.lean: node bins (R401-R407): the rings of a die, what is pending and ready, the claim of a batch,
and what an acknowledged record store changes.
-/

namespace Sys2Proof.Machine

def Grid.bin? (g : Grid) (b : Nat) : Option BinEntry := g.hdr.bins[b]?
def Grid.ring (g : Grid) (die bin : Nat) : Ring :=
  (g.rings.find? fun r => r.die == die && r.bin == bin).getD ⟨die, bin, 0, 0, [], [], none, false, none⟩
def Grid.putRing (g : Grid) (r : Ring) : Grid :=
  { g with rings := g.rings.filter (fun x => !(x.die == r.die && x.bin == r.bin)) ++ [r] }

/-- R405: records whose stores, and those of every earlier record, have been acknowledged and that no batch holds. -/
def Ring.pending (r : Ring) : Nat := r.waits.foldl min r.tail - r.claimed
/-- R405: the slot of record `n` is free. -/
def Ring.free (r : Ring) (cap n : Nat) : Bool :=
  n < cap || (decide (n - cap < r.claimed) && !r.held.any fun h => h.1 ≤ n - cap && n - cap < h.1 + h.2)
/-- R406. -/
def Ring.ready (r : Ring) (b : BinEntry) : Bool := b.count ≤ r.pending || (1 ≤ r.pending && r.expired)

/-- R402: the address of a record's slot. -/
def BinEntry.slotAt (b : BinEntry) (die n : Nat) : Dword :=
  b.buf + BitVec.ofNat 64 ((die * b.cap + n % b.cap) * b.recSz)

/-- R406: a ring put back after its records changed: `before` is the pending count there was, `claim` says that a batch was
claimed. The timer starts, restarts or ends. -/
def State.refreshRing (s : State) (tag : BitVec 32) (b : BinEntry) (r : Ring) (before : Nat) (claim : Bool) : State :=
  let starts := r.pending != 0 && (claim || before == 0)
  let r1 := if starts then { r with timer := some (s.now + b.timer * 256), expired := false }
    else if r.pending = 0 then { r with timer := none, expired := false } else r
  let r2 := { r1 with readyAt := if r1.ready b then some (r.readyAt.getD s.now) else none }
  let s1 := s.modGrid tag (·.putRing r2)
  if starts then s1.post (.binTimerExpiry ⟨tag, r.die, r.bin⟩) else s1

/-- Items of `ys` taken out of a list, one occurrence each. -/
def eraseAll (ys : List Nat) (xs : List Nat) : List Nat := ys.foldl (fun l y => l.erase y) xs

/-- R405: the stores of some records on a die have been acknowledged. -/
def State.recordsAcked (s : State) (die : Nat) (recs : List (BitVec 32 × Nat × Nat)) : State :=
  recs.foldl (fun s x =>
    match s.grid? x.1 with
    | none => s
    | some g =>
      match g.bin? x.2.1 with
      | none => s
      | some b =>
        let r := g.ring die x.2.1
        s.refreshRing x.1 b { r with waits := r.waits.erase x.2.2 } r.pending false) s

/-- An EMIT has issued and has not appended its records. -/
def Party.emitting (p : Party) : Bool :=
  p.accesses.any fun a => match a.op with | some (.emit _) => true | _ => false

/-- R407: a FETCHB of the core finds its die quiescent: no FETCH on the die would receive an index, nothing is open, no EMIT
is in flight, no record pends. -/
def State.quiescent (s : State) (g : Grid) (core : Nat) : Bool :=
  let die := dieOfCore core
  let here := s.parties.filter fun (c, p) => p.grid == g.tag && dieOfCore c == die
  here.all (fun (c, p) => (p.collective || s.dry g c) && p.items == [] && p.batches == [] && !p.emitting)
    && g.rings.all fun r => r.die != die || (r.waits == [] && r.pending == 0)

/-- R406: the bin that a FETCHB of a core claims from. -/
def State.chooseBin (s : State) (g : Grid) (core : Nat) : Option Ring :=
  let ready := g.rings.filter fun r => r.die == dieOfCore core && (g.bin? r.bin).any r.ready
  let near := ready.filter fun r => (g.bin? r.bin).any fun b => Config.codeResident s.fresh core b.entry.toNat
  let sooner (a b : Ring) : Bool :=
    let x := a.readyAt.getD 0
    let y := b.readyAt.getD 0
    x < y || (x == y && a.bin < b.bin)
  (if near = [] then ready else near).foldl (fun acc r => match acc with
    | none => some r
    | some b => if sooner r b then some r else acc) none

/-- R407: the batch descriptor. -/
def descriptorBytes (b : BinEntry) (base handle : Dword) (bin count seq : Nat) : List Byte :=
  natBytes 8 base.toNat ++ natBytes 8 b.entry.toNat ++ natBytes 2 count ++ natBytes 1 bin ++ natBytes 1 b.recSz
    ++ natBytes 4 seq ++ natBytes 8 handle.toNat

/-- The L1 lines of a core that hold bytes of a virtual range are dropped. -/
def State.dropRange (s : State) (core root va n : Nat) : State :=
  s.modCore core fun k => { k with l1 := k.l1.filter fun l => !(l.root == root && meets (l.va * 128) 128 va n) }

/-- THE CLAIM of a FETCHB (R406, R407): none while it waits; else the value of d. -/
def State.claimBatch (s : State) (core off : Nat) : Option (Dword × State) :=
  match s.party? core with
  | none => none
  | some p =>
    match s.grid? p.grid with
    | none => none
    | some g =>
      if s.onHold core then none
      else
        match s.chooseBin g core with
        | none => if s.quiescent g core then some (0, s) else none
        | some r =>
          match g.bin? r.bin with
          | none => none
          | some b =>
            let n := min (min b.count r.pending) (b.cap - r.claimed % b.cap)
            let seq := ((kget g.seqs r.die).getD 0) % 2 ^ 32
            let handle : Dword := BitVec.ofNat 64 (0xC000000000000000 + r.die * 2 ^ 32 + seq)
            let base := b.slotAt r.die r.claimed
            let p1 := { p with
              batches := p.batches ++ [⟨handle, r.die, r.bin, r.claimed, n⟩]
              scratch := scratchWrite p.scratch off (descriptorBytes b base handle r.bin n seq)
              spoison := sput false p.spoison (off / 32) false }
            let s1 := { (s.setParty core p1).setGrid { g with seqs := kput g.seqs r.die (seq + 1) } with fresh := s.fresh + 1 }
            let r1 := { r with claimed := r.claimed + n, held := r.held ++ [(r.claimed, n)] }
            let s2 := s1.refreshRing g.tag b r1 r.pending true
            let s3 := s2.dropRange core p.root (base.toNat % 2 ^ 56) (n * b.recSz)
            some (handle, s3.acquireDrops core 3)

/-- R405, R406: a retired batch frees its slots. -/
def State.retireBatch (s : State) (tag : BitVec 32) (x : OpenBatch) : State :=
  s.modGrid tag fun g =>
    let r := g.ring x.die x.bin
    g.putRing { r with held := r.held.erase (x.first, x.count) }

end Sys2Proof.Machine
end

