-- ==== Sys2Proof/Machine/PartyStart.lean ====
section
/-!
DEFINITION. Machine/PartyStart.lean: a party before its launch gives it registers (R101, R113, R330).
-/

namespace Sys2Proof.Machine

/-- A barrier that is not configured (R140). -/
def Barrier.blank : Barrier := ⟨0, 0, false, 0, false⟩

/-- Entry `n` of the scope table at launch (R259). -/
def launchScope (n : Nat) : ScopeEntry := if n ≤ 6 then ⟨0, true, BitVec.ofNat 3 n, []⟩ else ⟨0, false, 6, []⟩

/-- A party with no strand live and everything else as launch leaves it. -/
def Party.blank : Party where
  grid := 0
  index := 0
  collective := false
  movable := false
  priv := false
  root := 0
  scratchSize := 0
  shadows := false
  status := .running
  strands := Vector.replicate 16 Strand.blank
  q0 := Vector.replicate 8 []
  q1in := []
  q1out := []
  q5 := []
  newQ := []
  q2 := []
  dsq := []
  q4 := []
  q4lost := 0
  bars := Vector.replicate 16 Barrier.blank
  thnd := 0
  flowOpen := 0
  flowOrd := 0
  scopes := Vector.ofFn fun i => launchScope i.val
  scratch := []
  swz := []
  spoison := []
  accesses := []
  producers := []
  cmds := []
  fixups := []
  serial := 0
  seq := Sequencer.start
  halt := none
  dbg := false
  dbgWant := none
  items := []
  batches := []
  flows := []
  txas := []
  aborts := []

end Sys2Proof.Machine
end

