-- ==== Sys2Proof/Machine/Uniform.lean ====
section
/-!
DEFINITION. Machine/Uniform.lean: the uniform arithmetic, mask and control instructions, barriers, waits, the
divergence stack and the end of a strand (R113-R124, R140-R143, R151-R170, R176-R178).
-/

namespace Sys2Proof.Machine

noncomputable section

-- shapes (R151, R154, R157)

/-- R154: the operation at 64 bits, or in word mode at 32 bits with the result extended by its kind. -/
def wordMode (x unsigned : Bool) (f : (w : Nat) → BitVec w → BitVec w → BitVec w) (a b : Dword) : Dword :=
  if x then
    let r := f 32 (a.setWidth 32) (b.setWidth 32)
    if unsigned then r.setWidth 64 else r.signExtend 64
  else f 64 a b

/-- d ← f a b. -/
def uni2 (i : Instr) (o : UR) (unsigned : Bool) (f : (w : Nat) → BitVec w → BitVec w → BitVec w) (s : State) : Out :=
  issueParty i (fun x p =>
    let (a, p1) := p.srcU x.w o.a
    let (b, p2) := p1.srcU x.w o.b
    p2.dstU x.w o.d (wordMode o.x unsigned f a b)) s

/-- d ← f a. -/
def uni1 (i : Instr) (o : UR) (unsigned : Bool) (f : (w : Nat) → BitVec w → BitVec w) (s : State) : Out :=
  issueParty i (fun x p =>
    let (a, p1) := p.srcU x.w o.a
    p1.dstU x.w o.d (wordMode o.x unsigned (fun w x _ => f w x) a 0)) s

/-- d ← f a imm, 64 bits. -/
def uniI (i : Instr) (o : UI) (f : Dword → Dword → Dword) (s : State) : Out :=
  issueParty i (fun x p =>
    let (a, p1) := p.srcU x.w o.a
    p1.dstU x.w o.d (f a (o.imm.signExtend 64))) s

/-- A uniform producer d ← f a b (R154). -/
def uniProd2 (i : Instr) (o : UR) (unsigned : Bool) (f : (w : Nat) → BitVec w → BitVec w → BitVec w)
    (s : State) : Out :=
  issue i noPre always (fun x s =>
    match s.party? x.w.core with
    | none => .stall
    | some p =>
      let (a, p1) := p.srcU x.w o.a
      let (b, p2) := p1.srcU x.w o.b
      .ok ((s.setParty x.w.core p2).produceTimed i x.w (marksOf (roles i).dst)
        (.uniform o.d (.live x.w.slot) (wordMode o.x unsigned f a b))) (some x.w)) s

/-- d ← f a b on 32-bit masks, zero-extended (R160). -/
def mask2 (i : Instr) (o : UR) (f : Word → Word → Word) (s : State) : Out :=
  issueParty i (fun x p =>
    let (a, p1) := p.srcU x.w o.a
    let (b, p2) := p1.srcU x.w o.b
    p2.dstU x.w o.d ((f (a.setWidth 32) (b.setWidth 32)).setWidth 64)) s

/-- d ← f a on a 32-bit mask. -/
def mask1 (i : Instr) (o : UR) (f : Word → Word) (s : State) : Out :=
  issueParty i (fun x p =>
    let (a, p1) := p.srcU x.w o.a
    p1.dstU x.w o.d ((f (a.setWidth 32)).setWidth 64)) s

/-- A shift count: y[5:0], or y[4:0] in word mode (R153). -/
def countOf {w : Nat} (y : BitVec w) : Nat := y.toNat % w

-- register arithmetic (R153-R156)

def execSadd (o : UR) (s : State) : Out := uni2 (.sadd o) o false (fun _ x y => x + y) s
def execSsub (o : UR) (s : State) : Out := uni2 (.ssub o) o false (fun _ x y => x - y) s
def execSmul (o : UR) (s : State) : Out := uni2 (.smul o) o false (fun _ x y => x * y) s
def execSmulh (o : UR) (s : State) : Out := uni2 (.smulh o) o false (fun _ x y => mulHigh x.toInt y.toInt) s
def execSmulhn (o : UR) (s : State) : Out := uni2 (.smulhn o) o true (fun _ x y => mulHigh x.toNat y.toNat) s
def execSdiv (o : UR) (s : State) : Out := uniProd2 (.sdiv o) o false (fun _ x y => sdivide x y) s
def execSdivn (o : UR) (s : State) : Out := uniProd2 (.sdivn o) o true (fun _ x y => udivide x y) s
def execSrem (o : UR) (s : State) : Out := uniProd2 (.srem o) o false (fun _ x y => sremain x y) s
def execSremn (o : UR) (s : State) : Out := uniProd2 (.sremn o) o true (fun _ x y => uremain x y) s
def execSand (o : UR) (s : State) : Out := uni2 (.sand o) o false (fun _ x y => x &&& y) s
def execSor (o : UR) (s : State) : Out := uni2 (.sor o) o false (fun _ x y => x ||| y) s
def execSxor (o : UR) (s : State) : Out := uni2 (.sxor o) o false (fun _ x y => x ^^^ y) s
def execSandn (o : UR) (s : State) : Out := uni2 (.sandn o) o false (fun _ x y => x &&& ~~~y) s
def execSshl (o : UR) (s : State) : Out := uni2 (.sshl o) o false (fun _ x y => x <<< countOf y) s
def execSshr (o : UR) (s : State) : Out := uni2 (.sshr o) o true (fun _ x y => x >>> countOf y) s
def execSsar (o : UR) (s : State) : Out := uni2 (.ssar o) o false (fun _ x y => x.sshiftRight (countOf y)) s
def execSmin (o : UR) (s : State) : Out := uni2 (.smin o) o false (fun _ => minS) s
def execSmax (o : UR) (s : State) : Out := uni2 (.smax o) o false (fun _ => maxS) s
def execSminn (o : UR) (s : State) : Out := uni2 (.sminn o) o true (fun _ => minU) s
def execSmaxn (o : UR) (s : State) : Out := uni2 (.smaxn o) o true (fun _ => maxU) s
def execSclz (o : UR) (s : State) : Out := uni1 (.sclz o) o true (fun w x => BitVec.ofNat w (clz x)) s
def execSpop (o : UR) (s : State) : Out := uni1 (.spop o) o true (fun w x => BitVec.ofNat w (popCount x)) s
/-- R155. -/
def execSbfx (o : UR) (s : State) : Out :=
  issueParty (.sbfx o) (fun x p =>
    let (a, p1) := p.srcU x.w o.a
    let (b, p2) := p1.srcU x.w o.b
    p2.dstU x.w o.d (fieldOf a (field64 b).1 (field64 b).2)) s
def execSbfi (o : UR) (s : State) : Out :=
  issueParty (.sbfi o) (fun x p =>
    let (a, p1) := p.srcU x.w o.a
    let (b, p2) := p1.srcU x.w o.b
    let (d, p3) := p2.srcU x.w o.d
    p3.dstU x.w o.d (insertField d a (field64 b).1 (field64 b).2)) s
/-- R156: word mode compares the low words. -/
def execScmp (o : UR) (s : State) : Out :=
  issueParty (.scmp o) (fun x p =>
    let (a, p1) := p.srcU x.w o.a
    let (b, p2) := p1.srcU x.w o.b
    let f := (p2.slot x.w).flags
    p2.setFlags x.w (if o.x then cmpFlags (a.setWidth 32) (b.setWidth 32) f else cmpFlags a b f)) s
def execSsel (o : UR) (s : State) : Out :=
  issueParty (.ssel o) (fun x p =>
    let (a, p1) := p.srcU x.w o.a
    let (b, p2) := p1.srcU x.w o.b
    p2.dstU x.w o.d (if (p2.slot x.w).flags.z then a else b)) s
def execSmov (o : UR) (s : State) : Out := uni1 (.smov o) o false (fun _ x => x) s
def execSrot (o : UR) (s : State) : Out := uni2 (.srot o) o false (fun _ x y => x.rotateLeft (countOf y)) s

-- immediates (R157, R158)

def execSaddi (o : UI) (s : State) : Out := uniI (.saddi o) o (fun x y => x + y) s
def execSandi (o : UI) (s : State) : Out := uniI (.sandi o) o (fun x y => x &&& y) s
def execSori (o : UI) (s : State) : Out := uniI (.sori o) o (fun x y => x ||| y) s
def execSxori (o : UI) (s : State) : Out := uniI (.sxori o) o (fun x y => x ^^^ y) s
def execSshli (o : UI) (s : State) : Out := uniI (.sshli o) o (fun x _ => x <<< (o.imm.toNat % 64)) s
def execSshri (o : UI) (s : State) : Out := uniI (.sshri o) o (fun x _ => x >>> (o.imm.toNat % 64)) s
def execSsari (o : UI) (s : State) : Out := uniI (.ssari o) o (fun x _ => x.sshiftRight (o.imm.toNat % 64)) s
def execSmuli (o : UI) (s : State) : Out := uniI (.smuli o) o (fun x y => x * y) s
def execScmpi (o : UI) (s : State) : Out :=
  issueParty (.scmpi o) (fun x p =>
    let (a, p1) := p.srcU x.w o.a
    p1.setFlags x.w (cmpFlags a (o.imm.signExtend 64) (p1.slot x.w).flags)) s
/-- R134: an instruction that reads EX waits while EX is pending. -/
def exReady (code : Nat) (x : Ctx) (s : State) : Bool := !(condReadsEx code && (s.slotOf x.w).exPending)
def execScset (o : UI) (s : State) : Out :=
  issue (.scset o) noPre (exReady o.imm.toNat) (fun x s =>
    .ok (s.modParty x.w.core fun p => p.dstU x.w o.d (if condHolds o.imm.toNat (p.slot x.w) then 1 else 0))
      (some x.w)) s

-- masks (R160, R161)

def execMand (o : UR) (s : State) : Out := mask2 (.mand o) o (fun x y => x &&& y) s
def execMor (o : UR) (s : State) : Out := mask2 (.mor o) o (fun x y => x ||| y) s
def execMxor (o : UR) (s : State) : Out := mask2 (.mxor o) o (fun x y => x ^^^ y) s
def execMandn (o : UR) (s : State) : Out := mask2 (.mandn o) o (fun x y => x &&& ~~~y) s
def execMnot (o : UR) (s : State) : Out := mask1 (.mnot o) o (fun x => ~~~x) s
def execMpop (o : UR) (s : State) : Out := mask1 (.mpop o) o (fun x => BitVec.ofNat 32 (popCount x)) s
def execMffs (o : UR) (s : State) : Out :=
  mask1 (.mffs o) o (fun x => match lowLane x with | some l => l.setWidth 32 | none => 32) s
def execMtest (o : UR) (s : State) : Out :=
  issueParty (.mtest o) (fun x p =>
    let (a, p1) := p.srcU x.w o.a
    let (b, p2) := p1.srcU x.w o.b
    p2.setFlags x.w (testFlags (a.setWidth 32) (b.setWidth 32) (p2.slot x.w).flags)) s

-- control transfer (R162-R164, R89)

/-- R89: the target of a word offset. -/
def branchTarget {w : Nat} (pc : Pc) (off : BitVec w) : Pc := pc + (off.signExtend 56 <<< 2)
def Party.jump (p : Party) (w : SlotRef) (pc : Pc) : Party := p.modSlot w fun l => { l with pc := pc }
/-- R163: the return address to s23, left full. -/
def Party.link (p : Party) (x : Ctx) : Party :=
  p.modStrand x.w.strand fun st => (st.setS 23 (x.next.setWidth 64)).setFull true 111

def execBr (o : UB) (s : State) : Out :=
  issue (.br o) noPre (exReady o.cond.toNat) (fun x s =>
    .ok (s.modParty x.w.core fun p =>
      if condHolds o.cond.toNat (p.slot x.w) then p.jump x.w (branchTarget x.pc o.off) else p) (some x.w)) s
def execJmp (o : UJ) (s : State) : Out := issueParty (.jmp o) (fun x p => p.jump x.w (branchTarget x.pc o.off)) s
def execCall (o : UJ) (s : State) : Out :=
  issueParty (.call o) (fun x p => (p.link x).jump x.w (branchTarget x.pc o.off)) s

/-- R164: a jump to a register, checked for alignment and then for width; the fault's pops stand (R516). -/
def jumpReg (i : Instr) (a : BitVec 7) (link : Bool) (s : State) : Out :=
  issue i noPre always (fun x s =>
    match s.party? x.w.core with
    | none => .stall
    | some p =>
      let (v, p1) := p.srcU x.w a
      let s1 := s.setParty x.w.core p1
      let l := { p1.slot x.w with pc := x.pc }
      if v.extractLsb' 0 2 ≠ 0 then .trap (x.info l .misalignedFetch v) s1
      else if v.extractLsb' 56 8 ≠ 0 then .trap (x.info l .fetchFault v) s1
      else
        .ok (s1.setParty x.w.core ((if link then p1.link x else p1).jump x.w (v.setWidth 56))) (some x.w)) s
def execJmpr (o : UR) (s : State) : Out := jumpReg (.jmpr o) o.a false s
def execCallr (o : UR) (s : State) : Out := jumpReg (.callr o) o.a true s
def execRet (o : UR) (s : State) : Out := jumpReg (.ret o) o.a false s

-- the divergence stack (R117-R124)

/-- Both slots of the strand are live (R115). -/
def Strand.pairLive (st : Strand) : Bool := (st.slot .a).st != .notLive && (st.slot .b).st != .notLive

/-- R122: the low and high doublewords of a slot's entry. -/
def entryLow (x : SlotId) (l : Slot) : Dword :=
  let arr := l.st == .atJoin
  let f := l.flags
  0#1 ++ bit1 arr ++ bit1 (x == .b) ++ bit1 f.n ++ bit1 f.z ++ bit1 f.c ++ bit1 f.v ++ bit1 f.ex ++ l.pc
def entryHigh (l : Slot) : Dword := (if l.em = 0 then 0 else l.m0) ++ l.em

/-- R122: the scratchpad offset of entry k. -/
def Strand.entryOff (st : Strand) (k : Nat) : Nat := st.dspBase.toNat * 1024 + 16 * k

/-- R318, R242: earlier scratchpad accesses of the strand have been performed. -/
def portReady (x : Ctx) (s : State) : Bool :=
  (s.party? x.w.core).all fun p => !p.accesses.any fun a => a.strand == x.w.strand && a.loc && a.step == .attempt

/-- R123, R143: the slot waits at a barrier, or was released from one and its acquire is still to be performed. -/
def Strand.atBarrier (st : Strand) (x : SlotId) : Bool :=
  (match (st.slot x).wait with | .bar _ _ => true | _ => false) || st.fence.any fun f => f.slots.contains x

/-- R123: the states of the other slot that hold a SPLIT; the push is a store of the strand. -/
def splitReady (x : Ctx) (s : State) : Bool :=
  let st := s.strandOf x.w
  let y := otherSlot x.w.slot
  !st.pairLive || (!st.atBarrier y && portReady x s && (match (st.slot y).wait with | .log _ | .engine _ => false | _ => true))

/-- A result of a slot that a JOIN has merged away writes its destination alone: its EX is gone (log entry 106). -/
def Result.withoutEx : Result → Result
  | .fetched spec x v _ => .uniform spec x v
  | r => r

/-- A result with the place of its slot mapped. -/
def Result.mapHome (f : SlotHome → SlotHome) : Result → Result
  | .fetched spec k v ex => .fetched spec (f k) v ex
  | .batch spec k off => .batch spec (f k) off
  | .uniform spec k v => .uniform spec (f k) v
  | r => r

/-- The results of the producers of a strand, changed. -/
def Party.mapResults (p : Party) (i : Nat) (f : Result → Result) : Party :=
  { p with producers := p.producers.map fun ((id, q) : Nat × Producer) => (id, if q.strand = i then { q with res := f q.res } else q) }

/-- What the live slot `x` of a strand has issued, once the slot is merged away: no EX. -/
def Party.dropEx (p : Party) (i : Nat) (x : SlotId) : Party :=
  p.mapResults i fun r => if r.exSlot? = some (.live x) then r.withoutEx else r

def renameRef (i : Nat) (x y : SlotId) (w : SlotRef) : SlotRef := if w.strand = i ∧ w.slot = x then { w with slot := y } else w
def FenceWait.rename (x y : SlotId) (f : FenceWait) : FenceWait := { f with slots := f.slots.map fun k => if k = x then y else k }

/-- What slot `x` of a strand has issued is slot `y`'s from now on (R118, R124). -/
def Party.renameSlot (p : Party) (i : Nat) (x y : SlotId) : Party :=
  let p1 := { p with
    accesses := p.accesses.map fun (a : Access) => if a.strand = i ∧ a.slot = x ∧ a.pushed = none then { a with slot := y } else a
    aborts := p.aborts.map fun (a : Abort) => { a with slot := renameRef i x y a.slot }
    flows := p.flows.map fun (f : Flow) => { f with closing := f.closing.map fun (w, r) => (renameRef i x y w, r) } }
  (p1.mapResults i (·.mapHome fun h => if h = .live x then .live y else h)).modStrand i fun st =>
    { st with fence := st.fence.map (FenceWait.rename x y) }

/-- R123: what slot `y` of a strand has issued stays its own while it is pushed as entry `k`. -/
def Party.pushHomes (p : Party) (i : Nat) (y : SlotId) (k : Nat) : Party :=
  { p.mapResults i (·.mapHome fun h => if h = .live y then .pushed k else h) with
    accesses := p.accesses.map fun (a : Access) => if a.strand = i ∧ a.slot = y ∧ a.pushed = none then { a with pushed := some k } else a }

/-- A popped slot takes what write-backs owe it: EX, and m0 within its em (R120, R134). -/
def Slot.takeOwed (l : Slot) (o : OwedSlot) : Slot :=
  { l with flags := { l.flags with ex := o.ex.getD l.flags.ex }, m0 := ((o.m0).map (· &&& l.em)).getD l.m0 }

/-- R124: entry `k` popped as slot `x`: what it has issued is the slot's again, what write-backs brought meanwhile it takes, and EX is
pending while a FETCH of it is outstanding (R134). -/
def Party.popHomes (p : Party) (i k : Nat) (x : SlotId) : Party :=
  let p1 := { p.mapResults i (·.mapHome fun h => if h = .pushed k then .live x else h) with
    accesses := p.accesses.map fun (a : Access) => if a.strand = i ∧ a.pushed = some k then { a with pushed := none, slot := x } else a }
  let pending := p1.producers.any fun (_, q) => q.strand == i && q.res.exSlot? == some (.live x)
  p1.modStrand i fun (st : Strand) => { st with owed := st.owed.filter fun (o : OwedSlot) => o.entry != k }.modSlot x fun l =>
    { Slot.takeOwed l ((st.owed.find? fun (o : OwedSlot) => o.entry == k).getD ⟨k, none, none⟩) with exPending := pending }

/-- R123: the push of slot `y`; a cause where it cannot be made. -/
def Party.pushDivergence (p : Party) (i : Nat) (y : SlotId) : Except Cause Party :=
  let st := p.strand i
  if st.depth ≥ 64 then .error .divstackOverflow
  else
    let off := st.entryOff st.depth
    if off + 16 > p.scratchSize then .error .scratchRange
    else
      let l := st.slot y
      let v := (entryLow y l).toNat + 2 ^ 64 * (entryHigh l).toNat
      .ok (((p.writeScratch off 16 v).setStrand i { st with depth := st.depth + 1 }).pushHomes i y st.depth)

/-- R117: the two slots after a SPLIT of slot `x` on mask `t`. The slot that executes it keeps its history; both issue from the next
cycle on (log entry 109). -/
def Strand.split (st : Strand) (x : Ctx) (t : Word) (target : Pc) : Strand :=
  let l := st.slot x.w.slot
  let fresh : Slot := { Slot.dead with flags := l.flags, lastAt := l.lastAt }
  let base (k : SlotId) : Slot := if k = x.w.slot then l else fresh
  let b := { base .b with st := .running, em := t, m0 := t, pc := target, wait := .none }
  let a := { base .a with st := .running, em := l.em &&& ~~~t, m0 := l.m0 &&& ~~~t, pc := x.next, wait := .none }
  (st.setSlot .a a).setSlot .b b

def execSplit (o : US) (s : State) : Out :=
  issue (.split o) noPre splitReady (fun x s =>
    match s.party? x.w.core with
    | none => .stall
    | some p =>
      let st := p.strand x.w.strand
      let t := (st.slot x.w.slot).m0 &&& st.mreg o.m.toNat
      let target := branchTarget x.pc o.off
      let pushed := if st.pairLive then p.pushDivergence x.w.strand (otherSlot x.w.slot) else .ok p
      match pushed with
      | .error c => .fault c 0
      | .ok p1 => .ok (s.setParty x.w.core (p1.modStrand x.w.strand (·.split x t target))) (some x.w)) s

/-- R145: what a merged slot still waits for: an instruction of either slot that waits for a free entry of the operand log. -/
def mergedWait (a b : Wait) : Wait :=
  match a, b with
  | .log id, _ => .log id
  | _, .log id => .log id
  | _, _ => .none

/-- The later of two cycles. -/
def laterOf (a b : Option Nat) : Option Nat :=
  match a, b with
  | some x, some y => some (max x y)
  | none, y => y
  | x, none => x

/-- R118: the pair merged into slot A, past the JOIN at `pc`; it issues from the next cycle on. -/
def Strand.merge (st : Strand) (pc : Pc) : Strand :=
  let a := st.slot .a
  let b := st.slot .b
  (st.setSlot .a { a with
    st := .running, em := a.em ||| b.em, m0 := a.m0 ||| b.m0, pc := pc + 4, wait := mergedWait a.wait b.wait
    lastAt := laterOf a.lastAt b.lastAt }).setSlot .b Slot.dead

/-- R118: the merge of a strand's slots; what slot B has issued is slot A's. -/
def Party.mergeSlots (p : Party) (i : Nat) (pc : Pc) : Party :=
  ((p.dropEx i .b).renameSlot i .b .a).modStrand i (·.merge pc)

/-- R124: the top entry popped back to its slot, which issues from the next cycle on; the merged slot takes the other letter. -/
def Party.popDivergence (p : Party) (i : Nat) : Party :=
  let st := p.strand i
  let off := st.entryOff (st.depth - 1)
  let lo : Dword := BitVec.ofNat 64 (p.readScratch off 8)
  let hi : Dword := BitVec.ofNat 64 (p.readScratch (off + 8) 8)
  let em := hi.extractLsb' 0 32
  let flags : Flags := ⟨lo.getLsbD 60, lo.getLsbD 59, lo.getLsbD 58, lo.getLsbD 57, lo.getLsbD 56⟩
  let back : Slot := { Slot.dead with
    st := if lo.getLsbD 62 then .atJoin else .running
    pc := lo.setWidth 56, em := em, m0 := hi.extractLsb' 32 32 &&& em, flags := flags, lastAt := (st.slot .a).lastAt }
  let k : SlotId := if lo.getLsbD 61 then .b else .a
  let m := st.slot .a
  let m1 := { m with em := m.em &&& ~~~em, m0 := m.m0 &&& ~~~em }
  let p1 := p.setStrand i (({ st with depth := st.depth - 1 }.setSlot k back).setSlot (otherSlot k) m1)
  (if k = .a then p1.renameSlot i .a .b else p1).popHomes i (st.depth - 1) k

/-- R118, R124: a completed join at `pc`, and the pops that follow it: a popped slot that waits at a JOIN beside a
vacant merged slot joins at once. -/
def Party.completeJoin (p : Party) (i : Nat) (pc : Pc) : Nat → Party × SlotId
  | 0 => (p.mergeSlots i pc, .a)
  | k + 1 =>
    let p1 := p.mergeSlots i pc
    if (p1.strand i).depth = 0 then (p1, .a)
    else
      let st := p1.strand i
      let slotB := (p1.readScratch (st.entryOff (st.depth - 1)) 8) / 2 ^ 61 % 2 = 1
      let p2 := p1.popDivergence i
      let merged : SlotId := if slotB then .a else .b
      let back := (p2.strand i).slot (otherSlot merged)
      if ((p2.strand i).slot merged).em = 0 ∧ back.st = .atJoin then p2.completeJoin i back.pc k else (p2, merged)

/-- R124: a JOIN that completes while the stack holds entries reads scratchpad, after the strand's earlier accesses to it. -/
def joinReady (x : Ctx) (s : State) : Bool :=
  let st := s.strandOf x.w
  let y := st.slot (otherSlot x.w.slot)
  !st.pairLive || st.depth == 0 || !(y.em == 0 || (y.st == .atJoin && y.pc == x.pc)) || portReady x s

def execJoin (o : UJ) (s : State) : Out :=
  issue (.join o) noPre joinReady (fun x s =>
    match s.party? x.w.core with
    | none => .stall
    | some p =>
      let st := p.strand x.w.strand
      let y := st.slot (otherSlot x.w.slot)
      if !st.pairLive then .fault .divstackUnderflow 0
      else if y.em = 0 ∨ (y.st = .atJoin ∧ y.pc = x.pc) then
        let (p1, k) := p.completeJoin x.w.strand x.pc 65
        .ok (s.setParty x.w.core p1) (some { x.w with slot := k })
      else if y.st = .atJoin then .fault .joinMismatch (y.pc.setWidth 64)
      else
        .ok (s.setParty x.w.core (p.modSlot x.w fun l => { l with st := .atJoin, pc := x.pc })) none) s

-- barriers (R140-R143, R166)

def Barrier.expect (b : Barrier) : Nat := b.count + (if b.seq then 1 else 0)
def Party.bar (p : Party) (n : Nat) : Barrier := p.bars[n]?.getD ⟨0, 0, false, 0, false⟩
def Party.setBar (p : Party) (n : Nat) (b : Barrier) : Party := { p with bars := p.bars.setIfInBounds n b }

/-- An acquire or release that later accesses of the strand wait for; a wait already held is widened. -/
def Strand.addFence (st : Strand) (f : FenceWait) : Strand :=
  { st with fence := some (match st.fence with
    | none => f
    | some g => ⟨g.kind ||| f.kind, max g.cover f.cover, max g.upTo f.upTo, g.cmds || f.cmds, g.slots ++ f.slots⟩) }

/-- A waiter of barrier n is released and performs the acquire of R143. -/
def Strand.releaseBar (st : Strand) (n upTo : Nat) : Strand :=
  [SlotId.a, SlotId.b].foldl (fun st k =>
    match (st.slot k).wait with
    | .bar m _ => if m = n then (st.modSlot k fun l => { l with wait := .none }).addFence ⟨1, 1, upTo, false, [k]⟩ else st
    | _ => st) st

/-- R142: one arrival at barrier n. The last of a phase increments PHASE, reloads PEND and releases the waiters. -/
def Party.arrive (p : Party) (n upTo : Nat) : Party :=
  let b := p.bar n
  if b.pend ≤ 1 then
    let p1 := p.setBar n { b with phase := b.phase + 1, pend := b.expect, seqWait := false }
    (List.range 16).foldl (fun p i => p.modStrand i (·.releaseBar n upTo)) p1
  else p.setBar n { b with pend := b.pend - 1 }

/-- Every earlier access of the strand has settled (R143, R503). -/
def Party.settled (p : Party) (i : Nat) : Bool := !p.accesses.any fun a => a.strand == i
def settledReady (x : Ctx) (s : State) : Bool :=
  ((s.party? x.w.core).any fun p => p.settled x.w.strand)
    && !s.packets.any fun k => k.core == x.w.core && k.strand == x.w.strand && k.mem.core == x.w.core && k.mem.inScratch

def execBar (o : UI) (s : State) : Out :=
  let n := o.imm.toNat % 16
  issue (.bar o) (fun _ p => if (p.bar n).expect = 0 then some .illegalOperand else none) settledReady (fun x s =>
    .ok (s.modParty x.w.core fun p =>
      (p.modSlot x.w fun l => { l with wait := .bar n x.pc }).arrive n s.nextId) (some x.w)) s

-- waits (R167-R169)

/-- R167. SLEEP #n that issues in cycle t may issue again in cycle t + 16 n, SLEEP #0 in t + 1 (DEDUCED, log entry 115). -/
def execSleep (o : UI) (s : State) : Out :=
  issue (.sleep o) noPre always (fun x s =>
    if o.imm = 0 then .ok s (some x.w)
    else
      .ok ((s.modSlot x.w fun l => { l with wait := .sleep (s.now + 16 * o.imm.toNat) x.pc }).post (.sleepExpiry x.w))
        (some x.w)) s
/-- The end of a sleep (R167): an event of the agenda, which waits until its cycle comes. -/
def execSleepExpiry (o : SlotRef) (s : State) : Out :=
  match (s.slotOf o).wait with
  | .sleep till _ => if till ≤ s.now then .next (s.modSlot o Slot.wake) else .next (s.post (.sleepExpiry o))
  | _ => .next s
/-- R168. -/
def execYield (o : UJ) (s : State) : Out :=
  issueParty (.yield o) (fun x p => p.modSlot x.w fun l =>
    { l with laneAt := l.uniAt, accAt := l.uniAt }) s
def execNop (o : UJ) (s : State) : Out := issueParty (.nop o) (fun _ p => p) s
def execWaitf (o : UR) (s : State) : Out := issueParty (.waitf o) (fun _ p => p) s

-- traps and returns (R176-R178)

/-- R176: the record of TRAP and BRK names the slot's active lanes. -/
def Ctx.trapInfo (x : Ctx) (l : Slot) (c : Cause) : TrapInfo :=
  ⟨c, x.pc, x.words, lowLane l.m0, l.m0, 0, ⟨0, 0⟩, x.next, false⟩
def raise (i : Instr) (c : Cause) (s : State) : Out :=
  issue i noPre always (fun x s => .trap (x.trapInfo (s.slotOf x.w) c) s) s
def execTrap (o : UI) (s : State) : Out := raise (.trap o) (.trap (o.imm.setWidth 5)) s
def execBrk (o : UI) (s : State) : Out := raise (.brk o) .breakpoint s

end

end Sys2Proof.Machine
end

