-- ==== Sys2Proof/Machine/Sys.lean ====
section
/-!
DEFINITION. Machine/Sys.lean: system registers, their reads, writes and the effects of writes (R171-R173, R179-R184,
R259-R263, R320, R423, R57, R141), the return from a trap (R178), the end of a strand (R114, R138, R170).
-/

namespace Sys2Proof.Machine

noncomputable section

-- values (R179-R184)

/-- R182, R183: the trap record's registers. -/
def TrapRec.tcause (r : TrapRec) : Dword :=
  0#46 ++ bit1 r.wpf ++ bit1 r.pv ++ r.partner ++ r.strand ++ bit1 (r.slot == .b) ++ r.code
def TrapRec.tlane (r : TrapRec) : Dword := 0#58 ++ bit1 r.lane.isSome ++ r.lane.getD 0
def TrapRec.tovr (r : TrapRec) : Dword := 0#3 ++ BitVec.ofNat 5 r.overCount ++ r.overPc
def Flags.bits (f : Flags) : BitVec 5 := bit1 f.n ++ bit1 f.z ++ bit1 f.c ++ bit1 f.v ++ bit1 f.ex
def Flags.ofBits (b : BitVec 5) : Flags := ⟨b.getLsbD 4, b.getLsbD 3, b.getLsbD 2, b.getLsbD 1, b.getLsbD 0⟩
def TrapRec.tstate (r : TrapRec) : Dword :=
  0#54 ++ bit1 r.olive ++ bit1 (r.hslot == .b) ++ 0#3 ++ r.flags.bits

/-- R140. -/
def Barrier.bits (b : Barrier) : Dword :=
  0#32 ++ b.phase ++ 0#6 ++ BitVec.ofNat 6 b.pend ++ 0#7 ++ bit1 b.seq ++ 0#3 ++ BitVec.ofNat 5 b.count

/-- R259. -/
def ScopeEntry.bits (e : ScopeEntry) : Dword := 0#8 ++ e.map ++ bit1 e.set ++ 0#4 ++ e.cover

/-- R261. -/
def Watch.ctl (k : Watch) : Dword :=
  k.lmask ++ 0#21 ++ k.scope ++ 0#2 ++ bit1 k.act ++ k.kind ++ bit1 k.en
def Strand.watch (st : Strand) (n : Nat) : Watch := st.wp[n]?.getD ⟨0, 2, 0, 0, false, 0, false, none, ⟨0, true, 0, []⟩, 0⟩
def Strand.setWatch (st : Strand) (n : Nat) (k : Watch) : Strand := { st with wp := st.wp.setIfInBounds n k }
def Party.scope (p : Party) (n : Nat) : ScopeEntry := p.scopes[n]?.getD ⟨0, false, 6, []⟩

/-- R181: STAT. -/
def Strand.stat (st : Strand) (priv : Bool) : Dword :=
  0#56 ++ st.partner ++ bit1 st.shd ++ bit1 st.step ++ bit1 st.inh ++ bit1 priv

/-- R173, R180: the core's logical clock value. -/
def State.clk (s : State) (core : Nat) : Dword :=
  BitVec.ofNat 64 (((s.pkg (pkgOfCore core)).era * 2 ^ 22 + (s.core core).pts) % 2 ^ 40)

/-- R179, R180: the value that SYSRD of a number gives a slot; none for an unassigned number. -/
def State.sysRead (s : State) (p : Party) (w : SlotRef) (n : Nat) : Option Dword :=
  let st := p.strand w.strand
  let r := st.trap
  if n = 0x000 then some ((st.slot w.slot).em.setWidth 64)
  else if n = 0x001 then some (0#25 ++ BitVec.ofNat 7 st.depth ++ 0#9 ++ st.dspBase ++ 0#10)
  else if n = 0x002 then some (st.stat p.priv)
  else if n = 0x003 then some (BitVec.ofNat 64 (p.index % 65536))
  else if n = 0x004 then some (BitVec.ofNat 64 w.core)
  else if n = 0x005 then some (s.clk w.core)
  else if n = 0x006 then some (BitVec.ofNat 64 (s.cyc w.core))
  else if n = 0x008 then some (p.handler.setWidth 64)
  else if n = 0x009 then some r.tcause
  else if n = 0x00A then some (r.tpc.setWidth 64)
  else if n = 0x00B then some r.tinsn
  else if n = 0x00C then some r.tlane
  else if n = 0x00D then some (r.lmask.setWidth 64)
  else if n = 0x00E then some r.addr
  else if n = 0x00F then some r.tovr
  else if n = 0x010 then some (r.tepc.setWidth 64)
  else if n = 0x011 then some (r.em ++ r.m0)
  else if n = 0x012 then some r.tstate
  else if n = 0x018 then some (st.rngseed.setWidth 64)
  else if 0x020 ≤ n ∧ n ≤ 0x027 then some ((st.fmt[n - 0x020]?.getD 0).setWidth 64)
  else if 0x028 ≤ n ∧ n ≤ 0x02B then some (0#32 ++ (st.anc[n - 0x028]?.getD 0) ++ 0#4)
  else if n = 0x02C then some (st.pitch.openN.setWidth 64)
  else if n = 0x02D then some (0#47 ++ bit1 st.pitch.err ++ st.pitch.done)
  else if n = 0x02E then some (p.flowOrd ++ p.flowOpen)
  else if 0x030 ≤ n ∧ n ≤ 0x03B then
    let k := st.watch ((n - 0x030) / 3)
    if (n - 0x030) % 3 = 0 then some (k.base.setWidth 64)
    else if (n - 0x030) % 3 = 1 then some (k.log2.setWidth 64)
    else some k.ctl
  else if 0x040 ≤ n ∧ n ≤ 0x04F then some (p.bar (n - 0x040)).bits
  else if 0x060 ≤ n ∧ n ≤ 0x07F then some (p.scope (n - 0x060)).bits
  else none

-- writes (R171, R172)

def Party.setScope (p : Party) (n : Nat) (e : ScopeEntry) : Party := { p with scopes := p.scopes.setIfInBounds n e }

/-- What a write of a system register gives: its effect; a fault with its address; a page that is not present; a home or a walk that
is not ready. -/
inductive SysOut where
  | ok (s : State)
  | bad (c : Cause) (addr : Dword)
  | missing (s : State) (va : Nat)
  | again

/-- R260: a privileged write of SCOPE7-31, whose loads read the bitmap; a fault of theirs is the write's, with its address. -/
def State.writeScope (s : State) (x : Ctx) (n : Nat) (v : Dword) : SysOut :=
  match s.party? x.w.core with
  | none => .ok s
  | some p =>
    let map := v.extractLsb' 8 48
    if map = 0 then .ok (s.setParty x.w.core (p.setScope n (launchScope n)))
    else
      match s.strandLoads x.w.core p { x.access p .load 16 with id := s.nextId } (0#8 ++ map ++ 0#8) 144 with
      | .again => .again
      | .bad _ c addr => .bad c addr
      | .got s1 bs =>
        let set := bitmapCores bs
        .ok (s1.modParty x.w.core (·.setScope n ⟨map, true, coverOf x.w.core set, set⟩))

/-- R141: a write of BARCFGn. -/
def Party.writeBar (p : Party) (n : Nat) (v : Dword) : Except Cause Party :=
  let b := p.bar n
  let count := (v.extractLsb' 0 5).toNat
  if 16 < count ∨ b.pend ≠ b.expect then .error .illegalOperand
  else
    let b1 := { b with count := count, seq := v.getLsbD 8 }
    .ok (p.setBar n { b1 with pend := b1.expect })

/-- R57: a write of RNGSEED. -/
def Strand.writeSeed (st : Strand) (v : Dword) : Strand :=
  let seed : Word := v.setWidth 32
  { st with rngseed := seed, rng := tab fun i => seedLane seed i.val }

/-- Watchpoints of the package's parties that hold comparators (R263). -/
def State.comparatorsUsed (s : State) (pkg : Nat) : Nat :=
  s.parties.foldl (fun n (c, p) => if pkgOfCore c ≠ pkg then n else
    (List.range 16).foldl (fun n i => n + ((List.range 4).filter fun k =>
      ((p.strand i).watch k).comps.isSome).length) n) 0

/-- R172: a watchpoint replaced; the accesses and commands numbered below `at_` still meet the old one. -/
def Party.replaceWatch (p : Party) (i n : Nat) (k : Watch) (at_ : Nat) : Party :=
  let old := (p.strand i).watch n
  let met (till : Nat) : Bool := (p.accesses.any fun a => decide (a.id < till)) || p.cmds.any fun c => decide (c.id < till)
  p.modStrand i fun st => { st.setWatch n k with
    pastWp := ((if old.en then [(n, old, at_)] else []) ++ st.pastWp).filter fun x => met x.2.2 }

/-- R235, R263: the translation of a watched range, as a load's: the place at the home where the range begins. -/
inductive WatchAt where
  | at_ (s : State) (level : Nat) (lo : Nat)
  | bad (c : Cause)
  | missing
  | again

/-- Where a core-backed range stands: no home slice sees it. -/
def offHome (pa : Nat) : Nat := 2 ^ 60 + pa

def State.watchedAt (s : State) (core : Nat) (p : Party) (base : Nat) : WatchAt :=
  if s.missWaits (clusterOfCore core) p.root base false p.priv then .again
  else
    match s.leafAt (p.reader core) base false with
    | .error e =>
      let c := s.walkFault p.root base true false p.priv e
      if c = .pageNotPresent then .missing else .bad c
    | .ok (s1, t) =>
      let pa := leafPa t.level t.pte base
      if !pteR t.pte || (pteP t.pte && !p.priv) then .bad .protectionRead
      else if pteMcast t.pte || (pteHome t.pte == 3 && p.movable) then .bad .attributeConflict
      else if pteHome t.pte = 3 then .at_ s1 t.level (offHome pa)
      else
        match s1.resolve pa with
        | none => .bad .homeUnreachable
        | some r =>
          if (isMmioOff (resOff r) && !p.priv) || !s1.routeUp (dieOfCore core) (homeDie r) then .bad .homeUnreachable
          else .at_ s1 t.level r

/-- R261, R263: a write of WPnCTL that issued when `at_` was the next number and `e` the entry that it names. -/
def State.writeWatch (s : State) (w : SlotRef) (n : Nat) (v : Dword) (e : ScopeEntry) (at_ : Nat) : SysOut :=
  match s.party? w.core with
  | none => .ok s
  | some p =>
    let k1 : Watch := { (p.strand w.strand).watch n with
      lmask := v.extractLsb' 32 32
      scope := v.extractLsb' 6 5
      act := v.getLsbD 3
      kind := v.extractLsb' 1 2
      en := v.getLsbD 0
      comps := none
      seen := e
      since := at_ }
    let put (s : State) (k : Watch) : State := s.modParty w.core (·.replaceWatch w.strand n k at_)
    if !k1.en || e.cover.toNat < 2 then .ok (put s k1)
    else
      let (base, len) := k1.range
      match s.watchedAt w.core p base with
      | .again => .again
      | .missing => .missing s base
      | .bad c => .bad c (BitVec.ofNat 64 base)
      | .at_ s1 level lo =>
        let off := { k1 with en := false }
        if pageBits level < k1.log2.toNat then .bad .illegalOperand 0
        else if (put s1 off).comparatorsUsed (pkgOfCore w.core) < Config.comparators then
          .ok (put s1 { k1 with comps := some (lo, len) })
        else
          .ok ((put s1 off).modStrand w fun st => { st with trap := { st.trap with wpf := true } })

/-- The scope entry that a value written to WPnCTL names (R31). -/
def Party.watchEntry (p : Party) (v : Dword) : ScopeEntry := p.entryAt (v.extractLsb' 6 5)

/-- R172: the numbers that the directory assigns. -/
def sysAssigned (n : Nat) : Bool :=
  n ≤ 0x006 || (0x008 ≤ n && n ≤ 0x012) || n == 0x018 || (0x020 ≤ n && n ≤ 0x02E) || (0x030 ≤ n && n ≤ 0x03B)
    || (0x040 ≤ n && n ≤ 0x04F) || (0x060 ≤ n && n ≤ 0x07F)

/-- R172: the write is forbidden in the current state, whatever the value. -/
def Strand.sysForbidden (st : Strand) (n : Nat) : Bool :=
  (n == 0x001 && st.pairLive)
    || ((n == 0x010 || n == 0x011 || n == 0x012) && !st.inh)
    || (0x030 ≤ n && n ≤ 0x03B && (n - 0x030) % 3 != 2 && (st.watch ((n - 0x030) / 3)).en)

/-- R171: the write of a value to a system register, with its effects. -/
def State.sysWrite (s : State) (x : Ctx) (n : Nat) (v : Dword) : SysOut :=
  let w := x.w
  let mod (f : Strand → Strand) : SysOut := .ok (s.modStrand w f)
  let trap (f : TrapRec → TrapRec) : SysOut := mod fun st => { st with trap := f st.trap }
  if n = 0x001 then mod fun st => { st with dspBase := v.extractLsb' 10 13 }
  else if n = 0x002 then mod fun st => { st with step := v.getLsbD 2 }
  else if n = 0x008 then .ok (s.modParty w.core fun p => { p with thnd := v.extractLsb' 2 54 })
  else if n = 0x009 then trap fun r => { r with wpf := r.wpf && !v.getLsbD 17 }
  else if n = 0x010 then trap fun r => { r with tepc := v.setWidth 56 }
  else if n = 0x011 then trap fun r => { r with m0 := v.setWidth 32 }
  else if n = 0x012 then trap fun r => { r with flags := Flags.ofBits (v.extractLsb' 0 5) }
  else if n = 0x018 then mod (·.writeSeed v)
  else if 0x020 ≤ n ∧ n ≤ 0x027 then mod fun st => { st with fmt := st.fmt.setIfInBounds (n - 0x020) (v.setWidth 16) }
  else if 0x028 ≤ n ∧ n ≤ 0x02B then
    mod fun st => { st with anc := st.anc.setIfInBounds (n - 0x028) (v.extractLsb' 4 28) }
  else if n = 0x02D then mod fun st => { st with pitch := { st.pitch with err := st.pitch.err && !v.getLsbD 16 } }
  else if 0x030 ≤ n ∧ n ≤ 0x03B then
    let k := (n - 0x030) / 3
    if (n - 0x030) % 3 = 0 then mod fun st => st.setWatch k { st.watch k with base := v.setWidth 56 }
    else if (n - 0x030) % 3 = 1 then
      if (v.extractLsb' 0 6).toNat < 2 ∨ 55 < (v.extractLsb' 0 6).toNat then .bad .illegalOperand 0
      else mod fun st => st.setWatch k { st.watch k with log2 := v.setWidth 6 }
    else
      match s.party? w.core with
      | none => .ok s
      | some p => s.writeWatch w k v (p.watchEntry v) s.nextId
  else if 0x040 ≤ n ∧ n ≤ 0x04F then
    match s.party? w.core with
    | none => .ok s
    | some p =>
      match p.writeBar (n - 0x040) v with
      | .error c => .bad c 0
      | .ok p1 => .ok (s.setParty w.core p1)
  else if 0x067 ≤ n ∧ n ≤ 0x07F then s.writeScope x (n - 0x060) v
  else .ok s

def execSysrd (o : UI) (s : State) : Out :=
  issue (.sysrd o) (fun _ _ => if sysAssigned o.imm.toNat then none else some .illegalOperand) always (fun x s =>
    match s.party? x.w.core with
    | none => .stall
    | some p => .ok (s.setParty x.w.core (p.dstU x.w o.d ((s.sysRead p x.w o.imm.toNat).getD 0))) (some x.w)) s

/-- R172, R141: PRIVILEGED comes first, then ILLEGAL_OPERAND, before the value is read. -/
def syswrPre (n : Nat) (x : Ctx) (p : Party) : Option Cause :=
  let b := p.bar (n - 0x040)
  if 0x067 ≤ n ∧ n ≤ 0x07F ∧ !p.priv then some .privileged
  else if !sysAssigned n || (p.strand x.w.strand).sysForbidden n || (decide (0x040 ≤ n ∧ n ≤ 0x04F) && b.pend != b.expect)
  then some .illegalOperand
  else none

/-- R144, R147: the page fault of an instruction whose own reads reach a missing page, as a uniform access. -/
def missingPage (va : Nat) : AccFault := ⟨.pageNotPresent, 0, none, BitVec.ofNat 64 va⟩

/-- A uniform value as the operand log shows it (R513). -/
def logUniform (v : Dword) : Lanes (BitVec 128) := tab fun k => if k.val = 0 then v.setWidth 128 else 0

/-- R144, R263: a SYSWR in the operand log, until the page of the range that it watches is served. -/
def Ctx.loggedWrite (x : Ctx) (p : Party) (o : UI) (v : Dword) (va id : Nat) : Access :=
  { x.access p .group 1 with
    id := id
    uniform := true
    op := some (.syswr o)
    pl2 := logUniform v
    entry := p.watchEntry v
    parts := [⟨0, BitVec.ofNat 64 va, 0, 0, 0, 0, .scratch 0, .waiting, 0, false, false⟩] }

def execSyswr (o : UI) (s : State) : Out :=
  let n := o.imm.toNat
  issue (.syswr o) (syswrPre n) always (fun x s =>
    match s.party? x.w.core with
    | none => .stall
    | some p =>
      let (v, p1) := p.srcU x.w o.a
      match (s.setParty x.w.core p1).sysWrite x n v with
      | .ok s1 => .ok s1 (some x.w)
      | .again => .stall
      | .bad c a =>
        if c = .illegalOperand then .fault c a
        else .trap { x.info { p1.slot x.w with pc := x.pc } c a with mask := 0 } (s.setParty x.w.core p1)
      | .missing _ va =>
        let a := x.loggedWrite p1 o v va s.nextId
        .ok (((s.setParty x.w.core { p1 with accesses := p1.accesses ++ [a] }).bump).logAccess x.w.core a (some (missingPage va)))
          (some x.w)) s

/-- A logged SYSWR tried again after its page was served (R144). -/
def State.retrySyswr (s : State) (core : Nat) (a : Access) : State :=
  match a.op with
  | some (.syswr o) =>
    match s.writeWatch ⟨core, a.strand, a.slot⟩ ((o.imm.toNat - 0x030) / 3) ((a.pl2[(0 : Fin 32)]).setWidth 64) a.entry a.id with
    | .ok s1 => s1.dropAccess core a.id
    | .again => s
    | .bad c addr => s.failAccess core a ⟨c, 0, none, addr⟩
    | .missing s1 va => s1.logAccess core a (some (missingPage va))
  | _ => s

/-- The logged SYSWRs of a core that are to be tried again. -/
def State.retrySyswrs (s : State) (core : Nat) : State :=
  match s.party? core with
  | none => s
  | some p =>
    (p.accesses.filter fun a => a.step == .attempt && (match a.op with | some (.syswr _) => true | _ => false)).foldl
      (fun s a => s.retrySyswr core a) s

/-- The part of a SYSWR that the table lists as a step of its own, for the slot in focus. -/
def sysEffect (n : Nat) (v : Dword) (s : State) : Out :=
  match s.focus with
  | .slot w =>
    let pc := (s.slotOf w).pc
    let trap (c : Cause) (a : Dword) : Out := .next (s.takeTrap w ⟨c, pc, ⟨0, 0⟩, none, 0, a, ⟨0, 0⟩, pc, false⟩)
    match s.sysWrite ⟨w, pc, pc, ⟨0, 0⟩⟩ n v with
    | .ok s1 => .next s1
    | .again => .next s
    | .bad c a => trap c a
    | .missing _ va => trap .pageNotPresent (BitVec.ofNat 64 va)
  | _ => .fault .noIssuer
def execRngseedWrite (o : SysValue) (s : State) : Out := sysEffect 0x018 o.value s
def execBarcfgWrite (o : SysValue) (s : State) : Out := sysEffect (0x040 + o.n % 16) o.value s
def execScopeWrite (o : SysValue) (s : State) : Out := sysEffect (0x060 + o.n % 32) o.value s
def execWpctlWrite (o : SysValue) (s : State) : Out := sysEffect (0x032 + 3 * (o.n % 4)) o.value s

def execClkrd (o : UR) (s : State) : Out :=
  issue (.clkrd o) noPre always (fun x s =>
    .ok (s.modParty x.w.core fun p => p.dstU x.w o.d (s.clk x.w.core)) (some x.w)) s

-- the return from a trap

/-- R178, R506. The ERET itself is not stepped: it issues with INH = 1 (R505). -/
def execEret (o : UJ) (s : State) : Out :=
  issue (.eret o) (fun x p => if (p.strand x.w.strand).inh then none else some .illegalOperand) always (fun x s =>
    let r := (s.strandOf x.w).trap
    let s1 := s.modStrand x.w (·.leaveHandler x.w)
    .ok (if r.stream then s1.modParty x.w.core (·.sequencerIdle) else s1) none) s

-- the end of a strand

/-- R264: a hit held for a strand that ends is pushed as a watch record. -/
def Party.dropHeld (p : Party) (i : Nat) : Party :=
  match (p.strand i).held with
  | none => p
  | some h =>
    let (w0, w1) := watchRecord (h.addr.toNat % 2 ^ 56) h.core h.strand h.kind h.wp
    (p.modStrand i fun st => { st with held := none }).notice w0 w1

/-- R114: a strand that has ended. -/
def Strand.ending (st : Strand) : Strand :=
  { st with
    live := false
    ended := true
    slots := Vector.replicate 2 Slot.dead
    fence := none
    txn := none }
def Party.endOne (p : Party) (i : Nat) : Party := (p.dropHeld i).modStrand i Strand.ending

/-- R114, R138: strand `i` ends, with its shadow and the window. -/
def Party.endStrand (p : Party) (i : Nat) : Party :=
  let p1 := p.endOne i
  if p.shadows && i < 8 then (if (p.strand (i + 8)).live then p1.endOne (i + 8) else p1).setWindow i [] else p1

def Party.anyLive (p : Party) : Bool := p.strands.any Strand.live

def execEndStrand (o : UJ) (s : State) : Out :=
  issue (.endStrand o) (fun x p => if (p.strand x.w.strand).txn.any (fun t => t.commit.isNone) then some .illegalOperand else none)
    (fun x s => ((s.party? x.w.core).any fun p =>
        p.settled x.w.strand && (!(p.shadows && decide (x.w.strand < 8)) || p.settled (x.w.strand + 8))) && !(s.strandOf x.w).txn.any fun t => t.commit.isSome)
    (fun x s =>
      match s.party? x.w.core with
      | none => .stall
      | some p =>
        if (p.strand x.w.strand).pairLive then .fault .joinMismatch 0
        else
          let p1 := p.endStrand x.w.strand
          let s1 := s.setParty x.w.core p1
          .ok (if p1.anyLive then s1 else s1.post (.partyEnd ⟨x.w.core⟩)) none) s

-- words that decode refuses and fetches that fail (R71, R91, R93, R96)

/-- A fault that the slot in focus takes with no effect, once `ready` holds (R126). -/
def refusedWord (words : Words) (ready : SlotRef → Party → Bool) (c : Ctx → Party → Cause) (inStream : Cause)
    (addr : Dword) (pc : Bool) (s : State) : Out :=
  match s.focus with
  | .none => .fault .noIssuer
  | .sequencer k => .next (s.markIssued.streamFault k inStream words addr.toNat)
  | .slot w =>
    match s.party? w.core with
    | none => .fault .noIssuer
    | some p =>
      if !(p.slotReady w && ready w p) then .next s
      else
        let l := p.slot w
        let x : Ctx := ⟨w, l.pc, l.pc, words⟩
        let t := x.info l (c x p) addr
        .next (s.markIssued.takeTrap w (if pc then { t with words := ⟨0, 0⟩, lane := none, mask := 0 } else t))

/-- A word without an opcode, or that was not fetched, has no operands to wait for. -/
def atOnce (_ : SlotRef) (_ : Party) : Bool := true

/-- R93. -/
def execIllegalOpcode (o : Words) (s : State) : Out :=
  refusedWord o atOnce (fun _ _ => .illegalOpcode) .illegalOpcode 0 false s

/-- R95: the opcodes that only the sequencer decodes. -/
def sequencerOnly (w : Word) : Bool :=
  halfBit w && ((0x68 ≤ opcodeOf w && opcodeOf w ≤ 0x6F) || (0x78 ≤ opcodeOf w && opcodeOf w ≤ 0x7D))

/-- R91, R95, R96: a stream word is ILLEGAL_OPCODE to a strand, and a write of SCOPE7-31 without the privilege is PRIVILEGED,
before they are anything else. R126: the operands that its fields name hold it as they hold any instruction. -/
def execReservedField (o : Words) (s : State) : Out :=
  refusedWord o (fun w p => sequencerOnly o.w0 || (decodeFields o.w0 o.w1).all fun j => p.operandsReady w j) (fun _ p =>
    if sequencerOnly o.w0 then .illegalOpcode
    else if o.w0.extractLsb' 24 8 = 0xE1 ∧ 0x067 ≤ (o.w0.extractLsb' 0 9).toNat ∧ (o.w0.extractLsb' 0 9).toNat ≤ 0x07F ∧ !p.priv
    then .privileged else .reservedField)
    (if streamOpcode o.w0 then .reservedField else .mstreamIllegal) 0 false s

/-- R71. -/
def execInstructionFetchFault (o : FetchFault) (s : State) : Out :=
  refusedWord ⟨0, 0⟩ atOnce (fun _ _ => o.cause) o.cause o.addr true s

end

end Sys2Proof.Machine
end

