-- ==== Sys2Proof/Machine/MemInstr.lean ====
section
/-!
DEFINITION. Machine/MemInstr.lean: the memory instructions of the strands: lane and uniform loads and stores, ordered
ones, atomics, tag instructions, fences and transactions (R84, R243-R258).
-/

namespace Sys2Proof.Machine

noncomputable section

/-- The address of each lane (R84), the base register's value, the offset operand as the log shows it. -/
structure Addresses where
  addr : Lanes Dword
  base : Dword
  off : Lanes (BitVec 128)
  deriving DecidableEq, Repr

/-- R84: the addresses of an LM or LL operand; a lane queue as the offset is popped. -/
def Party.addresses (p : Party) (w : SlotRef) (b : BitVec 5) (o : BitVec 7) (sh : Nat) : Addresses × Party :=
  if b.toNat = 25 then
    let a := p.src64 w o
    (⟨a, 0, tab fun i => (a[i]).setWidth 128⟩, p)
  else
    let (v, p1) := p.src32 w o
    let off : Lanes (BitVec 128) := tab fun i => (v[i]).setWidth 128
    if b.toNat = 24 then (⟨tab fun i => ((v[i] <<< sh : Word)).setWidth 64, 0, off⟩, p1)
    else
      let s := (p.strand w.strand).sreg b.toNat
      (⟨tab fun i => s + ((v[i]).setWidth 64 <<< sh), s, off⟩, p1)

/-- The data operand of a store or an atomic, by its width in bits. -/
def Party.dataSrc (p : Party) (w : SlotRef) (k : SrcKind) (r : BitVec 7) : Lanes (BitVec 128) × Party :=
  match k with
  | .l128 => (p.src128 w r, p)
  | .l64 => (tab fun i => ((p.src64 w r)[i]).setWidth 128, p)
  | _ =>
    let (v, p1) := p.src32 w r
    (tab fun i => (v[i]).setWidth 128, p1)

/-- R251, R253: a transaction is open, and its TCOMMIT has not issued. -/
def Strand.inTxn (st : Strand) : Bool := st.txn.any fun t => t.commit.isNone
/-- R252: instructions that an open transaction forbids. -/
def noTxn (x : Ctx) (p : Party) : Option Cause := if (p.strand x.w.strand).inTxn then some .illegalOperand else none

/-- A lane load (R243) or TAGLD (R257). -/
def laneLoad (i : Instr) (o : LM) (kind : AccKind) (size : Nat) (form : LoadForm) (s : State) : Out :=
  issue i noPre always (fun x s =>
    match s.party? x.w.core with
    | none => .stall
    | some p =>
      let (a, p1) := p.addresses x.w o.b o.o o.sh.toNat
      .ok ((s.setParty x.w.core p1).startAccess x.w.core { x.access p kind size with
        loc := o.b.toNat == 24
        form := form
        policy := o.p
        dst := (roles i).dst
        base := a.base
        pl2 := a.off
        txn := kind == .load && (p.strand x.w.strand).inTxn
        parts := laneParts (p.active x.w) fun k => (a.addr[k], 0, 0) }) (some x.w)) s

/-- A lane store (R243) or TAGST (R257). -/
def laneStore (i : Instr) (o : LM) (kind : AccKind) (size : Nat) (src : SrcKind) (s : State) : Out :=
  issue i noPre always (fun x s =>
    match s.party? x.w.core with
    | none => .stall
    | some p =>
      let (d, p1) := p.dataSrc x.w src o.r
      let (a, p2) := p1.addresses x.w o.b o.o o.sh.toNat
      .ok ((s.setParty x.w.core p2).startAccess x.w.core { x.access p kind size with
        loc := o.b.toNat == 24
        policy := o.p
        base := a.base
        pl1 := d
        pl2 := a.off
        txn := kind == .store && (p.strand x.w.strand).inTxn
        parts := laneParts (p.active x.w) fun k => (a.addr[k], (d[k]).toNat % 2 ^ (8 * size), 0) }) (some x.w)) s

def execLdb (o : LM) (s : State) : Out := laneLoad (.ldb o) o .load 1 .zext s
def execLdbs (o : LM) (s : State) : Out := laneLoad (.ldbs o) o .load 1 .sext s
def execLdh (o : LM) (s : State) : Out := laneLoad (.ldh o) o .load 2 .zext s
def execLdhs (o : LM) (s : State) : Out := laneLoad (.ldhs o) o .load 2 .sext s
def execLdw (o : LM) (s : State) : Out := laneLoad (.ldw o) o .load 4 .zext s
def execLdd (o : LM) (s : State) : Out := laneLoad (.ldd o) o .load 8 .pair s
def execLdq (o : LM) (s : State) : Out := laneLoad (.ldq o) o .load 16 .quad s
def execStb (o : LM) (s : State) : Out := laneStore (.stb o) o .store 1 .l32 s
def execSth (o : LM) (s : State) : Out := laneStore (.sth o) o .store 2 .l32 s
def execStw (o : LM) (s : State) : Out := laneStore (.stw o) o .store 4 .l32 s
def execStd (o : LM) (s : State) : Out := laneStore (.std o) o .store 8 .l64 s
def execStq (o : LM) (s : State) : Out := laneStore (.stq o) o .store 16 .l128 s
def execTagst (o : LM) (s : State) : Out := laneStore (.tagst o) o .tagStore 1 .l32 s
def execTagld (o : LM) (s : State) : Out := laneLoad (.tagld o) o .tagLoad 1 .zext s

-- uniform loads and stores (R245)

/-- R245: the address of a uniform access. -/
def uniAddr (o : UI) (size : Nat) (a : Dword) : Dword :=
  let off : Dword := (o.imm.extractLsb' 0 8).signExtend 64 * BitVec.ofNat 64 size
  if o.imm.getLsbD 8 then ((a.setWidth 32 + off.setWidth 32 : Word)).setWidth 64 else a + off

def uniLoad (i : Instr) (o : UI) (size : Nat) (s : State) : Out :=
  issue i noPre always (fun x s =>
    match s.party? x.w.core with
    | none => .stall
    | some p =>
      let (a, p1) := p.srcU x.w o.a
      .ok ((s.setParty x.w.core p1).startAccess x.w.core { x.access p .load size with
        uniform := true
        loc := o.imm.getLsbD 8
        form := .uniform
        dst := (roles i).dst
        pl2 := (splat 0).set 0 (a.setWidth 128)
        parts := [⟨0, uniAddr o size a, 0, 0, 0, 0, .scratch 0, .waiting, 0, false, false⟩] }) (some x.w)) s

def uniStore (i : Instr) (o : UI) (size : Nat) (s : State) : Out :=
  issue i noPre always (fun x s =>
    match s.party? x.w.core with
    | none => .stall
    | some p =>
      let (d, p1) := p.srcU x.w o.d
      let (a, p2) := p1.srcU x.w o.a
      .ok ((s.setParty x.w.core p2).startAccess x.w.core { x.access p .store size with
        uniform := true
        loc := o.imm.getLsbD 8
        pl1 := (splat 0).set 0 (d.setWidth 128)
        pl2 := (splat 0).set 0 (a.setWidth 128)
        parts := [⟨0, uniAddr o size a, d.toNat % 2 ^ (8 * size), 0, 0, 0, .scratch 0, .waiting, 0, false, false⟩] })
          (some x.w)) s

def execSldw (o : UI) (s : State) : Out := uniLoad (.sldw o) o 4 s
def execSldd (o : UI) (s : State) : Out := uniLoad (.sldd o) o 8 s
def execSstw (o : UI) (s : State) : Out := uniStore (.sstw o) o 4 s
def execSstd (o : UI) (s : State) : Out := uniStore (.sstd o) o 8 s

-- ordered accesses (R248-R250)

/-- R39: the release and acquire of an order field. -/
def ordRel (ord : BitVec 2) : Bool := ord.getLsbD 1
def ordAcq (ord : BitVec 2) : Bool := ord.getLsbD 0

/-- A release in the order field: the instruction is not ready until every earlier access of its strand stands as
FENCE.REL at the scope requires (R248, R249). -/
def releaseReady (ord : BitVec 2) (scope : BitVec 5) (x : Ctx) (s : State) : Bool :=
  !ordRel ord || (s.party? x.w.core).all fun p => s.fenceDone x.w.core x.w.strand ⟨2, p.cover scope, s.nextId, true, []⟩

/-- An acquire in the order field: later accesses of the strand wait for this one and those before it. -/
def State.acquireAfter (s : State) (w : SlotRef) (ord : BitVec 2) (scope : BitVec 5) : State :=
  if ordAcq ord then
    match s.party? w.core with
    | none => s
    | some p => (s.modStrand w (·.addFence ⟨1, p.cover scope, s.nextId, false, []⟩)).settleFences w.core
  else s

/-- Bytes of an LL width (R85). -/
def wdBytes (wd : BitVec 2) : Nat := if wd = 0 then 4 else if wd = 1 then 8 else 16
def wdForm (wd : BitVec 2) : LoadForm := if wd = 0 then .zext else if wd = 1 then .pair else .quad

/-- R248. -/
def execAtom (o : LL) (s : State) : Out :=
  let size := wdBytes o.wd
  issue (.atom o) noTxn (releaseReady o.ord o.scope) (fun x s =>
    match s.party? x.w.core with
    | none => .stall
    | some p =>
      let (d, p1) := if atomReadsA o.fn then p.dataSrc x.w (wdSrc o.wd) o.a else (splat 0, p)
      let (a, p2) := p1.addresses x.w o.b o.o 0
      let (e, p3) := if atomReadsC o.fn then p2.dataSrc x.w (wdSrc o.wd) o.c else (splat 0, p2)
      let s1 := (s.setParty x.w.core p3).startAccess x.w.core { x.access p .atomic size with
        loc := o.b.toNat == 24
        form := wdForm o.wd
        fn := o.fn
        ord := o.ord
        dst := (roles (.atom o)).dst
        base := a.base
        pl1 := d
        pl2 := a.off
        pl3 := e
        parts := laneParts (p.active x.w) fun k => (a.addr[k], (d[k]).toNat, (e[k]).toNat) }
      .ok (s1.acquireAfter x.w o.ord o.scope) (some x.w)) s

/-- R244, R249: the policy that fn names. -/
def ldoPolicy (fn : BitVec 6) : BitVec 2 := fn.setWidth 2

/-- R249. -/
def execLdo (o : LL) (s : State) : Out :=
  issue (.ldo o) noTxn always (fun x s =>
    match s.party? x.w.core with
    | none => .stall
    | some p =>
      let (a, p1) := p.addresses x.w o.b o.o 0
      let s1 := (s.setParty x.w.core p1).startAccess x.w.core { x.access p .load (wdBytes o.wd) with
        loc := o.b.toNat == 24
        form := wdForm o.wd
        policy := ldoPolicy o.fn
        ord := o.ord
        dst := (roles (.ldo o)).dst
        base := a.base
        pl2 := a.off
        parts := laneParts (p.active x.w) fun k => (a.addr[k], 0, 0) }
      .ok (s1.acquireAfter x.w o.ord o.scope) (some x.w)) s

/-- R249. -/
def execSto (o : LL) (s : State) : Out :=
  issue (.sto o) noTxn (releaseReady o.ord o.scope) (fun x s =>
    match s.party? x.w.core with
    | none => .stall
    | some p =>
      let size := wdBytes o.wd
      let (d, p1) := p.dataSrc x.w (wdSrc o.wd) o.a
      let (a, p2) := p1.addresses x.w o.b o.o 0
      .ok ((s.setParty x.w.core p2).startAccess x.w.core { x.access p .store size with
        loc := o.b.toNat == 24
        policy := ldoPolicy o.fn
        ord := o.ord
        base := a.base
        pl1 := d
        pl2 := a.off
        parts := laneParts (p.active x.w) fun k => (a.addr[k], (d[k]).toNat % 2 ^ (8 * size), 0) }) (some x.w)) s

/-- R250, R277: FENCE.CLK advances the clock; the others hold the strand's later accesses until they are satisfied. -/
def execFence (o : UI) (s : State) : Out :=
  let kind := o.imm.extractLsb' 5 2
  let scope := o.imm.extractLsb' 0 5
  issue (.fence o) noTxn always (fun x s =>
    match s.party? x.w.core with
    | none => .stall
    | some p =>
      if kind = 0 then .ok (s.tick x.w.core (s.pkg (pkgOfCore x.w.core)).lease) (some x.w)
      else .ok ((s.modStrand x.w (·.addFence ⟨kind, p.cover scope, s.nextId, true, []⟩)).settleFences x.w.core) (some x.w)) s

-- transactions (R251-R255)

/-- R251. A TCOMMIT that has not written back holds a new TBEGIN. -/
def execTbegin (o : LR) (s : State) : Out :=
  issue (.tbegin o) noTxn (fun x s => !(s.strandOf x.w).txn.any fun t => t.commit.isSome) (fun x s =>
    .ok (s.modParty x.w.core fun p => p.modStrand x.w.strand fun st =>
      { st with txn := some ⟨p.active x.w, splat ⟨[], [], 0⟩, x.pc, none, 0⟩ }) (some x.w)) s

/-- R255. -/
def execTcancel (o : LR) (s : State) : Out :=
  issueParty (.tcancel o) (fun x p => p.modStrand x.w.strand fun st =>
    { st with txn := st.txn.map fun t =>
        if t.commit.isSome then t
        else
          let gone := p.active x.w
          { t with
            members := t.members &&& ~~~gone
            lanes := tab fun i => if inMask gone i then ⟨[], [], 0⟩ else t.lanes[i] } }) s

/-- R254: one lane settled against the lower surviving lanes. -/
def Txn.conflicts (t : Txn) (i j : Fin 32) : Bool :=
  let a := t.lanes[i]
  let b := t.lanes[j]
  let touch (l : TxnLane) (line : Nat) : Bool := l.reads.any (·.1 == line) || l.writes.any (·.1 == line)
  a.writes.any (fun w => touch b w.1) || b.writes.any (fun w => touch a w.1)

/-- R254: the failures that TCOMMIT finds inside the strand; lanes outside `act` fail. -/
def Txn.settle (t : Txn) (act : Word) : Txn :=
  laneList.foldl (fun t i =>
    let l := t.lanes[i]
    if !inMask t.members i || l.code != 0 then t
    else if !inMask act i || laneList.any (fun j => j.val < i.val && inMask t.members j && (t.lanes[j]).code == 0
        && t.conflicts i j) then
      { t with lanes := t.lanes.set i.val { l with code := 1, writes := [] } }
    else t) t

/-- R254: the members that have not failed. -/
def Txn.survivors (t : Txn) : Word := maskOf fun i => inMask t.members i && (t.lanes[i]).code == 0

/-- R255: the failure record. -/
def Txn.failRecord (t : Txn) (pc : Pc) (passed : Word) : Dword × Dword :=
  (1#8 ++ pc, laneList.foldl (fun w i =>
    let code : BitVec 2 := if inMask t.members i && !inMask passed i then (t.lanes[i]).code else 0
    w ||| (code.setWidth 64 <<< (2 * i.val))) 0)

/-- R254. The loads of the transaction have returned when TCOMMIT issues. -/
def execTcommit (o : LC) (s : State) : Out :=
  issue (.tcommit o) noPre (fun x s => settledReady x s && !(s.strandOf x.w).txn.any fun t => t.commit.isSome)
    (fun x s =>
      let w := x.w
      match (s.strandOf w).txn with
      | none => .ok (s.produce w [112 + o.md.toNat] (.mask o.md.toNat 0) none) (some w)
      | some t =>
        let t1 := { t.settle (s.slotOf w).m0 with commit := some o.md, pc := x.pc }
        let s1 := s.modStrand w fun st => { st.setFull false (112 + o.md.toNat) with txn := some t1 }
        .ok (s1.post (.transactionCommitStep ⟨w.core, w.strand, none⟩)) (some w)) s

-- TAGFILL (R258)

def execTagfill (o : UL) (s : State) : Out :=
  issue (.tagfill o) noPre always (fun x s =>
    match s.party? x.w.core with
    | none => .stall
    | some p =>
      let a := (p.srcU x.w o.a).1
      let b := (p.srcU x.w o.b).1
      let aligned := a.toNat % 32 = 0 ∧ b.toNat % 32 = 0
      if aligned ∧ 2 ^ 48 ≤ b.toNat then .fault .illegalOperand 0
      else if aligned ∧ b = 0 then .ok s (some x.w)
      else
        .ok (s.startAccess x.w.core { x.access p .tagFill 1 with
          uniform := true
          pl2 := (splat 0).set 0 (a.setWidth 128)
          pl3 := (splat 0).set 0 (b.setWidth 128)
          parts := [⟨0, a, b.toNat, w1 o 3 0, 0, 0, .scratch 0, .waiting, 0, false, false⟩] }) (some x.w)) s

end

end Sys2Proof.Machine
end

