-- ==== Sys2Proof/Machine/MemEvents.lean ====
section
/-!
DEFINITION. Machine/MemEvents.lean: what happens between an access's issue and its end: write-backs, page walks, requests
and responses, stores and atomics at their homes, commits, core-backed accesses, poison, drift and rebases
(R131, R225-R232, R269-R286), and the delivery of traps that wait (R174, R237, R264).
-/

namespace Sys2Proof.Machine

noncomputable section

-- write-backs (R131, R134, R138)

/-- A fetched result of an earlier FETCH of the same slot is still to come (R134: EX follows the FETCHes in order). -/
def Party.olderFetch (p : Party) (id strand : Nat) (slot : SlotHome) : Bool :=
  p.producers.any fun (j, q) => j < id && q.strand == strand &&
    (match q.res with
    | .fetched _ x _ _ => x == slot
    | _ => false)

/-- A result written whole, whatever the active mask is now. -/
def Party.writeResult (p : Party) (strand id : Nat) (r : Result) : Party :=
  match r with
  | .lanes r m v =>
    if r < 88 then p.modStrand strand (·.setVIn m r v)
    else if 112 < r ∧ r < 120 then
      p.modStrand strand fun st =>
        st.setM (r - 112) (maskOf fun i => if inMask m i then v[i].getLsbD 0 else inMask (st.mreg (r - 112)) i)
    else p
  | .pairs r m v =>
    p.modStrand strand fun st =>
      (st.setVIn m r (tab fun i => v[i].extractLsb' 0 32)).setVIn m (r + 1) (tab fun i => v[i].extractLsb' 32 32)
  | .quads r m v =>
    p.modStrand strand fun st => [0, 1, 2, 3].foldl (fun st k =>
      st.setVIn m (r + k) (tab fun i => v[i].extractLsb' (32 * k) 32)) st
  | .mask m v => p.modStrand strand (·.setM m v)
  | .uniform spec slot v => p.dstHome strand slot spec v
  | .fetched spec slot v ex => (p.dstHome strand slot spec v).exHome strand slot ex (p.exAfter id strand slot)
  | .batch _ _ _ => p
  | .nothing => p

/-- R407: the end of a FETCHB: it waits, or its batch is claimed and its handle written. -/
def State.finishBatch (s : State) (o : CoreItem) (q : Producer) (spec : BitVec 7) (slot : SlotHome)
    (off : Nat) : State :=
  match s.claimBatch o.core off with
  | none => s.post (.producerWriteback o)
  | some (v, s1) => s1.modParty o.core fun p =>
    let p1 := { p with producers := serase o.id p.producers }.dstHome q.strand slot spec v
    let p2 := match slot with
      | .live x => p1.modSlot ⟨o.core, q.strand, x⟩ fun l => { l with exPending := p1.exAfter o.id q.strand slot }
      | .pushed _ => p1
    p2.modStrand q.strand (·.setFulls true q.marks)

def execProducerWriteback (o : CoreItem) (s : State) : Out :=
  match s.party? o.core with
  | none => .next s
  | some p =>
    match kget p.producers o.id with
    | none => .next s
    | some q =>
      match q.res with
      | .batch spec slot off =>
        if (p.strand q.strand).live then .next (s.finishBatch o q spec slot off)
        else .next (s.setParty o.core { p with producers := serase o.id p.producers })
      | _ =>
      let wait := match q.res with
        | .fetched _ x _ _ => p.olderFetch o.id q.strand x
        | _ => false
      if wait || decide (s.now < q.due) then .next (s.post (.producerWriteback o))
      else
        let p1 := { p with producers := serase o.id p.producers }
        .next (s.setParty o.core
          ((p1.writeResult q.strand o.id q.res).modStrand q.strand (·.setFulls true q.marks)))

-- page walks (R225-R232)

def execPageWalk (o : WalkReq) (s : State) : Out :=
  if s.missHeld o.cluster o.root o.va.toNat then .next (s.post (.pageWalk o))
  else
    let (s1, bad) := { s with walks := s.walks.erase o }.serveMiss o.cluster o.root o.va.toNat o.write
    let s2 := match bad with
      | none => s1
      | some c => { s1 with walkFails := ⟨o.cluster, o.root, o.va.toNat / 65536, o.write, c⟩ :: s1.walkFails }
    .next (s2.pumpCluster o.cluster)

-- reads (R269, R270, R284)

/-- R266: the line that the event names leaves L2 to make room. -/
def State.makeRoom (s : State) (evict : Option Nat) : State :=
  match evict with
  | none => s
  | some l => s.evictLine l

/-- R229: the line of a request is reached through the leaf of the access that asks. -/
def State.touchedBy (s : State) (core acc line : Nat) : State :=
  match ((s.access? core acc).bind fun a => a.parts.find? fun q => q.place == .global line).map LanePart.pte with
  | some pte => s.touchLine core pte line
  | none => s

def execReadRequest (o : ReadReq) (s : State) : Out :=
  if s.locked o.line then .next (s.post (.readRequest o))
  else
    let s1 := (s.makeRoom o.evict).touchedBy o.core o.acc o.line
    let (s2, mode, wts, rts) := s1.homeRead o.core o.line o.mode o.pts
    let data := if mode = .ts ∧ o.named = some wts then none else some (s1.homeData o.line)
    .next (s2.fromHome o.core o.line (.readResponse ⟨o.core, o.acc, o.line, mode, wts, rts, data, s1.linePoison o.line,
      s1.lineTags o.line⟩))

/-- The lanes that wait for a line take its data; a transaction's lanes record it (R252). -/
def State.deliverLine (s : State) (core : Nat) (a : Access) (line : Nat) (d : BitVec 1024) (psn : BitVec 4)
    (tags : BitVec 16) (wts : Nat) : State × Access :=
  let w : SlotRef := ⟨core, a.strand, a.slot⟩
  let (bm, bd) := (s.core core).buffered line
  let tags := (s.core core).tagsOver line tags
  a.parts.foldl (fun (acc : State × Access) q =>
    if q.step = .sent ∧ q.place = .global line then
      let (s, a) := acc
      let st := s.strandOf w
      let (om, od) := if st.txnLane a q.lane then st.txnOwn q.lane line else (0, 0)
      let ovr := mergeLine (mergeLine d bd bm) od om
      let s1 := if st.txnLane a q.lane && modeOf core q.pte q.pa == .ts then s.modStrand w (·.txnRead q.lane line wts) else s
      (s1, a.gotLine q.lane ovr psn (bm ||| om) (some tags))
    else acc) (s, a)

/-- R270, R244: the core's copy after a response to an access; none where the translation has ended meanwhile (R234). -/
def State.fillCopy (s : State) (o : ReadResp) (a : Access) (q : LanePart) : State :=
  let root := ((s.party? o.core).map Party.root).getD 0
  match o.data with
  | none =>
    let s1 := s.modCore o.core fun k => { k with l1 := k.l1.map fun l =>
      if l.line = o.line ∧ l.wts = o.wts then { l with rts := max l.rts o.rtsCopy } else l }
    if a.noFill then s1 else s1.modCore o.core (·.retag o.line root (q.va / 128) q.pte)
  | some d =>
    if a.noFill then s
    else s.installCopy o.core o.mode (a.policy == 1)
      ⟨o.line, root, q.va / 128, q.pte, o.wts, o.rtsCopy, d, o.tags, o.poison⟩

def execReadResponse (o : ReadResp) (s : State) : Out :=
  let s0 := if remoteTo o.core (lineAddr o.line) then s else s.foldPts o.core o.wts
  match s0.access? o.core o.acc with
  | none => .next s0
  | some a =>
    match a.parts.find? fun q => q.step == .sent && q.place == .global o.line with
    | none => .next (s0.pump o.core)
    | some q =>
      let s1 := s0.fillCopy o a q
      let data := match o.data with
        | some d => some d
        | none => ((s1.core o.core).copy o.line).map L1Line.data
      match data with
      | none =>
        .next (s1.toHome o.core o.line (.readRequest ⟨o.core, o.acc, o.line, o.mode, (s1.core o.core).pts, none, none⟩))
      | some d =>
        let (s2, a1) := s1.deliverLine o.core a o.line d o.poison o.tags o.wts
        let s3 := if o.mode = .si then s2.staleLine (pkgOfCore o.core) o.line else s2
        .next (((s3.setAccess o.core a1).finishAccess o.core a1).pump o.core)

-- stores (R241, R271)

def execStoreDrain (o : CoreItem) (s : State) : Out :=
  let k := s.core o.core
  match kget k.sb o.id with
  | none => .next s
  | some e =>
    if e.sent then .next s
    else if (s.pkg (pkgOfCore o.core)).paused then .next (s.post (.storeDrain o))
    else if (k.sb.takeWhile (·.1 != o.id)).any fun x => x.2.line == e.line then .next (s.post (.storeDrain o))
    else
      let s1 := s.modCore o.core fun k => { k with sb := k.sb.map fun x =>
        if x.1 = o.id then (x.1, { x.2 with sent := true }) else x }
      .next (s1.toHome o.core e.line (.homeStore ⟨o.core, o.id, e.line, e.mask, e.data, e.tagMask, e.tags,
        if e.remote then 0 else k.pts, none, none, 0⟩))

/-- R256: the granule tags that a store sets. -/
def State.writeTags (s : State) (line : Nat) (mask : BitVec 4) (tags : BitVec 16) : State :=
  [0, 1, 2, 3].foldl (fun s k =>
    if mask.getLsbD k then s.setTag (4 * line + k) (tags.extractLsb' (4 * k) 4) else s) s

/-- R286: the poison of a line's sectors once a store has written the bytes of a mask. -/
def storedPoison (psn : BitVec 4) (mask : BitVec 128) : BitVec 4 :=
  [0, 1, 2, 3].foldl (fun n k => if mask.extractLsb' (32 * k) 32 = BitVec.allOnes 32 then n &&& ~~~(1#4 <<< k) else n) psn

/-- A store applied at its home, with its stamps; the new wts (R271, R286). -/
def State.applyStore (s : State) (core line : Nat) (mask : BitVec 128) (data : BitVec 1024) (tagMask : BitVec 4)
    (tags : BitVec 16) (pts : Nat) : State × Nat :=
  if isMmioOff (resOff (lineAddr line)) then (s.mmioWrite core line mask data, 0)
  else
    let s1 := ((s.writeLine line mask data).clearPoison line mask).writeTags line tagMask tags
    let upd (c : RemoteCopy) : RemoteCopy :=
      if c.pkg = pkgOfCore core ∧ c.line = line then
        { c with
          data := mergeLine c.data data mask
          tags := mergeTags c.tags tags tagMask
          poison := storedPoison c.poison mask }
      else c
    ({ s1 with remotes := s1.remotes.map upd }.staleLine (pkgOfCore core) line).stampWrite line pts

/-- R285: sectors of a line become poisoned at its home. -/
def State.poisonSectors (s : State) (line : Nat) (bad : BitVec 4) : State :=
  [0, 1, 2, 3].foldl (fun s j => if bad.getLsbD j then s.setPoison (4 * line + j) true else s) s

/-- The leaf through which a store was made. -/
def State.storeLeaf (s : State) (o : StoreMsg) : Dword :=
  match o.seg with
  | none => ((kget (s.core o.core).sb o.sb).map SbEntry.pte).getD 0
  | some (c, g) =>
    let seg := ((s.party? o.core).bind fun p => p.cmds.find? (·.id == c)).bind fun x => x.segs.find? (·.id == g)
    (seg.bind Segment.out).elim 0 LineOut.pte

/-- A store at its home, in its turn (R284, R438); a segment's write brings poison too (R326). -/
def execHomeStore (o : StoreMsg) (s : State) : Out :=
  if s.locked o.line || s.notInTurn o.core o.line (.homeStore o) then .next (s.post (.homeStore o))
  else
    let s0 := (s.makeRoom o.evict).touchLine o.core (s.storeLeaf o) o.line
    let (s1, t) := s0.applyStore o.core o.line o.mask o.data o.tagMask o.tags o.pts
    .next ((s1.poisonSectors o.line o.psn).fromHome o.core o.line (.storeAcknowledgement ⟨o.core, o.sb, o.line, t, o.seg⟩))

/-- R271, R279: the issuing core's copy takes the stored bytes. -/
def State.updateCopy (s : State) (core line : Nat) (mask : BitVec 128) (data : BitVec 1024) (tagMask : BitVec 4)
    (tags : BitVec 16) (wts : Nat) : State :=
  s.modCore core fun k => { k with l1 := k.l1.map fun l =>
    if l.line = line then
      { l with
        data := mergeLine l.data data mask
        tags := mergeTags l.tags tags tagMask
        poison := storedPoison l.poison mask
        wts := if pteCoh l.pte = 1 then l.wts else wts
        rts := if pteCoh l.pte = 1 then l.rts else wts }
    else l }

/-- A buffered store is acknowledged. -/
def State.storeAcked (s : State) (o : StoreAck) : State :=
  match kget (s.core o.core).sb o.sb with
  | none => s
  | some e =>
    let s1 := s.updateCopy o.core o.line e.mask e.data e.tagMask e.tags o.wts
    let s2 := s1.modCore o.core fun k => { k with sb := serase o.sb k.sb }
    let s3 := if e.remote then s2 else s2.foldPts o.core o.wts
    (s3.recordsAcked (dieOfCore o.core) e.recs).pump o.core

-- atomics (R247, R248, R272)

/-- R247, R272: an atomic step at the home of a resolved address: the old value, none where it is poisoned and nothing is
written, and the wts. -/
def State.atomicHome (s : State) (core r : Nat) (fn : BitVec 6) (wide : Bool) (x y : Dword) (pts : Nat) :
    State × Option Nat × Nat :=
  let line := lineOf r
  let size := if wide then 8 else 4
  if sget false s.poison (r / 32) then (s, none, (s.stamps line).wts)
  else
    let old := if !regWidthOk r size then 0 else if isMmioOff (resOff r) then s.mmioRead r size else s.readMem r size
    let new := atomStep fn wide old (x.toNat % 2 ^ (8 * size)) (y.toNat % 2 ^ (8 * size))
    let (s1, t) := match if regWidthOk r size then new else none with
      | some v => s.applyStore core line (byteMask (r % 128) size) (atByte (r % 128) v) 0 0 pts
      | none => if isMmioOff (resOff r) then (s, 0) else s.stampWrite line pts
    (s1, some old, t)

/-- In its turn (R438) the home compares the pointer's tag with the granule's, and then performs the step (R235, R256). -/
def execAtomicRequest (o : AtomMsg) (s : State) : Out :=
  let line := lineOf o.pa
  if s.locked line || s.notInTurn o.core line (.atomicRequest o) then .next (s.post (.atomicRequest o))
  else
    let s0 := s.touchedBy o.core o.acc line
    if (s.access? o.core o.acc).any fun a => a.parts.any fun q => q.lane == o.lane && q.strays (s.lineTags line) then
      .next (s0.fromHome o.core line (.atomicResponse ⟨o.core, o.acc, o.lane, line, some 0, (s0.stamps line).wts, true⟩))
    else
      let (s1, old, t) := s0.atomicHome o.core o.pa o.fn o.wide o.x o.y o.pts
      .next (s1.fromHome o.core line (.atomicResponse ⟨o.core, o.acc, o.lane, line, old.map (BitVec.ofNat 64), t, false⟩))

def execAtomicResponse (o : AtomResp) (s : State) : Out :=
  let s0 := if remoteTo o.core (lineAddr o.line) then s else s.foldPts o.core o.wts
  match s0.access? o.core o.acc with
  | none => .next s0
  | some a =>
    let a1 := a.modPart o.lane fun q =>
      { q with step := .done, old := (o.old.getD 0).toNat, poisoned := o.old.isNone, mistag := o.mistag }
    .next (((s0.setAccess o.core a1).finishAccess o.core a1).pump o.core)

-- commits (R283)

/-- The lines that the surviving lanes write, in ascending order. -/
def Txn.writeLines (t : Txn) : List Nat :=
  (laneList.filter (inMask t.survivors)).foldl (fun acc i => (t.lanes[i]).writes.foldl (fun acc w =>
    if acc.contains w.1 then acc else (acc.takeWhile (· < w.1)) ++ [w.1] ++ (acc.dropWhile (· < w.1))) acc) []

/-- R283 step 2: the commit time. -/
def State.commitTime (s : State) (core : Nat) (t : Txn) : Nat :=
  let reads := (laneList.filter (inMask t.survivors)).foldl (fun m i => (t.lanes[i]).reads.foldl (fun m r => max m (r.2.getD 0)) m)
    (s.core core).pts
  t.writeLines.foldl (fun m l => max m ((s.stamps l).rts + 1)) reads

/-- R283 step 3: one surviving lane validated at the homes. -/
def State.validateLane (s : State) (me ct : Nat) (l : TxnLane) : State × Bool :=
  l.reads.foldl (fun (acc : State × Bool) r =>
    let (s, ok) := acc
    let x := s.stamps r.1
    let other := x.lock.any (· != me)
    if some x.wts != r.2 || (other && x.rts < ct) then (s, false)
    else (if x.rts < ct then s.setStamps r.1 { x with rts := ct } else s, ok)) (s, true)

/-- R283 step 4: a lane that passed applies its writes at the commit time. -/
def State.applyLane (s : State) (core ct : Nat) (l : TxnLane) : State :=
  l.writes.foldl (fun s w =>
    let s1 := (s.writeLine w.1 w.2.1 w.2.2).clearPoison w.1 w.2.1
    let s2 := s1.setStamps w.1 { s1.stamps w.1 with wts := ct, rts := ct }
    s2.updateCopy core w.1 w.2.1 w.2.2 0 0 ct) s

/-- R283 step 5: every line that a commit holds is unlocked. -/
def State.unlockAll (s : State) (me : Nat) : State :=
  { s with l2 := s.l2.map fun ((l, x) : Nat × L2Line) => (l, if x.lock = some me then { x with lock := none } else x) }

/-- R283 steps 2 to 5, and the write-back of TCOMMIT. -/
def State.commit (s : State) (w : SlotRef) (t : Txn) (md : BitVec 3) : State :=
  let me := w.core * 16 + w.strand
  let ct := s.commitTime w.core t
  let (s1, t1) := laneList.foldl (fun (acc : State × Txn) i =>
    let (s, t) := acc
    if inMask t.survivors i then
      let (s1, ok) := s.validateLane me ct t.lanes[i]
      if ok then (s1.applyLane w.core ct t.lanes[i], { t with passed := t.passed ||| (1#32 <<< i.val) })
      else (s1, { t with lanes := t.lanes.set i.val { t.lanes[i] with code := 1, writes := [] } })
    else acc) (s, t)
  let s2 := s1.unlockAll me
  let s3 := if t.survivors = 0 then s2 else s2.foldPts w.core ct
  let (w0, w1) := t1.failRecord t1.pc t1.passed
  let s4 := if t1.passed = t1.members then s3 else s3.modParty w.core (·.notice w0 w1)
  (s4.modStrand w fun st => { st with txn := none }).produce w [112 + md.toNat] (.mask md.toNat t1.passed) none

/-- The lines that the surviving lanes have read. -/
def Txn.readLines (t : Txn) : List Nat :=
  (laneList.filter (inMask t.survivors)).flatMap fun i => (t.lanes[i]).reads.map Prod.fst

/-- R18, R237: the homes of a commit have come out of reach: its writes are stores that have settled (log entry 107). -/
def State.commitLost (s : State) (o : StrandRef) (line : Nat) : State :=
  let s1 := (s.unlockAll (o.core * 16 + o.strand)).modStrand ⟨o.core, o.strand, .a⟩ fun st => { st with txn := none }
  match s1.party? o.core with
  | none => s1
  | some p =>
    let x := (p.strand o.strand).receiver
    s1.takeTrap ⟨o.core, o.strand, x⟩
      (receivedInfo .machineCheck (p.resumePc ((p.strand o.strand).slot x)) ⟨0, 0⟩ (BitVec.ofNat 64 (lineAddr line)) false)

/-- R283: a commit locks a line. -/
def State.lockLine (s : State) (me l : Nat) : State := s.setStamps l { s.stamps l with lock := some me }

/-- R283: one step of a commit at its core: the next of its write lines is locked, in ascending order, once the strand's buffered stores
to them have reached their homes; when all are, it commits. A line whose home is on another die is locked by a message (R431,
R436). A commit that holds no line yet waits out a pause (R280). -/
def State.commitStep (s : State) (core strand : Nat) : State :=
  let w : SlotRef := ⟨core, strand, .a⟩
  let me := core * 16 + strand
  let next : Instr := .transactionCommitStep ⟨core, strand, none⟩
  match (s.strandOf w).txn with
  | none => s.unlockAll me
  | some t =>
    match t.commit with
    | none => s
    | some md =>
      let lines := t.writeLines
      match (lines ++ t.readLines).find? fun l => !s.routeUp (dieOfCore core) (homeDie (lineAddr l)) with
      | some l => s.commitLost ⟨core, strand⟩ l
      | none =>
        match lines.find? fun l => (s.stamps l).lock != some me with
        | none => s.commit w t md
        | some l =>
          let starts := !s.l2.any fun x => x.2.lock == some me
          let buffered := lines.any fun k => (s.core core).sb.any fun x => x.2.line == k && x.2.strand == strand
          if starts && ((s.pkg (pkgOfCore core)).paused || buffered) then s.post next
          else if homeDie (lineAddr l) != dieOfCore core then s.toHome core l (.transactionCommitStep ⟨core, strand, some l⟩)
          else if s.locked l then s.post next
          else (s.lockLine me l).post next

/-- The message of such a step at the line's home: it waits while another commit holds the line; the answer takes the commit on. -/
def State.commitAtHome (s : State) (core strand l : Nat) : State :=
  let live := (s.strandOf ⟨core, strand, .a⟩).txn.any fun t => t.commit.isSome
  let answer : Instr := .transactionCommitStep ⟨core, strand, none⟩
  if !live then s.fromHome core l answer
  else if s.locked l then s.post (.transactionCommitStep ⟨core, strand, some l⟩)
  else (s.lockLine (core * 16 + strand) l).fromHome core l answer

def execTransactionCommitStep (o : CommitStep) (s : State) : Out :=
  match o.line with
  | none => .next (s.commitStep o.core o.strand)
  | some l => .next (s.commitAtHome o.core o.strand l)

-- core-backed pages (R230)

/-- One lane of an access at the scratchpad of a core-backed page. A tag load finds no tag there (R257). -/
def Party.backedLane (t : Party) (a : Access) (q : LanePart) (off : Nat) : Party × LanePart :=
  if a.kind = .tagLoad then (t, { q with step := .done, old := 0 })
  else
    let old := t.readScratch off a.size
    let psn := a.kind.reads && t.scratchPoison off a.size
    let new := match a.kind with
      | .atomic => atomStep a.fn (a.size == 8) old q.x q.y
      | .store => some q.x
      | _ => none
    let t1 := match new with
      | some v => if psn then t else t.writeScratch off a.size v
      | none => t
    (t1, { q with step := .done, old := old, poisoned := psn })

/-- The scratchpad offset of a lane on a core-backed page. -/
def LanePart.backed (q : LanePart) : Nat := match q.place with | .coreBacked _ off => off | _ => 0

/-- R240, R248: the lanes that are performed with a lane's arrival, in ascending order: those of a load or store in one 128 bytes, of
an atomic the one. -/
def Access.arriving (a : Access) (target lane off : Nat) : List LanePart :=
  a.parts.filter fun q => q.step == .sent && (match q.place with
    | .coreBacked c o => c == target && (if a.kind = .atomic then q.lane == lane else o / 128 == off / 128)
    | _ => false)

/-- R230, R236: what the lanes on core-backed pages that have not been performed meet at the named cores: the first cause in the order
of R235, and the lanes that it concerns. -/
def State.backedFaults (s : State) (core : Nat) (grid : BitVec 32) (a : Access) : Option (Cause × (LanePart → Bool)) :=
  let fault (q : LanePart) : Option Cause := match q.place with
    | .coreBacked c off => if q.step = .sent then s.backedFault core grid c off a.size else none
    | _ => none
  [Cause.homeUnreachable, .scratchRange].findSome? fun c =>
    if a.parts.any fun q => fault q == some c then some (c, fun q => fault q == some c) else none

/-- The lanes `mine` of an access performed at the named core, and the access as it then stands. -/
def State.backedLanes (s : State) (core target : Nat) (a : Access) (mine : List LanePart) : State :=
  match s.party? target with
  | none => s
  | some t =>
    let (t1, done) := mine.foldl (fun (acc : Party × List LanePart) q =>
      let (t1, q1) := acc.1.backedLane a q q.backed
      (t1, acc.2 ++ [q1])) (t, [])
    let t2 := if a.kind = .store then t1.cleanGranules a.size (mine.map LanePart.backed) else t1
    let far := (a.kind == .store || a.kind == .atomic) && dieOfCore target != dieOfCore core
    let ended := if far then done.map fun q => { q with step := .answered } else done
    let a1 := { a with parts := a.parts.map fun q => (ended.find? fun r => r.lane == q.lane).getD q }
    ((s.setParty target t2).setAccess core a1).finishAccess core a1

/-- R436: the answer to a numbered access at another die's scratchpad. -/
def State.backedAnswer (s : State) (o : CoreBacked) : State :=
  if o.data.isSome && dieOfCore o.target != dieOfCore o.core then
    s.send (dieOfCore o.target) (dieOfCore o.core) (.storeAcknowledgement ⟨o.core, 0, 0, 0, some (o.acc, o.lane)⟩)
  else s

/-- The lanes on core-backed pages that an answer names have been performed. -/
def State.backedAcked (s : State) (core acc lane : Nat) : State :=
  match s.access? core acc with
  | none => s
  | some a =>
    match a.parts.find? fun q => q.lane == lane with
    | none => s
    | some q0 =>
      let here (q : LanePart) : Bool := match q.place, q0.place with
        | .coreBacked c x, .coreBacked d y => c == d && (if a.kind = .atomic then q.lane == lane else x / 128 == y / 128)
        | _, _ => false
      let a1 := { a with parts := a.parts.map fun q => if q.step = .answered ∧ here q = true then { q with step := .done } else q }
      ((s.setAccess core a1).finishAccess core a1).pump core

/-- R230, R236: the checks at the named cores, then the lanes. A load or atomic is checked at each arrival. A store is checked whole at
the first one and performs its lanes on global memory then; one that cannot be delivered after that raises MACHINE_CHECK (R237). -/
def State.backedAccess (s : State) (o : CoreBacked) : State :=
  match s.party? o.core, s.access? o.core o.acc with
  | some p, some a =>
    let mine := a.arriving o.target o.lane o.off
    if a.step != .active || !mine.any fun q => q.lane == o.lane then s
    else
      match s.backedFaults o.core p.grid a with
      | some (c, isBad) => s.failAccess o.core a (a.faultOf (if a.fixed then .machineCheck else c) isBad)
      | none =>
        let a1 := { a with fixed := a.kind == .store, parts := a.parts.map fun q => if q.step = .waiting && a.kind == .store then { q with step := .done } else q }
        let s1 := if a.kind == .store && !a.fixed then s.storeGlobal o.core p { a with parts := a.parts.filter fun q => !q.isBacked } else s
        (s1.backedLanes o.core o.target a1 mine).pump o.core
  | _, _ => s

def execCoreBackedAccess (o : CoreBacked) (s : State) : Out := .next ((s.backedAccess o).backedAnswer o)

-- poison (R285)

def execPoisonDetect (o : EccError) (s : State) : Out :=
  match s.resolve o.pa with
  | none => .next s
  | some r =>
    let sl := homeSlice r
    let log : PoisonLog := match kget s.plogs sl with
      | some x => ⟨x.first, x.more + 1⟩
      | none => ⟨o.pa, 0⟩
    .next { s.setPoison (r / 32) true with plogs := kput s.plogs sl log }

-- drift and rebases (R274, R280, R281)

/-- R267: DRIFT in core cycles. -/
def Pkg.drift (k : Pkg) : Nat := k.driftM1 + 1

def execDriftTick (o : CoreRef) (s : State) : Out :=
  if (s.core o.core).lastAdv + (s.pkg (pkgOfCore o.core)).drift ≤ s.now then .next (s.tick o.core 1) else .next s

def rebaseAt : Nat := 2 ^ 23
def rebaseBy : Nat := 2 ^ 22

/-- R280: a clock or stamp of the package has reached 2^23. -/
def State.rebaseDue (s : State) (pkg : Nat) : Bool :=
  s.cores.any (fun (c, k) => pkgOfCore c == pkg && rebaseAt ≤ k.pts)
    || s.l2.any (fun (l, x) => resPkg (lineAddr l) == pkg && x.gen == (s.pkg pkg).gen && rebaseAt ≤ x.rts)
    || s.mts.any (fun (sl, t) => sl / 128 == pkg && rebaseAt ≤ t)
    || s.clocks.any (fun (d, k) => d / 8 == pkg && rebaseAt ≤ k.pts)

/-- R281: lines of the package that the last rebase has not rewritten. -/
def State.sweeping (s : State) (pkg : Nat) : Bool :=
  s.l2.any fun (l, x) => resPkg (lineAddr l) == pkg && x.gen != (s.pkg pkg).gen

/-- R280 step 1: a request of a core of the package is in flight, or a commit holds a line. -/
def State.requestsInFlight (s : State) (pkg : Nat) : Bool :=
  s.cores.any (fun (c, k) => pkgOfCore c == pkg && k.sb.any fun x => x.2.sent)
    || s.parties.any (fun (c, p) => pkgOfCore c == pkg && p.accesses.any fun a => a.parts.any fun q => q.step == .sent)
    || s.l2.any (fun (l, x) => resPkg (lineAddr l) == pkg && x.lock.isSome)
    || s.requests.any fun r => pkgOfCore r.core == pkg

/-- R280 steps 2 to 4 on a core, in the cycle `now`; a clock that step 2 raises has advanced (R274). -/
def Core.rebased (k : Core) (now : Nat) : Core :=
  { k with
    lastAdv := if k.pts < rebaseBy + 1 then now else k.lastAdv
    pts := max k.pts (rebaseBy + 1) - rebaseBy
    l1 := (k.l1.filter fun l => pteCoh l.pte == 1 || rebaseBy ≤ l.wts).map fun l =>
      if pteCoh l.pte = 1 then l else { l with wts := l.wts - rebaseBy, rts := l.rts - rebaseBy } }

/-- The same on the clock of a collective engine. -/
def EngineClock.rebased (k : EngineClock) (now : Nat) : EngineClock :=
  ⟨max k.pts (rebaseBy + 1) - rebaseBy, if k.pts < rebaseBy + 1 then now else k.lastAdv⟩

/-- R280 steps 2 to 5, R281: open transactions fail. -/
def State.rebased (s : State) (pkg : Nat) : State :=
  let fails (st : Strand) : Strand := { st with txn := st.txn.map fun t => Txn.failAll t 1 }
  let part (x : Nat × Party) : Nat × Party :=
    if pkgOfCore x.1 = pkg then (x.1, { x.2 with strands := x.2.strands.map fails }) else x
  let s0 := (List.range 256).foldl (fun s i => s.modCore (pkg * 256 + i) fun k => k.rebased s.now) s
  let s1 := { s0 with
    mts := s.mts.foldl (fun m (sl, t) => if sl / 128 = pkg then sput 0 m sl (t - rebaseBy) else m) s.mts
    parties := s.parties.map part
    clocks := s.clocks.map fun ((d, k) : Nat × EngineClock) => if d / 8 = pkg then (d, k.rebased s.now) else (d, k) }
  let s2 := s1.modPkg pkg fun k => { k with gen := !k.gen, era := k.era + 1, paused := false }
  (s.l2.filter fun (l, _) => resPkg (lineAddr l) == pkg).foldl (fun s (l, _) => s.post (.rebaseSweep ⟨pkg, l⟩)) s2

def execRebase (o : PkgRef) (s : State) : Out :=
  if !s.rebaseDue o.pkg then .next (s.modPkg o.pkg fun k => { k with paused := false })
  else if s.sweeping o.pkg || s.requestsInFlight o.pkg then
    .next ((s.modPkg o.pkg fun k => { k with paused := true }).post (.rebase o))
  else
    let s1 := s.rebased o.pkg
    .next (s1.cores.foldl (fun s (c, _) => if pkgOfCore c = o.pkg then s.pump c else s) s1)

/-- R280: the background sweep rewrites one line's stamps. -/
def execRebaseSweep (o : SweepReq) (s : State) : Out :=
  match kget s.l2 o.line with
  | none => .next s
  | some _ => .next (s.setStamps o.line (s.stamps o.line))

-- traps that wait (R237, R264)

/-- R264: the held hit of a strand is taken by its receiving slot. -/
def State.takeHeld (s : State) (core i : Nat) : State :=
  match s.party? core with
  | none => s
  | some p =>
    match (p.strand i).held with
    | none => s
    | some h =>
      let x := (p.strand i).hitSlot
      let p1 := (p.leaveWait i x).modStrand i fun st => { st with held := none }
      (s.setParty core p1).takeTrap ⟨core, i, x⟩ (receivedInfo .watchHit ((p1.strand i).slot x).pc ⟨0, 0⟩ h.addr false)

def execTrapDelivery (o : StrandRef) (s : State) : Out :=
  let (s1, done) := s.deliverAccess o.core o.strand
  if !done then .next (s1.post (.trapDelivery o))
  else
    match s1.party? o.core with
    | none => .next s1
    | some p =>
      let st := p.strand o.strand
      if st.held.isNone then .next s1
      else if st.inh || p.status != .running then .next (s1.post (.trapDelivery o))
      else .next (s1.takeHeld o.core o.strand)

end

end Sys2Proof.Machine
end

