-- ==== Sys2Proof/Machine/Anchor.lean ====
section
/-!
DEFINITION. Machine/Anchor.lean: anchors, count events, pitches and their instructions (R313-R322, R325).
-/

namespace Sys2Proof.Machine

/-- An anchor (R313). -/
structure Anchor where
  er : Bool
  ov : Bool
  na : Nat
  ns : Nat
  es : Nat
  ea : Nat
  ps : Nat
  pa : Nat
  ph : Nat
  deriving DecidableEq, Repr

/-- R313: the fields of an anchor's 16 bytes. -/
def Anchor.ofNat (v : Nat) : Anchor where
  er := v / 2 ^ 125 % 2 = 1
  ov := v / 2 ^ 124 % 2 = 1
  na := v / 2 ^ 112 % 2 ^ 12
  ns := v / 2 ^ 92 % 2 ^ 20
  es := v / 2 ^ 68 % 2 ^ 24
  ea := v / 2 ^ 48 % 2 ^ 20
  ps := v / 2 ^ 24 % 2 ^ 24
  pa := v / 2 ^ 4 % 2 ^ 20
  ph := v % 16
def Anchor.toNat (a : Anchor) : Nat :=
  a.ph + a.pa * 2 ^ 4 + a.ps * 2 ^ 24 + a.ea * 2 ^ 48 + a.es * 2 ^ 68 + a.ns * 2 ^ 92 + a.na * 2 ^ 112
    + (if a.ov then 2 ^ 124 else 0) + (if a.er then 2 ^ 125 else 0)

/-- R314: Advance. -/
def Anchor.advance (a : Anchor) : Anchor :=
  { a with
    ph := (a.ph + 1) % 16
    ov := a.ov || decide (a.ea < a.na) || decide (a.es < a.ns)
    pa := a.ea - a.na
    ps := a.es - a.ns
    na := 0
    ns := 0 }

/-- R314: one count event; true with an event of another phase than this or the next. -/
def Anchor.count (a : Anchor) (tag na ns : Nat) : Anchor × Bool :=
  if tag = a.ph then
    let b := { a with
      ov := a.ov || decide (a.pa < na) || decide (a.ps < ns)
      pa := a.pa - na
      ps := a.ps - ns }
    if (na = 0 ∧ ns = 0) ∨ b.pa ≠ 0 ∨ b.ps ≠ 0 then (b, false)
    else
      let early := b.na != 0 || b.ns != 0
      let c := b.advance
      (if early && c.pa == 0 && c.ps == 0 then c.advance else c, false)
  else if tag = (a.ph + 1) % 16 then
    ({ a with
       ov := a.ov || decide (4095 < a.na + na) || decide (2 ^ 20 - 1 < a.ns + ns)
       na := min (a.na + na) 4095
       ns := min (a.ns + ns) (2 ^ 20 - 1) }, false)
  else ({ a with er := true }, true)

def Party.anchorAt (p : Party) (off : Nat) : Anchor := Anchor.ofNat (p.readScratch off 16)
def Party.putAnchor (p : Party) (off : Nat) (a : Anchor) : Party := p.writeScratch off 16 a.toNat

/-- R325: a copy fault notice. -/
def Party.copyNotice (p : Party) (addr : Nat) (anchor : Nat) (tag : BitVec 4) (pitch : BitVec 16) (packet seq : Bool)
    (strand : BitVec 4) (c : Cause) : Party :=
  p.notice (3#8 ++ BitVec.ofNat 56 addr)
    (BitVec.ofNat 28 (anchor / 16) ++ tag ++ pitch ++ 0#2 ++ bit1 packet ++ bit1 seq ++ strand ++ 0#1 ++ causeCode c)

/-- R314, R315: a count event at the scratchpad port; no anchor, no effect. -/
def Party.applyCount (p : Party) (o : CountEvent) : Party :=
  if o.off = 0 then p
  else
    let a := p.anchorAt o.off
    let (b, stray) := ({ a with er := a.er || o.err }).count o.tag.toNat o.na o.ns
    let p1 := p.putAnchor o.off b
    if stray then
      p1.copyNotice o.off o.off o.tag (if o.packet then 0 else o.pitch) o.packet (!o.packet && o.seq)
        (if o.packet then 0 else o.strand) .anchorPhase
    else p1

-- pitches (R321, R322)

/-- Closed pitches that are not complete. -/
def Pitch.closed (k : Pitch) : Nat := (k.openN - 1 - k.done).toNat
/-- R320, R321: DONE advances over complete pitches; ERR is set when it passes one with a failed copy (DEDUCED, log entry 122). -/
def Pitch.advance : Nat → Pitch → Pitch
  | 0, k => k
  | n + 1, k =>
    let next := (k.done + 1).toNat
    match k.pending.find? (·.1 == next) with
    | none => Pitch.advance n { k with done := k.done + 1 }
    | some (_, c, e) =>
      if c = 0 then
        Pitch.advance n { k with
          done := k.done + 1
          err := k.err || e
          pending := k.pending.filter (·.1 != next) }
      else k
def Pitch.settle (k : Pitch) : Pitch := Pitch.advance k.closed k
/-- A copy joins the open pitch (R296); a rejected one is complete with an error (R323). -/
def Pitch.join (k : Pitch) (rejected : Bool) : Pitch :=
  let n := k.openN.toNat
  let add (x : Nat × Nat × Bool) : Nat × Nat × Bool :=
    if x.1 = n then (n, x.2.1 + (if rejected then 0 else 1), x.2.2 || rejected) else x
  if k.pending.any (·.1 == n) then { k with pending := k.pending.map add }
  else { k with pending := k.pending ++ [(n, if rejected then 0 else 1, rejected)] }
/-- A copy of a pitch has completed (R298). -/
def Pitch.finish (k : Pitch) (n : Nat) (err : Bool) : Pitch :=
  let sub (x : Nat × Nat × Bool) : Nat × Nat × Bool := if x.1 = n then (n, x.2.1 - 1, x.2.2 || err) else x
  Pitch.settle { k with pending := k.pending.map sub }

-- the instructions (R317-R319)

noncomputable section

/-- The value that a uniform source would give. -/
def Ctx.peek (x : Ctx) (s : State) (r : BitVec 7) : Dword := ((s.party? x.w.core).map fun p => (p.srcU x.w r).1).getD 0

/-- R318: the checks on an anchor offset, in order. -/
def Party.anchorFault (p : Party) (a : Dword) (named : Bool) : Option Cause :=
  let off := a.toNat % 2 ^ 32
  if a.extractLsb' 32 32 ≠ 0 then some .scratchRange
  else if off % 16 ≠ 0 then some .anchorMisaligned
  else if off = 0 then (if named then some .illegalOperand else none)
  else if p.scratchSize < off + 16 then some .scratchRange
  else none

/-- A fault of execution of a uniform access instruction: its pops stand (R516). -/
def Ctx.execFault (x : Ctx) (s : State) (c : Cause) (addr : Dword) : Done :=
  .trap { x.info { s.slotOf x.w with pc := x.pc } c addr with lane := none, mask := 0 } s

/-- R96, R318, R319: the ILLEGAL_OPERAND of an anchor instruction, by the values that its sources hold. -/
def anchorPre (i : Instr) (a b : BitVec 7) (named : Bool) (okB : Dword → Bool) (x : Ctx) (p : Party) : Option Cause :=
  let (va, p1) := p.srcU x.w a
  let (vb, _) := p1.srcU x.w b
  if p.holdsAt x.w i [b] && !okB vb then some .illegalOperand
  else if p.holdsAt x.w i [a] && p.anchorFault va named == some .illegalOperand then some .illegalOperand
  else none

/-- The shape of an anchor instruction: its checks, then its effect at the port. The ILLEGAL_OPERAND that stands here is that of a value
which q3 gives. -/
def anchorInstr (i : Instr) (a b : BitVec 7) (named : Bool) (ready : Ctx → State → Bool) (okB : Dword → Bool)
    (f : Ctx → Party → Nat → Dword → Party) (s : State) : Out :=
  issue i (anchorPre i a b named okB) (fun x s => portReady x s && ready x s) (fun x s =>
    match s.party? x.w.core with
    | none => .stall
    | some p =>
      let (va, p1) := p.srcU x.w a
      let (vb, p2) := p1.srcU x.w b
      let s1 := s.setParty x.w.core p2
      if !okB vb then .fault .illegalOperand 0
      else match p2.anchorFault va named with
        | some .illegalOperand => .fault .illegalOperand 0
        | some c => x.execFault s1 c va
        | none => .ok (s.setParty x.w.core (f x p2 (va.toNat % 2 ^ 32) vb)) (some x.w)) s

def execAnset (o : UR) (s : State) : Out :=
  anchorInstr (.anset o) o.a zr false always (fun _ => true) (fun x p off _ =>
    p.modStrand x.w.strand fun st => { st with anc := st.anc.setIfInBounds o.d.toNat (BitVec.ofNat 28 (off / 16)) }) s

def execAninit (o : UR) (s : State) : Out :=
  anchorInstr (.aninit o) o.a o.b true always (fun b => b.extractLsb' 44 20 == 0 && b.extractLsb' 0 44 != 0)
    (fun _ p off b =>
      let ea := (b.extractLsb' 24 20).toNat
      let es := (b.extractLsb' 0 24).toNat
      p.putAnchor off ⟨false, false, 0, 0, es, ea, es, ea, 0⟩) s

/-- R319: the release at scope party is that of BAR (R143). -/
def execAnarr (o : UR) (s : State) : Out :=
  anchorInstr (.anarr o) o.a o.b true settledReady (fun b => b.extractLsb' 20 44 == 0) (fun _ p off b =>
    p.putAnchor off ((p.anchorAt off).count (p.anchorAt off).ph b.toNat 0).1) s

def execAnexp (o : UR) (s : State) : Out :=
  issue (.anexp o) (anchorPre (.anexp o) o.a o.b true fun b => b.extractLsb' 24 40 == 0) portReady (fun x s =>
    match s.party? x.w.core with
    | none => .stall
    | some p =>
      let (va, p1) := p.srcU x.w o.a
      let (vb, p2) := p1.srcU x.w o.b
      let off := va.toNat % 2 ^ 32
      if vb.extractLsb' 24 40 ≠ 0 then .fault .illegalOperand 0
      else match p2.anchorFault va true with
        | some .illegalOperand => .fault .illegalOperand 0
        | some c => x.execFault (s.setParty x.w.core p2) c va
        | none =>
          let a := p2.anchorAt off
          if 2 ^ 24 - 1 < a.ps + vb.toNat then
            x.execFault (s.setParty x.w.core (p2.putAnchor off { a with ov := true })) .anchorOverflow va
          else .ok (s.setParty x.w.core (p2.putAnchor off { a with ps := a.ps + vb.toNat })) (some x.w)) s

/-- R319: the slot is held while the anchor stands in the phase named, unless the instruction faults. -/
def anwaitReady (o : UR) (x : Ctx) (s : State) : Bool :=
  (s.party? x.w.core).all fun p =>
    let (a, p1) := p.srcU x.w o.a
    (p.anchorFault a true).isSome || (p.anchorAt (a.toNat % 2 ^ 32)).ph != (p1.srcU x.w o.b).1.toNat % 16

def execAnwait (o : UR) (s : State) : Out :=
  issue (.anwait o) (anchorPre (.anwait o) o.a o.b true fun _ => true) (fun x s => portReady x s && anwaitReady o x s) (fun x s =>
    match s.party? x.w.core with
    | none => .stall
    | some p =>
      let (va, p1) := p.srcU x.w o.a
      let (_, p2) := p1.srcU x.w o.b
      match p2.anchorFault va true with
      | some .illegalOperand => .fault .illegalOperand 0
      | some c => x.execFault (s.setParty x.w.core p2) c va
      | none =>
        let a := p2.anchorAt (va.toNat % 2 ^ 32)
        let v : Dword := 0#58 ++ bit1 a.er ++ bit1 a.ov ++ BitVec.ofNat 4 a.ph
        let p3 := (p2.dstU x.w o.d v).modStrand x.w.strand (·.addFence ⟨1, 1, s.nextId, false, []⟩)
        .ok ((s.setParty x.w.core p3).settleFences x.w.core) (some x.w)) s

/-- R321. -/
def pcloseReady (x : Ctx) (s : State) : Bool := (s.strandOf x.w).pitch.closed != 32767
def execPclose (o : UR) (s : State) : Out :=
  issue (.pclose o) noPre pcloseReady (fun x s =>
    .ok (s.modParty x.w.core fun p =>
      let k := (p.strand x.w.strand).pitch
      (p.dstU x.w o.d (k.openN.setWidth 64)).modStrand x.w.strand fun st =>
        { st with pitch := Pitch.settle { k with openN := k.openN + 1 } }) (some x.w)) s

/-- R322: what WAITP of a number finds: none completes, some true waits, some false is out of range. -/
def Pitch.waits (k : Pitch) (n : BitVec 16) : Option Bool :=
  let d := (n - k.done).toNat
  if d = 0 ∨ 32768 ≤ d then none else some (decide (d ≤ k.closed))
def waitpReady (o : UR) (x : Ctx) (s : State) : Bool :=
  (s.strandOf x.w).pitch.waits ((x.peek s o.a).setWidth 16) != some true
def execWaitp (o : UR) (s : State) : Out :=
  issue (.waitp o) noPre (waitpReady o) (fun x s =>
    match s.party? x.w.core with
    | none => .stall
    | some p =>
      let (v, p1) := p.srcU x.w o.a
      match (p1.strand x.w.strand).pitch.waits (v.setWidth 16) with
      | some _ => x.execFault (s.setParty x.w.core p1) .pitchRange 0
      | none =>
        .ok ((s.setParty x.w.core (p1.modStrand x.w.strand (·.addFence ⟨1, 1, s.nextId, false, []⟩))).settleFences x.w.core)
          (some x.w)) s

/-- R314: a count event that has reached the scratchpad port. -/
def execAnchorCountEvent (o : CountEvent) (s : State) : Out := .next (s.modParty o.core (·.applyCount o))

end

end Sys2Proof.Machine
end

