-- ==== Sys2Proof/Machine/Swizzle.lean ====
section
/-!
DEFINITION. Machine/Swizzle.lean: swizzled scratchpad offsets, swizzle tags, and scratchpad written by engines with its
poison (R309, R310, R326).
-/

namespace Sys2Proof.Machine

/-- R309. -/
def swizzle (o sw : Nat) : Nat :=
  if sw = 0 then o else o - o / 16 % 8 * 16 + ((o / 16 % 8) ^^^ (o / 128 % 2 ^ sw)) * 16

/-- The swizzle tag of the KiB that holds an offset (R310). -/
def Party.swzTag (p : Party) (off : Nat) : Nat := (sget 0 p.swz (off / 1024)).toNat
def Party.setSwzTag (p : Party) (off sw : Nat) : Party := { p with swz := sput 0 p.swz (off / 1024) (BitVec.ofNat 2 sw) }

/-- The tags of every KiB that `n` bytes from an offset touch. -/
def Party.setSwzTags (p : Party) (off n sw : Nat) : Party :=
  (List.range ((off + n - 1) / 1024 - off / 1024 + 1)).foldl (fun p k => p.setSwzTag (off + 1024 * k) sw) p

/-- The offsets of `n` bytes from `off`, swizzled. -/
def swizzled (off n sw : Nat) : List Nat := (List.range n).map fun i => swizzle (off + i) sw

/-- Scratchpad bytes written by an engine: a granule that takes a poisoned byte is poisoned, one that is written whole
with clean bytes is clean (R286, R326). -/
def Party.engineWrite (p : Party) (offs : List Nat) (bs : List (Byte × Bool)) : Party :=
  let ws := offs.zip bs
  let p1 := ws.foldl (fun p w => { p with scratch := sput 0 p.scratch w.1 w.2.1 }) p
  let grs := (offs.map (· / 32)).eraseDups
  grs.foldl (fun p g =>
    let here := ws.filter fun w => w.1 / 32 == g
    if here.any fun w => w.2.2 then { p with spoison := sput false p.spoison g true }
    else if 32 ≤ here.length then { p with spoison := sput false p.spoison g false }
    else p) p1

/-- Scratchpad bytes read by an engine, each with its granule's poison. -/
def Party.engineRead (p : Party) (offs : List Nat) : List (Byte × Bool) :=
  offs.map fun o => (sget 0 p.scratch o, sget false p.spoison (o / 32))

end Sys2Proof.Machine
end

