-- ==== Sys2Proof/Machine/Copy.lean ====
section
/-!
DEFINITION. Machine/Copy.lean: copies: their checks and pieces (R295-R312, R323), acceptance, segments and their landing
(R324, R326), completion (R297, R298, R328), the fix-up list (R327).
-/

namespace Sys2Proof.Machine

-- runs of bytes that a copy moves

/-- A run: bytes contiguous in global memory and, before swizzling, in scratchpad; `fill` are bytes of a fill, which
has no global side (R308). -/
structure Run where
  ptr : Dword
  off : Nat
  len : Nat
  fill : List Byte
  deriving DecidableEq, Repr

/-- The run is of a fill. -/
def Run.isFill (r : Run) : Bool := !r.fill.isEmpty

/-- A run cut at the lines of global memory (a fill at 128 bytes) and, with `kib`, at the KiBs of scratchpad. -/
def Run.cut (kib : Bool) : Nat → Run → List Run
  | 0, _ => []
  | k + 1, r =>
    if r.len = 0 then []
    else
      let n := min r.len (min (if r.isFill then 128 else 128 - r.ptr.toNat % 128) (if kib then 1024 - r.off % 1024 else 128))
      { r with len := n, fill := r.fill.take n } ::
        Run.cut kib k ⟨r.ptr + BitVec.ofNat 64 n, r.off + n, r.len - n, r.fill.drop n⟩
def Run.pieces (r : Run) (kib : Bool := false) : List Run := Run.cut kib (r.len / 64 + 3) r

/-- The virtual line of a pointer. -/
def ptrLine (ptr : Dword) : Nat := ptr.toNat % 2 ^ 56 / 128

/-- Two runs that are one. -/
def Run.joins (kib : Bool) (a b : Run) : Bool :=
  a.isFill == b.isFill && b.off == a.off + a.len && (!kib || a.off / 1024 == b.off / 1024)
    && (if a.isFill then decide (a.len + b.len ≤ 128)
        else b.ptr == a.ptr + BitVec.ofNat 64 a.len && a.ptr.toNat / 128 == b.ptr.toNat / 128)

/-- Neighbouring runs that are contiguous on both sides joined. -/
def coalesce (kib : Bool) : List Run → List Run
  | [] => []
  | r :: t =>
    match coalesce kib t with
    | [] => [r]
    | u :: v => if r.joins kib u then { r with len := r.len + u.len, fill := r.fill ++ u.fill } :: v else r :: u :: v

/-- R240, R302, R324: neighbouring runs in one line are one line operation: its first run and the others. With `kib` those of one KiB
of scratchpad, whose swizzle tag decides (R310). -/
def lineOps (kib : Bool) : List Run → List (Run × List Run)
  | [] => []
  | r :: t =>
    match lineOps kib t with
    | [] => [(r, [])]
    | (u, us) :: v =>
      if !r.isFill && !u.isFill && ptrLine r.ptr == ptrLine u.ptr && (!kib || r.off / 1024 == u.off / 1024) then (r, u :: us) :: v
      else (r, []) :: (u, us) :: v

/-- Runs in the order of their pointers. -/
def byPtr (rs : List Run) : List Run :=
  let key (r : Run) : Nat := r.ptr.toNat % 2 ^ 56
  rs.foldr (fun r acc => acc.takeWhile (fun u => key u < key r) ++ r :: acc.dropWhile fun u => key u < key r) []

def Run.triple (r : Run) : Dword × Nat × Nat := (r.ptr, r.off, r.len)

/-- The segments of a copy. -/
def segmentsOf (kib : Bool) (rs : List Run) : List Segment :=
  let ps := coalesce kib (rs.flatMap fun r => r.pieces kib)
  (lineOps kib (ps.filter (!·.isFill) ++ ps.filter (·.isFill))).zipIdx.map fun ((r, us), i) =>
    ⟨i, r.ptr, r.off, r.len, us.map Run.triple, r.isFill, r.fill, [], [], false, .ready, none⟩

/-- Every run of a segment. -/
def Segment.runs (g : Segment) : List (Dword × Nat × Nat) := (g.ptr, g.off, g.len) :: g.more

-- what a command asks for, and why it is refused

/-- The outcome of a copy's checks at issue (R323): the command's parts; a fault; a page of its descriptor that is not
present. -/
inductive Checked where
  | ok (s : State) (c : EngineCmd)
  | bad (s : State) (f : AccFault)
  | missing (s : State) (va : Nat)
  /-- a home or a walk that its descriptor's loads need is not ready -/
  | again

/-- A command before its acceptance. -/
def EngineCmd.fresh (kind : CmdKind) (strand : Nat) (pc : Pc) : EngineCmd where
  id := 0
  kind := kind
  strand := strand
  seq := false
  anchor := 0
  tag := 0
  pitch := 0
  rel := false
  acqs := none
  cover := 1
  arv := false
  swz := 0
  box := false
  tagMode := 0
  pc := pc
  err := false
  serial := 0
  okN := 0
  errN := 0
  segs := []
  at_ := 0

/-- The offset that a strand's ANCn names (R320). -/
def Party.ancOff (p : Party) (i n : Nat) : Nat := 16 * ((p.strand i).anc[n]?.getD 0).toNat

/-- R323: an anchor slot whose anchor does not lie in scratchpad. -/
def Party.anchorOut (p : Party) (off : Nat) : Bool := off != 0 && p.scratchSize < off + 16

/-- The failure of the lanes of an access. -/
def lanesFault (c : Cause) (ps : List LanePart) (addr : LanePart → Dword) : AccFault :=
  let m := ps.foldl (fun m q => m ||| (1#32 <<< q.lane)) (0 : Word)
  ⟨c, m, lowLane m, (ps.head?.map addr).getD 0⟩

/-- The anchor slot's failure, for a lane instruction with a mask (R504). -/
def anchorSlotFault (m : Word) (off : Nat) : AccFault := ⟨.scratchRange, m, lowLane m, BitVec.ofNat 64 off⟩

/-- The first failure of a list of checks over lanes. -/
def firstLaneFault (ps : List LanePart) : List (Cause × (LanePart → Bool) × (LanePart → Dword)) → Option AccFault
  | [] => none
  | (c, f, g) :: t =>
    match ps.filter f with
    | [] => firstLaneFault ps t
    | bad => some (lanesFault c bad g)

-- per-lane copies (R300-R302)

/-- The lanes' own parts of a command: later parts only name pages. -/
def Access.lanesOf (a : Access) : List LanePart := a.parts.filter fun q => q.y == 0

/-- R301: only the highest of the lanes that write the same bytes lands. -/
def lastWriters (out : Bool) (ps : List LanePart) : List LanePart :=
  ps.filter fun q => !ps.any fun r => q.lane < r.lane && (if out then r.addr.toNat % 2 ^ 56 == q.addr.toNat % 2 ^ 56 else r.x == q.x)

def State.checkLaneCopy (s : State) (p : Party) (a : Access) (out : Bool) (size slot : Nat) : Checked :=
  let ps := a.lanesOf
  let anc := p.ancOff a.strand slot
  match firstLaneFault ps [
      (.noncanonicalAddress, fun q => q.addr.extractLsb' 60 4 != 0, fun q => q.addr),
      (.copyAlign, fun q => q.addr.toNat % size != 0 || q.x % size != 0, fun q => q.addr),
      (.scratchRange, fun q => decide (p.scratchSize < q.x + size), fun q => BitVec.ofNat 64 q.x)] with
  | some f => .bad s f
  | none =>
    if p.anchorOut anc then .bad s (anchorSlotFault a.m0 anc)
    else
      let runs := (lastWriters out ps).map fun q => (⟨q.addr, q.x, size, []⟩ : Run)
      .ok s { EngineCmd.fresh (if out then .copyOut else .copyIn) a.strand a.pc with
        anchor := anc
        segs := segmentsOf false (byPtr runs) }

-- CPROW (R303, R304)

/-- The bytes of row `q` that no higher active lane's row overwrites. -/
def rowVisible (step len : Nat) (ps : List LanePart) (q : LanePart) : Nat :=
  match (ps.filter fun r => q.lane < r.lane).head? with
  | none => len
  | some r => min len ((r.lane - q.lane) * step)

/-- R303, R304, R312: the checks of a CPROW and its command; a zero extent skips those that log entry 121 names. -/
def State.checkRow (s : State) (p : Party) (a : Access) (o : LL) : Checked :=
  let ps := a.lanesOf
  let va : Dword := (a.pl1[(0 : Fin 32)]).setWidth 64
  let d := va.toNat % 2 ^ 32
  let t := va.toNat / 2 ^ 32
  let l := ((a.pl3[(0 : Fin 32)]).setWidth 64 : Dword).toNat % 2 ^ 24
  let anc := p.ancOff a.strand (o.fn.extractLsb' 1 2).toNat
  let fault := if l = 0 ∨ ps = [] then none
    else if d % 16 ≠ 0 ∨ t % 16 ≠ 0 ∨ l % 16 ≠ 0 then
      match firstLaneFault ps [(.noncanonicalAddress, fun q => q.addr.extractLsb' 60 4 != 0, fun q => q.addr)] with
      | some f => some f
      | none => some ⟨.copyAlign, a.m0, lowLane a.m0, 0⟩
    else firstLaneFault ps [
      (.noncanonicalAddress, fun q => q.addr.extractLsb' 60 4 != 0, fun q => q.addr),
      (.copyAlign, fun q => q.addr.toNat % 16 != 0, fun q => q.addr),
      (.scratchRange, fun q => decide (p.scratchSize < d + q.lane * t + l), fun q => BitVec.ofNat 64 (d + q.lane * t))]
  match fault with
  | some f => .bad s f
  | none =>
    if p.anchorOut anc then .bad s (anchorSlotFault a.m0 anc)
    else
      let runs := ps.map fun q => (⟨q.addr, d + q.lane * t, rowVisible t l ps q, []⟩ : Run)
      .ok s { EngineCmd.fresh .copyIn a.strand a.pc with
        anchor := anc
        rel := o.ord.getLsbD 1
        acqs := if o.ord.getLsbD 0 then some a.entry.covers else none
        cover := a.entry.covers
        arv := o.fn.getLsbD 0
        segs := segmentsOf false (if l = 0 then [] else byPtr runs) }

-- CPBOX (R305-R308)

/-- A tensor descriptor (R306). -/
structure Tensor where
  base : Dword
  strides : List Int
  extents : List Nat
  box : List Nat
  rank : Nat
  esz : Nat
  swz : Nat
  fill : Nat
  tagp : Nat
  zero1 : Nat
  fillv : Nat
  zero2 : Nat
  deriving DecidableEq, Repr

/-- A signed 64-bit field. -/
def signedField (bs : List Byte) (off : Nat) : Int := (BitVec.ofNat 64 (fieldAt bs off 8)).toInt

def Tensor.ofBytes (bs : List Byte) : Tensor where
  base := BitVec.ofNat 64 (fieldAt bs 0 8)
  strides := (List.range 4).map fun k => signedField bs (8 + 8 * k)
  extents := (List.range 5).map fun k => fieldAt bs (0x28 + 4 * k) 4
  box := (List.range 5).map fun k => fieldAt bs (0x3C + 2 * k) 2
  rank := fieldAt bs 0x46 1
  esz := fieldAt bs 0x47 1
  swz := fieldAt bs 0x48 1
  fill := fieldAt bs 0x49 1
  tagp := fieldAt bs 0x4A 1
  zero1 := fieldAt bs 0x4B 1
  fillv := fieldAt bs 0x4C 4
  zero2 := fieldAt bs 0x50 16

/-- Item `k` of a list of numbers. -/
def nth (l : List Nat) (k : Nat) : Nat := l[k]?.getD 0
def nthI (l : List Int) (k : Nat) : Int := l[k]?.getD 0

/-- R307: COPY_DESCRIPTOR. -/
def Tensor.bad (t : Tensor) (priv : Bool) (c : List Int) : Bool :=
  t.rank == 0 || 5 < t.rank || 4 < t.esz || 3 < t.swz || 1 < t.fill || 2 < t.tagp || (t.tagp == 2 && !priv)
    || t.zero1 != 0 || t.zero2 != 0
    || (List.range 5).any fun k => t.rank ≤ k && (nth t.extents k != 1 || nth t.box k != 1 || nthI c k != 0)

/-- R312. A copy without an extent makes none of the checks of alignment and range (DEDUCED, log entry 121). -/
def Tensor.empty (t : Tensor) : Bool := (List.range 5).any fun k => nth t.box k == 0

/-- R308: the alignments of a box. -/
def Tensor.misaligned (t : Tensor) (c0 : Int) (b : Nat) : Bool :=
  let e : Nat := 2 ^ t.esz
  t.base.toNat % 16 != 0 || (c0 * e) % 16 != 0 || nth t.box 0 * e % 16 != 0 || b % 16 != 0
    || (List.range 4).any fun k => k + 1 < t.rank && nthI t.strides k % 16 != 0

/-- Bytes of a box. -/
def Tensor.bytes (t : Tensor) : Nat := 2 ^ t.esz * (t.box.foldl (· * ·) 1)

/-- R306: byte `k` of a row of fill elements. -/
def Tensor.fillByte (t : Tensor) (k : Nat) : Byte :=
  if t.fill = 0 then 0 else BitVec.ofNat 8 (t.fillv / 2 ^ (8 * (k % min 4 (2 ^ t.esz))))

/-- R308: the runs of one box row, with its coordinates of dimensions 1 to 4 and the offset of its first element. -/
def Tensor.row (t : Tensor) (isIn : Bool) (c0 : Int) (g : List Int) (off : Nat) : List Run :=
  let e : Nat := 2 ^ t.esz
  let n := nth t.box 0
  let inside := (List.range 4).all fun k => t.rank ≤ k + 1 || (decide (0 ≤ nthI g k) && decide (nthI g k < nth t.extents (k + 1)))
  let lo : Nat := if inside then min n (-c0).toNat else n
  let hi : Nat := if inside then max lo (min n ((nth t.extents 0 : Int) - c0).toNat) else n
  let far : Int := (List.range 4).foldl (fun acc k => if k + 1 < t.rank then acc + nthI g k * nthI t.strides k else acc)
    ((t.base.toNat : Int) + (c0 + lo) * e)
  let fillRun (i j : Nat) : List Run :=
    if isIn && i < j then [⟨0, off + e * i, e * (j - i), (List.range (e * (j - i))).map t.fillByte⟩] else []
  fillRun 0 lo ++ (if lo < hi then [⟨BitVec.ofInt 64 far, off + e * lo, e * (hi - lo), []⟩] else []) ++ fillRun hi n

/-- R308: the runs of a box. -/
def Tensor.runs (t : Tensor) (isIn : Bool) (c : List Int) (b : Nat) : List Run :=
  let rowBytes := 2 ^ t.esz * nth t.box 0
  (List.range (nth t.box 4)).flatMap fun i4 => (List.range (nth t.box 3)).flatMap fun i3 =>
    (List.range (nth t.box 2)).flatMap fun i2 => (List.range (nth t.box 1)).flatMap fun i1 =>
      let r := i1 + nth t.box 1 * (i2 + nth t.box 2 * (i3 + nth t.box 3 * i4))
      let g : List Int := [nthI c 1 + i1, nthI c 2 + i2, nthI c 3 + i3, nthI c 4 + i4]
      t.row isIn (nthI c 0) g (b + rowBytes * r)

/-- What CPBOX gives its checks: coordinate registers, descriptor pointer, box register, word 1. -/
structure BoxArgs where
  d0 : Dword
  d1 : Dword
  d2 : Dword
  ptr : Dword
  b : Dword
  w1 : Word
  deriving DecidableEq, Repr

/-- The coordinates (R305). -/
def BoxArgs.coords (x : BoxArgs) : List Int :=
  let lo (v : Dword) : Int := (v.extractLsb' 0 32).toInt
  let hi (v : Dword) : Int := (v.extractLsb' 32 32).toInt
  [lo x.d0, hi x.d0, lo x.d1, hi x.d1, lo x.d2]

/-- R305-R308, R312, R323: the checks of a CPBOX and its command; a zero extent skips those that log entry 121 names. -/
def State.checkBox (s : State) (core : Nat) (p : Party) (a : Access) (x : BoxArgs) (by_ : Option Nat := none) : Checked :=
  let slot := (x.w1.extractLsb' 28 2).toNat
  let isIn := !x.w1.getLsbD 30
  let ord := x.w1.extractLsb' 25 2
  let off := x.b.toNat % 2 ^ 32
  let anc := p.ancOff a.strand slot
  let fault (c : Cause) (addr : Dword) : AccFault := ⟨c, 0, none, addr⟩
  match s.strandLoads core p a x.ptr 6 by_ with
  | .again => .again
  | .bad s1 c at_ => if c = .pageNotPresent then .missing s1 (at_.toNat % 2 ^ 56) else .bad s1 (fault c at_)
  | .got s2 bs =>
    let t := Tensor.ofBytes bs
    if t.bad p.priv x.coords then .bad s2 (fault .copyDescriptor x.ptr)
    else if t.base.extractLsb' 60 4 ≠ 0 then .bad s2 (fault .noncanonicalAddress t.base)
    else if !t.empty && t.misaligned (nthI x.coords 0) off then .bad s2 (fault .copyAlign 0)
    else if (!t.empty && decide (p.scratchSize < off + t.bytes)) || p.anchorOut anc then .bad s2 (fault .scratchRange x.b)
    else .ok s2 { EngineCmd.fresh (if isIn then .copyIn else .copyOut) a.strand a.pc with
      anchor := anc
      rel := ord.getLsbD 1
      acqs := if ord.getLsbD 0 then some a.entry.covers else none
      cover := a.entry.covers
      arv := x.w1.getLsbD 27
      swz := t.swz
      box := true
      tagMode := t.tagp
      segs := segmentsOf (!isIn) (if t.empty then [] else t.runs isIn x.coords off) }

/-- The checks of a command that a strand issued (R323). -/
def State.checkCommand (s : State) (core : Nat) (p : Party) (a : Access) : Checked :=
  match a.op with
  | some (.cpw o) => s.checkLaneCopy p a false 4 o.p.toNat
  | some (.cpd o) => s.checkLaneCopy p a false 8 o.p.toNat
  | some (.cpq o) => s.checkLaneCopy p a false 16 o.p.toNat
  | some (.cpws o) => s.checkLaneCopy p a true 4 o.p.toNat
  | some (.cpds o) => s.checkLaneCopy p a true 8 o.p.toNat
  | some (.cpqs o) => s.checkLaneCopy p a true 16 o.p.toNat
  | some (.cprow o) => s.checkRow p a o
  | some (.cpbox o) =>
    let r0 := a.pl1[(0 : Fin 32)]
    s.checkBox core p a ⟨r0.setWidth 64, (r0 >>> 64).setWidth 64, (a.pl1[(1 : Fin 32)]).setWidth 64,
      (a.pl2[(0 : Fin 32)]).setWidth 64, (a.pl3[(0 : Fin 32)]).setWidth 64, o.w1⟩
  | _ => .bad s ⟨.none, 0, none, 0⟩

-- acceptance (R295, R296)

/-- R295: the command joins the engine, with its serial number (from 0 in each party, modulo 2^32; DESIGN CHOICE, log entry 123) and the
phase of its anchor; each segment starts. -/
def State.accept (s : State) (core : Nat) (c : EngineCmd) : State :=
  match s.party? core with
  | none => s
  | some p =>
    let id := s.nextId
    let c1 := { c with
      id := id
      serial := p.serial
      tag := if c.anchor = 0 then 0 else BitVec.ofNat 4 (p.anchorAt c.anchor).ph
      at_ := if c.seq then 0 else id }
    let s1 := (s.setParty core { p with cmds := p.cmds ++ [c1], serial := p.serial + 1 }).bump
    if c1.segs = [] then s1.post (.copyCompletion ⟨core, id⟩)
    else c1.segs.foldl (fun s g => s.post (.segmentLand ⟨core, id, g.id⟩)) s1

/-- R296: a strand's copy is accepted into its open pitch. -/
def State.acceptCopy (s : State) (core : Nat) (c : EngineCmd) : State :=
  let open_ := ((s.party? core).map fun p => (p.strand c.strand).pitch.openN).getD 0
  (s.modParty core (·.modStrand c.strand fun st => { st with pitch := st.pitch.join false })).accept core
    { c with pitch := open_ }

/-- R323: a rejected copy joins its pitch, complete and failed. -/
def State.rejectCopy (s : State) (core strand : Nat) : State :=
  s.modParty core (·.modStrand strand fun st => { st with pitch := (st.pitch.join true).settle })

/-- R295: room for one more command. -/
def Party.cmdRoom (p : Party) : Bool :=
  let inPort (o : StreamOp) : Bool := match o.kind with
    | .wload none _ _ _ | .tload none _ _ _ _ _ | .drain none _ _ _ _ _ _ _ _ _ _ _ => true
    | _ => false
  let bare := p.seq.ops.filter fun o => inPort o && !p.cmds.any fun c => c.id == o.id
  (p.cmds.filter fun c => c.kind != .txa).length + bare.length < 64

/-- R242: an earlier store, atomic or tag store of the strand is still to be performed: loads that an instruction makes at issue
wait for it. -/
def Party.storesLeft (p : Party) (i : Nat) : Bool :=
  p.accesses.any fun a => a.strand == i && !a.loc && a.kind.writes && a.step != .logged && a.step != .faulted

/-- The command is a CPBOX, which reads a descriptor. -/
def Access.readsBox (a : Access) : Bool := match a.op with | some (.cpbox _) => true | _ => false

/-- The issue of a copy by a strand: accepted, rejected, or in the operand log. -/
def State.startCopy (s : State) (x : Ctx) (a : Access) : Done :=
  let core := x.w.core
  match s.party? core with
  | none => .stall
  | some p =>
    let b := { a with id := s.nextId }
    let held := (s.setParty core { p with accesses := p.accesses ++ [b] }).bump
    if p.inLog a then .ok (held.logAccess core b none) (some x.w)
    else if a.readsBox && p.storesLeft a.strand then .stall
    else
      match s.checkCommand core p b with
      | .ok s1 c => .ok (s1.acceptCopy core c) (some x.w)
      | .bad s1 f =>
        .trap ⟨f.cause, x.pc, x.words, f.lane, f.mask, f.addr, ⟨0, 0⟩, x.pc, false⟩ (s1.rejectCopy core a.strand)
      | .missing _ va => .ok (held.logAccess core b (some (missingPage va))) (some x.w)
      | .again => .stall

/-- A logged copy is tried again after its page was served (R144, R323), once the engine has room for it (R295). -/
def State.retryCopy (s : State) (core : Nat) (a : Access) : State :=
  match s.party? core with
  | none => s
  | some p =>
    if !p.cmdRoom then s
    else
      match s.checkCommand core p a with
      | .ok s1 c => (s1.dropAccess core a.id).acceptCopy core c
      | .bad s1 f => (s1.rejectCopy core a.strand).failAccess core a f
      | .missing s1 va => s1.logAccess core a (some (missingPage va))
      | .again => s

/-- The copies of a core that wait to be tried again, in issue order. -/
def State.retryCopies (s : State) (core : Nat) : State :=
  match s.party? core with
  | none => s
  | some p => (p.accesses.filter fun a => a.kind == .command && a.step == .attempt).foldl (fun s a => s.retryCopy core a) s

-- landing (R297, R324, R326-R328)

def EngineCmd.seg? (c : EngineCmd) (i : Nat) : Option Segment := c.segs.find? (·.id == i)
def EngineCmd.setSeg (c : EngineCmd) (g : Segment) : EngineCmd := { c with segs := c.segs.map fun h => if h.id = g.id then g else h }
def Party.cmd? (p : Party) (id : Nat) : Option EngineCmd := p.cmds.find? (·.id == id)
def Party.setCmd (p : Party) (c : EngineCmd) : Party := { p with cmds := p.cmds.map fun d => if d.id = c.id then c else d }
def Party.setSegment (p : Party) (id : Nat) (g : Segment) : Party :=
  { p with cmds := p.cmds.map fun d => if d.id = id then d.setSeg g else d }

def Segment.finished (g : Segment) : Bool := g.step == .landed || g.step == .failed

/-- The command reads global memory. -/
def CmdKind.reads : CmdKind → Bool
  | .copyIn | .wload _ | .tload _ | .txa => true
  | .copyOut | .drain _ _ => false

/-- R297: the destination sectors of a segment of a copy. -/
def EngineCmd.sectors (c : EngineCmd) (g : Segment) : List Nat :=
  match c.kind with
  | .copyIn => ((g.runs.flatMap fun (_, off, n) => swizzled off n c.swz).map (· / 32)).eraseDups
  | _ => (g.runs.flatMap fun (ptr, _, n) =>
      let va := ptr.toNat % 2 ^ 56
      (List.range 5).filterMap fun k => if va / 32 + k ≤ (va + n - 1) / 32 then some (va / 32 + k) else none).eraseDups

/-- R298, R315: the sectors of a finished segment that no unfinished segment still writes: landed ones, failed or poisoned ones. -/
def EngineCmd.counted (c : EngineCmd) (g : Segment) : Nat × Nat :=
  let mine := (c.sectors g).filter fun x => !c.segs.any fun h => !h.finished && (c.sectors h).contains x
  let bad := mine.filter fun x => c.segs.any fun h => (h.step == .failed || h.psn) && (c.sectors h).contains x
  (mine.length - bad.length, bad.length)

def EngineCmd.event (c : EngineCmd) (core na ns : Nat) (err : Bool) : CountEvent :=
  ⟨core, c.anchor, c.tag, na, ns, err, c.pitch, false, c.seq, BitVec.ofNat 4 c.strand⟩

/-- R298: each landed or failed sector is a count event of its own, or waits for the release. -/
def Party.countSectors (p : Party) (core : Nat) (c : EngineCmd) (g : Segment) : Party :=
  let (ok, bad) := c.counted g
  if c.rel then p.setCmd { c with okN := c.okN + ok, errN := c.errN + bad }
  else
    let one (err : Bool) (p : Party) (_ : Nat) : Party := p.applyCount (c.event core 0 1 err)
    (List.range bad).foldl (one true) ((List.range ok).foldl (one false) p)

/-- A copy fault notice of a segment, with its first failing byte (R324-R326). -/
def Party.segNotice (p : Party) (c : EngineCmd) (addr : Nat) (cause : Cause) : Party :=
  p.copyNotice (addr % 2 ^ 56) c.anchor c.tag c.pitch false c.seq (BitVec.ofNat 4 c.strand) cause

/-- A segment has landed or failed: counts, the fix-up entry leaves the list, the copy's end. -/
def State.segmentDone (s : State) (core id : Nat) (g : Segment) : State :=
  match s.party? core with
  | none => s
  | some p =>
    match p.cmd? id with
    | none => s
    | some c =>
      let c1 := { c.setSeg g with err := c.err || g.step == .failed }
      let p1 := { p.setCmd c1 with fixups := p.fixups.filter (· != (id, g.id)) }
      let p2 := if c1.kind = .copyIn ∨ c1.kind = .copyOut then p1.countSectors core c1 g else p1
      let s1 := s.setParty core p2
      if c1.segs.all Segment.finished && (c1.kind == .copyIn || c1.kind == .copyOut) then s1.post (.copyCompletion ⟨core, id⟩)
      else s1

/-- R324: the segment stops on a cause, at its first failing byte; its failure is the next event. -/
def State.stopSegment (s : State) (core id : Nat) (g : Segment) (cause : Cause) (addr : Nat) : State :=
  (s.modParty core (·.setSegment id { g with step := .stopped })).post (.segmentFail ⟨core, id, g.id, cause, addr % 2 ^ 56⟩)

/-- R329: the entries of the fix-up list, one for each run of its segments. -/
def Party.fixEntries (p : Party) : Nat :=
  (p.fixups.map fun (c, g) => (((p.cmd? c).bind (·.seg? g)).map fun g => g.runs.length).getD 1).foldl (· + ·) 0

/-- R327: the segment goes to the fix-up list, or stays there, and the fault service is asked; while the list is full it
waits. -/
def State.fixUp (s : State) (core id : Nat) (g : Segment) : State :=
  match s.party? core with
  | none => s
  | some p =>
    let listed := p.fixups.contains (id, g.id)
    if !listed && 256 < p.fixEntries + g.runs.length then s.post (.segmentLand ⟨core, id, g.id⟩)
    else
      let p1 := p.setSegment id { g with step := .fixup }
      (s.setParty core { p1 with fixups := if listed then p1.fixups else p1.fixups ++ [(id, g.id)] }).post
        (.faultService ⟨core, g.ptr.setWidth 56, 3, .segment id g.id⟩)

/-- R225, R230: where the bytes of a virtual address lie, by the tables as they are. -/
def State.placeOf (s : State) (cluster root va : Nat) : Option Place :=
  match s.walkFrom (s.walkerUp cluster) root va 3 with
  | .error _ => none
  | .ok (level, e, _) =>
    let pa := leafPa level e va
    if pteHome e = 3 then some (.coreBacked (backedCore pa) (backedOff pa)) else (s.resolve pa).map fun r => .global (lineOf r)

/-- R40: an access of the strand touches bytes of a run. -/
def State.accessMeets (s : State) (core root : Nat) (a : Access) (ptr : Dword) (n : Nat) : Bool :=
  let cl := clusterOfCore core
  let mine := s.placeOf cl root (ptr.toNat % 2 ^ 56)
  a.kind == .tagFill || a.parts.any fun q => q.step != .done &&
    (let va := q.addr.toNat % 2 ^ 56
     let there := if a.step = .active then some q.place else s.placeOf cl root va
     va / 128 == ptrLine ptr || (match mine, there with
       | some x, some y => x.clash core n y a.size
       | _, _ => false))

/-- R40: an access of the strand that has not been performed touches bytes of the core's scratchpad through a core-backed page. -/
def State.backedMeets (s : State) (core root : Nat) (a : Access) (offs : List Nat) : Bool :=
  a.parts.any fun q => q.step != .done &&
    (match if a.step = .active then some q.place else s.placeOf (clusterOfCore core) root q.va with
    | some (.coreBacked c off) => c == core && offs.any fun o => off ≤ o && o < off + a.size
    | _ => false)

/-- R40: an earlier access or buffered store of the strand that a segment's global side or scratchpad side waits for; an earlier
commit counts as the stores that it makes. -/
def State.segBlocked (s : State) (core : Nat) (p : Party) (c : EngineCmd) (g : Segment) : Bool :=
  let meets (a : Access) : Bool := !g.local_ && g.runs.any fun (ptr, _, n) => s.accessMeets core p.root a ptr n
  let copies := c.kind == .copyIn || c.kind == .copyOut
  let offs := if copies then g.runs.flatMap fun (_, off, n) => swizzled off n c.swz else []
  let waits (a : Access) : Bool :=
    a.strand == c.strand && a.id < c.at_ && a.kind != .command && a.kind != .group && a.step != .faulted
      && (if a.loc then a.step == .attempt
        else ((!c.kind.reads || a.kind.writes) && meets a) || ((c.kind.reads || a.kind.writes) && s.backedMeets core p.root a offs))
  let buffered (e : SbEntry) : Bool := e.strand == c.strand && e.acc < c.at_ && g.runs.any fun (ptr, _, _) =>
    s.placeOf (clusterOfCore core) p.root (ptr.toNat % 2 ^ 56) == some (.global e.line)
  p.accesses.any waits || (!c.kind.reads && !g.local_ && (s.core core).sb.any fun (_, e) => buffered e)
    || (!c.seq && (p.strand c.strand).txn.any fun t => t.commit.isSome)

/-- A line operation that writes bytes at its home, or at a core-backed page's scratchpad (R230, R273, R311). -/
inductive RunWrite where
  | again
  | bad (c : Cause) (addr : Nat)
  | done (s : State)
  /-- checked: it is to be sent to the line's home on another die -/
  | away (s : State) (o : LineOut)

/-- Bytes that one line operation writes in a line: where a run begins in it, its bytes with their poison, and the tag that its
granules take. -/
structure LineRun where
  at_ : Nat
  bytes : List (Byte × Bool)
  tag : Option (BitVec 4)

/-- The granules of a line that a run touches. -/
def LineRun.granules (x : LineRun) : List Nat :=
  [0, 1, 2, 3].filter fun j => x.at_ / 32 ≤ j && j ≤ (x.at_ + x.bytes.length - 1) / 32

/-- R285: the sectors of a line in a core's copy and in its package's copy become poisoned. -/
def State.poisonCopies (s : State) (core line : Nat) (bad : BitVec 4) : State :=
  { s.modCore core fun k => { k with l1 := k.l1.map fun l => if l.line = line then { l with poison := l.poison ||| bad } else l } with
    remotes := s.remotes.map fun (c : RemoteCopy) =>
      if c.pkg = pkgOfCore core ∧ c.line = line then { c with poison := c.poison ||| bad } else c }

/-- The runs of one line operation as one write; one that no register of an MMIO window takes writes nothing. -/
def LineOut.ofRuns (line : Nat) (pte : Dword) (rs : List LineRun) (bad : Option Nat) : LineOut :=
  let tags : BitVec 4 × BitVec 16 := rs.foldl (fun acc x => match x.tag with
    | none => acc
    | some t => x.granules.foldl (fun (m, v) j => (m ||| (1#4 <<< j), mergeTags v (t.setWidth 16 <<< (4 * j)) (1#4 <<< j))) acc) (0, 0)
  let psn := [0, 1, 2, 3].filter fun j => rs.any fun x => x.bytes.zipIdx.any fun b => b.1.2 && (x.at_ + b.2) / 32 == j
  if rs.all fun x => regWidthOk (lineAddr line + x.at_) x.bytes.length then
    ⟨line, pte, rs.foldl (fun m x => m ||| byteMask x.at_ x.bytes.length) 0,
      rs.foldl (fun d x => mergeLine d (atByte x.at_ (bytesNat (x.bytes.map Prod.fst))) (byteMask x.at_ x.bytes.length)) 0,
      tags.1, tags.2, psn.foldl (fun m j => m ||| (1#4 <<< j)) 0, bad⟩
  else ⟨line, pte, 0, 0, 0, 0, 0, bad⟩

/-- R271, R273, R326: what the core knows of an acknowledged write of its engines: its copy takes the bytes and the poison, its clock
the wts. -/
def State.outAcked (s : State) (core : Nat) (o : LineOut) (wts : Nat) : State :=
  let s1 := (s.updateCopy core o.line o.mask o.data o.tagMask o.tags wts).poisonCopies core o.line o.psn
  if remoteTo core (lineAddr o.line) then s1 else s1.foldPts core wts

/-- R271: the clock that a write of a line carries. -/
def State.outClock (s : State) (core line : Nat) : Nat := if remoteTo core (lineAddr line) then 0 else (s.core core).pts

/-- R271, R326: a line operation applied at its home as one store; poisoned sources poison the sectors, and the copies of them at the
core and in its package. -/
def State.applyOut (s : State) (core : Nat) (o : LineOut) : State :=
  if o.mask = 0 ∧ o.tagMask = 0 then s
  else
    let (s1, t) := s.applyStore core o.line o.mask o.data o.tagMask o.tags (s.outClock core o.line)
    (s1.poisonSectors o.line o.psn).outAcked core o t

/-- The first of some runs of one line that a write may not make, else where each lies. -/
def State.checkRuns (o : Reader) (tagMode : Nat) :
    State → List (Dword × List (Byte × Bool)) → Except (Cause × Nat) (State × List (RunAt × Dword))
  | s, [] => .ok (s, [])
  | s, (ptr, bs) :: t =>
    match s.checkRun o ptr bs.length true (tagMode == 0) with
    | .error e => .error e
    | .ok (s1, at_, e) =>
      if tagMode = 1 ∧ !pteTag e then .error (.attributeConflict, ptr.toNat % 2 ^ 56)
      else
        match State.checkRuns o tagMode s1 t with
        | .error f => .error f
        | .ok (s2, rest) => .ok (s2, (at_, e) :: rest)

/-- The first poisoned byte among runs of a line. -/
def firstPoison (ptrs : List Dword) (bss : List (List (Byte × Bool))) : Option Nat :=
  (ptrs.zip bss).findSome? fun (ptr, bs) => (bs.findIdx? Prod.snd).map fun k => (ptr.toNat + k) % 2 ^ 56

/-- The runs of one line written by command `id` of a strand, all or none. -/
def State.writeRuns (s : State) (o : Reader) (strand id : Nat) (rs : List (Dword × List (Byte × Bool))) (tagMode : Nat) : RunWrite :=
  let cl := clusterOfCore o.core
  if rs.any fun (ptr, _) => ptr.extractLsb' 60 4 == 0 && s.missWaits cl o.root (ptr.toNat % 2 ^ 56) true o.priv then .again
  else
    match State.checkRuns o tagMode s rs with
    | .error (c, addr) => .bad c addr
    | .ok (s1, places) =>
      let held := places.any fun (at_, _) => match at_ with
        | .global r => homeDie r == dieOfCore o.core && s1.locked (lineOf r)
        | .scratch _ _ => false
      if held then .again
      else
        let all := rs.zip places
        let s2 := all.foldl (fun s ((ptr, bs), at_, e) => s.watchEngine o.core strand id .store (ptr.toNat % 2 ^ 56) at_ e bs.length) s1
        let s3 := all.foldl (fun s ((_, bs), at_, _) => match at_ with
          | .scratch c off => s.modParty c (·.engineWrite (swizzled off bs.length 0) bs)
          | .global _ => s) s2
        let here := all.filterMap fun ((ptr, bs), at_, e) => match at_ with
          | .global r => some (r, e, ({ at_ := r % 128, bytes := bs, tag := if tagMode = 1 then some (ptr.extractLsb' 56 4) else none } : LineRun))
          | .scratch _ _ => none
        match here with
        | [] => .done s3
        | (r, e, _) :: _ =>
          let out := LineOut.ofRuns (lineOf r) e (here.map fun x => x.2.2) (firstPoison (rs.map Prod.fst) (rs.map Prod.snd))
          if homeDie r = dieOfCore o.core then .done ((s3.touchLine o.core e (lineOf r)).applyOut o.core out) else .away s3 out

/-- What a line operation that reads several runs of one line gives. -/
inductive RunsRead where
  | again
  | bad (c : Cause) (addr : Nat)
  | got (s : State) (bss : List (List (Byte × Bool)))

def State.readRuns (o : Reader) (strand id : Nat) (tags : Bool) : State → List (Dword × Nat × Nat) → RunsRead
  | s, [] => .got s []
  | s, (ptr, _, n) :: t =>
    match s.readRun o strand id ptr n tags with
    | .again => .again
    | .bad c addr => .bad c addr
    | .got s1 bs =>
      match State.readRuns o strand id tags s1 t with
      | .again => .again
      | .bad c addr => .bad c addr
      | .got s2 bss => .got s2 (bs :: bss)

/-- R326: a segment that moved poison marks its sectors and pushes a notice. -/
def State.landed (s : State) (core : Nat) (c : EngineCmd) (g : Segment) (psn : Option Nat) : State :=
  let s1 := s.segmentDone core c.id { g with step := .landed, psn := psn.isSome }
  match psn with
  | some addr => s1.modParty core (·.segNotice c addr .poisonConsumed)
  | none => s1

/-- A failed line operation: a missing page goes to the fix-up list (R327), another cause stops the segment. What a write found
changed leaves the TLB (R228). -/
def State.segmentBad (s : State) (core : Nat) (c : EngineCmd) (g : Segment) (cause : Cause) (addr : Nat) : State :=
  let s1 := if c.kind.reads then s
    else match s.party? core with
      | some p => s.dropStale (p.reader core) (g.ptr.toNat % 2 ^ 56)
      | none => s
  if cause = .pageNotPresent then s1.fixUp core c.id g else s1.stopSegment core c.id g cause addr

/-- R435, R436: the write of a segment leaves for the home of its line on another die; `ev` is its message. -/
def State.sendSegment (s : State) (core : Nat) (c : EngineCmd) (g : Segment) (o : LineOut) (ev : Instr) : State :=
  (s.modParty core (·.setSegment c.id { g with step := .sent, out := some o })).toHome core o.line ev

/-- The message of a segment's write. -/
def State.segmentStore (s : State) (core : Nat) (c : EngineCmd) (g : Segment) (o : LineOut) : Instr :=
  .homeStore ⟨core, 0, o.line, o.mask, o.data, o.tagMask, o.tags, s.outClock core o.line, none, some (c.id, g.id), o.psn⟩

/-- A copy in: the bytes of one run land at the scratchpad port (R308, R310). -/
def Party.takeIn (p : Party) (c : EngineCmd) (off : Nat) (bs : List (Byte × Bool)) : Party :=
  let p1 := p.engineWrite (swizzled off bs.length c.swz) bs
  if c.box then p1.setSwzTags off bs.length c.swz else p1

def State.landCopy (s : State) (core : Nat) (p : Party) (c : EngineCmd) (g : Segment) (again : State) : State :=
  match c.kind with
  | .copyIn =>
    if g.local_ then (s.modParty core (·.takeIn c g.off (g.data.map fun b => (b, false)))).landed core c g none
    else
      match State.readRuns (p.reader core) c.strand c.id (c.tagMode != 2) s g.runs with
      | .again => again
      | .bad e addr => s.segmentBad core c g e addr
      | .got s1 bss =>
        ((g.runs.zip bss).foldl (fun s ((_, off, _), bs) => s.modParty core (·.takeIn c off bs)) s1).landed core c g
          (firstPoison (g.runs.map Prod.fst) bss)
  | _ =>
    if c.box && p.swzTag g.off != c.swz then s.stopSegment core c.id g .swizzleMismatch g.ptr.toNat
    else
      let bss := g.runs.map fun (_, off, n) => p.engineRead (swizzled off n c.swz)
      let ptrs := g.runs.map Prod.fst
      match s.writeRuns (p.reader core) c.strand c.id (ptrs.zip bss) c.tagMode with
      | .again => again
      | .bad e addr => s.segmentBad core c g e addr
      | .done s1 => s1.landed core c g (firstPoison ptrs bss)
      | .away s1 out => s1.sendSegment core c g out (s1.segmentStore core c g out)

/-- R41: the acquire of a command is performed before its first read, once a FENCE.ACQ of its strand just before it would be
satisfied (R250). -/
def State.commandAcquire (s : State) (core : Nat) (c : EngineCmd) : Option State :=
  match c.acqs with
  | none => some s
  | some cover =>
    if !s.fenceDone core c.strand ⟨1, cover, c.at_, true, []⟩ then none
    else some ((s.modParty core fun p => { p with cmds := p.cmds.map fun d => if d.id = c.id then { d with acqs := none } else d })
      |>.acquireDrops core cover)

/-- R298, R328: the end of a copy: the counts that waited for the release, the arrival, the pitch. -/
def State.completeCopy (s : State) (core id : Nat) : State :=
  match s.party? core with
  | none => s
  | some p =>
    match p.cmd? id with
    | none => s
    | some c =>
      let p1 := if c.okN + c.errN = 0 then p else p.applyCount (c.event core 0 (c.okN + c.errN) (c.errN != 0))
      let p2 := if c.arv then p1.applyCount (c.event core 1 0 false) else p1
      let p3 := { p2 with cmds := p2.cmds.filter (·.id != id) }
      let p4 := if c.seq then p3
        else p3.modStrand c.strand fun st => { st with pitch := st.pitch.finish c.pitch.toNat c.err }
      (s.setParty core p4).pump core

noncomputable section

/-- R41: a copy with an acquire but no read left to do performs it before it completes. -/
def execCopyCompletion (o : CoreItem) (s : State) : Out :=
  match s.party? o.core with
  | none => .next s
  | some p =>
    match p.cmd? o.id with
    | none => .next s
    | some c =>
      match s.commandAcquire o.core c with
      | none => .next (s.post (.copyCompletion o))
      | some s1 => .next (s1.completeCopy o.core o.id)

-- the instructions

/-- R295, R318: a place for the command, and the strand's earlier scratchpad accesses performed. -/
def copyReady (x : Ctx) (s : State) : Bool := portReady x s && (s.party? x.w.core).any Party.cmdRoom

/-- Pages that a lane's range of `n` bytes touches beyond its first. -/
def laterPages (lane : Nat) (addr : Dword) (n : Nat) : List LanePart :=
  (List.range ((addr.toNat % 65536 + n - 1) / 65536)).map fun k =>
    ⟨lane, addr + BitVec.ofNat 64 (65536 * (k + 1)), 0, 1, 0, 0, .scratch 0, .waiting, 0, false, false⟩

/-- A per-lane copy (R300). -/
def laneCopy (i : Instr) (o : LM) (s : State) : Out :=
  issue i noTxn copyReady (fun x s =>
    match s.party? x.w.core with
    | none => .stall
    | some p =>
      let (r, p1) := p.dataSrc x.w .l32 o.r
      let (a, p2) := p1.addresses x.w o.b o.o o.sh.toNat
      (s.setParty x.w.core p2).startCopy x { x.access p .command 0 with
        op := some i
        base := a.base
        pl1 := r
        pl2 := a.off
        parts := laneParts (p.active x.w) fun k => (a.addr[k], (r[k]).toNat, 0) }) s

def execCpw (o : LM) (s : State) : Out := laneCopy (.cpw o) o s
def execCpd (o : LM) (s : State) : Out := laneCopy (.cpd o) o s
def execCpq (o : LM) (s : State) : Out := laneCopy (.cpq o) o s
def execCpws (o : LM) (s : State) : Out := laneCopy (.cpws o) o s
def execCpds (o : LM) (s : State) : Out := laneCopy (.cpds o) o s
def execCpqs (o : LM) (s : State) : Out := laneCopy (.cpqs o) o s

/-- R303. -/
def execCprow (o : LL) (s : State) : Out :=
  issue (.cprow o) noTxn copyReady (fun x s =>
    match s.party? x.w.core with
    | none => .stall
    | some p =>
      let (va, p1) := p.srcU x.w o.a
      let (a, p2) := p1.addresses x.w o.b o.o 0
      let (vc, p3) := p2.srcU x.w o.c
      if vc.extractLsb' 24 40 ≠ 0 then .fault .illegalOperand 0
      else
        let own := laneParts (p.active x.w) fun k => (a.addr[k], 0, 0)
        (s.setParty x.w.core p3).startCopy x { x.access p .command 0 with
          op := some (.cprow o)
          ord := o.ord
          entry := p.entryAt o.scope
          base := a.base
          pl1 := logUniform va
          pl2 := a.off
          pl3 := logUniform vc
          parts := own ++ own.flatMap fun q => laterPages q.lane q.addr vc.toNat }) s

end

end Sys2Proof.Machine
end

