-- ==== Sys2Proof/Machine/CampMem.lean ====
section
/-!
DEFINITION. Machine/CampMem.lean: Base Camp's reads and writes in the command space (R469, R472, R518), the completion of
commands and grids (R476, R484, R485).
-/

namespace Sys2Proof.Machine

/-- The dies that Base Camp reaches (R487). -/
def State.campUp (s : State) (die : Nat) : Bool := !s.fenced.contains die

/-- R284: a commit holds a line. What Base Camp does to memory in one event waits until none is held. -/
def State.commitsHold (s : State) : Bool := s.l2.any fun (_, x) => x.lock.isSome

/-- R469, R518: the place of a byte of an address space for Base Camp, through the tables alone. -/
def State.campAt (s : State) (root : Nat) (ptr : Dword) (write : Bool) : Except Cause (State × Nat) :=
  if ptr.extractLsb' 60 4 ≠ 0 then .error .noncanonicalAddress
  else
    let va := ptr.toNat % 2 ^ 56
    match s.walkFrom s.campUp root va 3 with
    | .error c => .error (s.walkFault root va (!write) write true c)
    | .ok (level, e, r) =>
      if write && !pteW e then .error .protectionWrite
      else if !write && !pteR e then .error .protectionRead
      else if pteMcast e || pteHome e == 3 then .error .attributeConflict
      else
        let e1 := e ||| usedBits write
        let s1 := if e1 = e then s else s.setPteBits r e1
        match s1.resolve (leafPa level e va) with
        | none => .error .homeUnreachable
        | some q => if !s1.campUp (homeDie q) then .error .homeUnreachable else .ok (s1, q)

/-- The bytes of a run inside one line. -/
def State.campBytes (s : State) (r n : Nat) : List Byte :=
  if isMmioOff (resOff r) then (if regWidthOk r n then natBytes n (s.mmioRead r n) else natBytes n 0)
  else natBytes n (s.readMem r n)

/-- `n` bytes of an address space, line by line; a fault with its address. -/
def campReadFrom (root : Nat) : Nat → State → Dword → Nat → List Byte → Except (Cause × Dword) (State × List Byte)
  | 0, s, _, _, acc => .ok (s, acc)
  | k + 1, s, ptr, n, acc =>
    if n = 0 then .ok (s, acc)
    else
      let m := min n (128 - ptr.toNat % 128)
      match s.campAt root ptr false with
      | .error c => .error (c, ptr)
      | .ok (s1, r) => campReadFrom root k s1 (ptr + BitVec.ofNat 64 m) (n - m) (acc ++ s1.campBytes r m)
def State.campRead (s : State) (root : Nat) (ptr : Dword) (n : Nat) : Except (Cause × Dword) (State × List Byte) :=
  campReadFrom root (n / 128 + 2) s ptr n []

/-- R271, R286, R469: bytes of one line written at their home by Base Camp, as a remote store. -/
def State.campStore (s : State) (r : Nat) (bs : List Byte) : State :=
  let k := r % 128
  let mask := byteMask k bs.length
  let data := atByte k (bytesNat bs)
  if isMmioOff (resOff r) then (if regWidthOk r bs.length then s.mmioWrite 0 (lineOf r) mask data else s)
  else (((s.writeMem r bs).clearPoison (lineOf r) mask).stampWrite (lineOf r) 0).1

/-- Bytes written upward, line by line: the state reached, the bytes written, and the fault that stopped it with its address. -/
def campWriteFrom (root : Nat) : Nat → State → Dword → List Byte → Nat → State × Nat × Option (Cause × Dword)
  | 0, s, _, _, done => (s, done, none)
  | k + 1, s, ptr, bs, done =>
    if bs = [] then (s, done, none)
    else
      let m := min bs.length (128 - ptr.toNat % 128)
      match s.campAt root ptr true with
      | .error c => (s, done, some (c, ptr))
      | .ok (s1, r) =>
        campWriteFrom root k (s1.campStore r (bs.take m)) (ptr + BitVec.ofNat 64 m) (bs.drop m) (done + m)
def State.campWrite (s : State) (root : Nat) (ptr : Dword) (bs : List Byte) : State × Nat × Option (Cause × Dword) :=
  campWriteFrom root (bs.length / 128 + 2) s ptr bs 0

/-- A doubleword of the command space. -/
def State.campWord (s : State) (ptr : Dword) : Except Cause (State × Dword) :=
  match s.campRead s.bc.qroot ptr 8 with
  | .error (c, _) => .error c
  | .ok (s1, bs) => .ok (s1, BitVec.ofNat 64 (bytesNat bs))

-- completion (R484)

/-- R468: the package that holds the rack role, whose count the commands' times are (R476, R484). -/
def State.rackHolder (s : State) : Nat := (kget s.bc.roles 0).getD 0

/-- The command is complete: its record waits for its turn in the completion ring. -/
def State.finishCommand (s : State) (r : CmdResult) : State :=
  (s.modBc fun b => { b with
    done := b.done ++ [(r, s.rackTime s.rackHolder)]
    active := b.active.map fun a => if a.seq = r.seq then { a with wait := .record } else a }).post (.commandCompletion r)

/-- A started command completes. -/
def State.finishActive (s : State) (a : ActiveCmd) (c : Cause) (result : Nat) : State :=
  s.finishCommand ⟨a.tag, a.op, c, a.seq, BitVec.ofNat 64 result, a.irq⟩

-- failed items and the end of a grid (R400, R485)

/-- R485: an entry of the fail log. -/
def failEntry (wid : Dword) (core : Nat) (c : Cause) (index : Nat) : List Byte :=
  natBytes 8 wid.toNat ++ natBytes 2 core ++ natBytes 1 (causeCode c).toNat ++ [0] ++ natBytes 2 index ++ [0, 0]

/-- R485: an item is reported failed. A fail log that cannot be written loses the entry. -/
def State.failItem (s : State) (tag : BitVec 32) (wid : Dword) (core index : Nat) (c : Cause) : State :=
  match s.grid? tag with
  | none => s
  | some g =>
    let n := g.failed
    let s1 := s.setGrid { g with failed := n + 1 }
    if g.failLog = 0 then s1
    else
      match s1.campRead s1.bc.qroot g.failLog 4 with
      | .error _ => s1
      | .ok (s2, bs) =>
        let s3 := if n < bytesNat bs then
            (s2.campWrite s2.bc.qroot (g.failLog + BitVec.ofNat 64 (16 + 16 * n)) (failEntry wid core c index)).1
          else s2
        (s3.campWrite s3.bc.qroot (g.failLog + 4) (natBytes 4 (n + 1))).1

/-- R400: every open item and batch of a party is reported failed. -/
def State.failParty (s : State) (p : Party) (core : Nat) (c : Cause) : State :=
  let s1 := p.items.foldl (fun s i => s.failItem p.grid i.wid core p.index c) s
  p.batches.foldl (fun s b => s.failItem p.grid b.handle core p.index c) s1

/-- R476: the LAUNCH of a grid whose parties have all ended completes, and the grid is gone. -/
def State.gridEnd (s : State) (tag : BitVec 32) : State :=
  match s.grid? tag with
  | none => s
  | some g =>
    if g.live ≠ 0 then s
    else
      let s1 := { s with grids := serase tag.toNat s.grids }
      match s1.bc.active.find? fun a => a.grid == tag && a.wait == .launch with
      | none => s1
      | some a => s1.finishActive a g.cause g.failed

/-- A party has left its core for good (R114, R400): its batches retire, its flows, its waiting packets and its unresolved faults go, its rope
learns of it (R339), the die's range may return (R391), a suspended party may resume (R412), and its grid may end. -/
def State.removeParty (s : State) (core : Nat) : State :=
  match s.party? core with
  | none => s
  | some p =>
    let s0 := { s with parties := serase core s.parties }.leaveRope core p.grid
    let s1 := p.batches.foldl (fun s b => s.retireBatch p.grid b) s0
    let s2 := { s1 with
      packets := s1.packets.filter fun k => !(k.grid == p.grid && k.index == p.index && k.step == PktStep.waiting) }
    let s3 := s2.modBc fun b => { b with faults := b.faults.filter fun f => !(f.grid == p.grid && f.index == p.index) }
    let s4 := s3.modGrid p.grid fun g => { g with live := g.live - 1 }
    (s4.returnRange p.grid (dieOfCore core)).rebalanceAll.gridEnd p.grid

end Sys2Proof.Machine
end

