-- ==== Sys2Proof/Machine/MatrixFormat.lean ====
section
/-!
DEFINITION. Machine/MatrixFormat.lean: tile configurations (R335, R336, R338, R339), format blocks, containers, operand
elements and scales (R343-R352), the chunked sum (R62, R64, R65, R353, R354).
-/

namespace Sys2Proof.Machine

-- tile configurations (R335, R336)

/-- A tile configuration. -/
structure Tcfg where
  ashare : Bool
  rowpos : Nat
  colpos : Nat
  rope : Nat
  af : Nat
  tcnt : Nat
  kt : Nat
  nt : Nat
  mt : Nat
  zero : Nat
  deriving DecidableEq, Repr

/-- R335. -/
def Tcfg.of (v : Dword) : Tcfg where
  ashare := v.getLsbD 45
  rowpos := (v.extractLsb' 44 1).toNat
  colpos := (v.extractLsb' 43 1).toNat
  rope := (v.extractLsb' 41 2).toNat
  af := (v.extractLsb' 39 2).toNat
  tcnt := (v.extractLsb' 33 6).toNat
  kt := (v.extractLsb' 20 13).toNat
  nt := (v.extractLsb' 10 10).toNat
  mt := (v.extractLsb' 0 10).toNat
  zero := (v.extractLsb' 46 18).toNat

/-- R336. -/
def Tcfg.valid (c : Tcfg) : Bool :=
  c.mt % 16 == 0 && 16 ≤ c.mt && c.mt ≤ 256 && c.nt % 16 == 0 && 16 ≤ c.nt && c.nt ≤ 512
    && c.kt % 4 == 0 && 4 ≤ c.kt && c.kt ≤ 4096 && 1 ≤ c.tcnt && c.tcnt ≤ 32 && c.af != 3
    && c.tcnt * c.mt * c.nt ≤ (if c.af == 1 then 65536 else 131072) && c.zero == 0
    && (c.rowpos == 0 || 2 ≤ c.rope) && (c.colpos == 0 || c.rope == 1 || c.rope == 3)
    && (!c.ashare || c.rope == 1 || c.rope == 3)

/-- The accumulator format; none is S32. -/
def Tcfg.accFmt (c : Tcfg) : Option Fmt := if c.af = 0 then some f32 else if c.af = 1 then some f64 else none
/-- Bits of an accumulator element. -/
def Tcfg.accBits (c : Tcfg) : Nat := if c.af = 1 then 64 else 32

/-- R338: the entry of an element. -/
def Tcfg.entry (c : Tcfg) (t i j : Nat) : Nat := t * c.mt * c.nt + i * c.nt + j

/-- R339: the row and column position that a core has in a rope. -/
def ropePos (rope core : Nat) : Nat × Nat :=
  match rope with
  | 0 => (0, 0)
  | 1 => (0, core % 2)
  | 2 => (core % 2, 0)
  | _ => (core % 4 / 2, core % 2)

/-- R339: the fields that the members of a rope must share. -/
def Tcfg.sameRope (a b : Tcfg) : Bool :=
  a.rope == b.rope && a.ashare == b.ashare && a.mt == b.mt && a.nt == b.nt && a.kt == b.kt && a.tcnt == b.tcnt && a.af == b.af

-- format blocks (R343, R344)

/-- R343: the fields of a block's 32 bytes; the flag says that a reserved byte is not zero. -/
def FormatBlock.of (bs : List Byte) : FormatBlock × Bool :=
  (⟨BitVec.ofNat 16 (fieldAt bs 0 2), fieldAt bs 2 1, fieldAt bs 3 1, fieldAt bs 4 1, fieldAt bs 5 1, fieldAt bs 6 1,
    fieldAt bs 7 1, BitVec.ofNat 16 (fieldAt bs 8 2), fieldAt bs 0xC 4, fieldAt bs 0x10 4, fieldAt bs 0x18 4,
    fieldAt bs 0x1C 4⟩,
   fieldAt bs 0xA 2 != 0 || fieldAt bs 0x14 4 != 0)

/-- R345: bits of an element's container. -/
def narrowBits (code : BitVec 16) : Nat := if (fmtOfCode code).width ≤ 4 then 4 else 8
def FormatBlock.bits (b : FormatBlock) : Nat :=
  match b.ekind with
  | 0 => narrowBits b.fmt
  | 1 => 64
  | 2 => 16
  | 3 => 16
  | _ => 8

/-- Bytes that hold `n` containers of `bits` bits. -/
def packedBytes (n bits : Nat) : Nat := (n * bits + 7) / 8

/-- R345. -/
def FormatBlock.rowBytes (b : FormatBlock) (kt : Nat) : Nat := packedBytes kt b.bits

/-- R350: the bytes of the value array of a 2:4 column, rounded up to 16. -/
def FormatBlock.sparseP (b : FormatBlock) (kt : Nat) : Nat := (packedBytes (kt / 2) b.bits + 15) / 16 * 16
/-- R350: bytes of a palette group. -/
def FormatBlock.groupBytes (b : FormatBlock) : Nat := if b.bits = 16 then 96 else 80

/-- R350: column bytes. -/
def FormatBlock.columnBytes (b : FormatBlock) (kt : Nat) : Nat :=
  match b.comp with
  | 0 => b.rowBytes kt
  | 1 => b.sparseP kt + (kt + 7) / 8
  | _ => (kt + 127) / 128 * b.groupBytes

/-- R351: the bytes of a column that an operation over `k` elements reads. -/
def FormatBlock.columnRead (b : FormatBlock) (kt k : Nat) : Nat :=
  match b.comp with
  | 0 => packedBytes k b.bits
  | 1 => b.sparseP kt + (k + 7) / 8
  | _ => ((k + 127) / 128 - 1) * b.groupBytes + (b.groupBytes - 64) + (k - 1) % 128 / 2 + 1

/-- R65: an integer element format. -/
def FormatBlock.integer (b : FormatBlock) : Bool :=
  (b.ekind == 4 || b.ekind == 5 || (b.ekind == 0 && (fmtOfCode b.fmt).e == 0 && (fmtOfCode b.fmt).bias == 0)) && b.skind == 0

/-- R344: the conditions on the fields that name the elements and scales. -/
def FormatBlock.badKinds (b : FormatBlock) (af : Nat) : Bool :=
  5 < b.ekind || 2 < b.skind
    || (b.ekind == 0 && !(fmtOfCode b.fmt).valid) || (b.ekind != 0 && b.fmt != 0)
    || (b.skind != 0 && b.ekind != 0) || (b.skind == 2 && !(fmtOfCode b.sfmt).valid) || (b.skind != 2 && b.sfmt != 0)
    || (b.skind != 0 && !(4 ≤ b.blen && b.blen ≤ 7)) || (b.skind == 0 && b.blen != 0)
    || ((b.ekind == 1) != (af == 1))
    || (af == 2 && !b.integer)
    || (af != 2 && (b.ekind == 4 || b.ekind == 5 || (b.ekind == 0 && (fmtOfCode b.fmt).e == 0)))

/-- R344: the conditions on the other fields of one block. -/
def FormatBlock.badPlaces (b : FormatBlock) (isA : Bool) (kt : Nat) : Bool :=
  3 < b.swz || 2 < b.comp || 1 < b.layout
    || (b.skind == 0 && (b.saddr != 0 || b.sstride != 0))
    || (isA && b.comp != 0) || (!isA && b.layout != 0) || (b.comp != 0 && b.ekind == 1)
    || (b.layout == 1 && (b.swz != 0 || b.stride != 0 || b.addr != 0))
    || (b.layout == 0 && (b.stride % 16 != 0
        || decide (b.stride < (if isA then b.rowBytes kt else b.columnBytes kt))))

-- elements and scales (R345-R350, R52)

/-- An unsigned or signed integer as an exact value. -/
def intVal (x : Int) : Val := .fin (decide (x < 0)) x.natAbs 0

/-- The value of a container's bits in a block's element format. -/
def FormatBlock.decode (b : FormatBlock) (v : Nat) : Val :=
  match b.ekind with
  | 0 => decodeF (fmtOfCode b.fmt) (v % 2 ^ (fmtOfCode b.fmt).width)
  | 1 => decodeF f64 v
  | 2 => decodeF f16 v
  | 3 => decodeF b16 v
  | 4 => intVal (BitVec.ofNat 8 v).toInt
  | _ => intVal (v % 256)

/-- R345: container `k` of a byte array. -/
def containerAt (get : Nat → Byte) (bits k : Nat) : Nat :=
  if bits = 4 then (get (k / 2)).toNat / 16 ^ (k % 2) % 16
  else bytesNat ((List.range (bits / 8)).map fun i => get (k * (bits / 8) + i))

/-- R350: element `k` of a column whose bytes `get` gives. -/
def FormatBlock.columnElement (b : FormatBlock) (kt : Nat) (get : Nat → Byte) (k : Nat) : Val :=
  match b.comp with
  | 0 => b.decode (containerAt get b.bits k)
  | 1 =>
    let g := k / 4
    let meta_ := (get (b.sparseP kt + g / 2)).toNat / 16 ^ (g % 2) % 16
    if meta_ / 4 = k % 4 then b.decode (containerAt get b.bits (2 * g + 1))
    else if meta_ % 4 = k % 4 then b.decode (containerAt get b.bits (2 * g))
    else b.decode 0
  | _ =>
    let base := k / 128 * b.groupBytes
    let n := b.groupBytes - 64
    let idx := (get (base + n + k % 128 / 2)).toNat / 16 ^ (k % 2) % 16
    b.decode (bytesNat ((List.range (n / 16)).map fun i => get (base + idx * (n / 16) + i)))

/-- R52, R348: bits of a scale's container. -/
def FormatBlock.scaleBits (b : FormatBlock) : Nat := if b.skind = 2 then narrowBits b.sfmt else 8
/-- R348: bytes of the scale array that `k` elements use. -/
def FormatBlock.scaleBytes (b : FormatBlock) (k : Nat) : Nat :=
  if b.skind = 0 then 0 else packedBytes ((k + 2 ^ b.blen - 1) / 2 ^ b.blen) b.scaleBits

/-- R52: the scale of the block that holds element `k`. -/
def FormatBlock.scale (b : FormatBlock) (get : Nat → Byte) (k : Nat) : Val :=
  match b.skind with
  | 0 => .fin false 1 0
  | 1 =>
    let v := (get (k / 2 ^ b.blen)).toNat
    if v = 255 then .nan else .fin false 1 ((v : Int) - 127)
  | _ => decodeF (fmtOfCode b.sfmt) (containerAt get b.scaleBits (k / 2 ^ b.blen) % 2 ^ (fmtOfCode b.sfmt).width)

/-- R64: the chunk length of a block's elements. -/
def FormatBlock.chunk (b : FormatBlock) : Nat :=
  if b.ekind = 1 then 4 else if b.skind ≠ 0 then 2 ^ b.blen else 32

-- the sum (R62, R64, R65, R353, R354)

/-- A sum or product that R62 makes a NaN. -/
def orNaN (v : Option Val) : Val := v.getD .nan

/-- R64: the exact sum of a chunk's products. -/
def chunkSum (a b : Nat → Val) (k0 k1 : Nat) : Val :=
  (List.range (k1 - k0)).foldl (fun acc i => orNaN (vAdd acc (orNaN (vMul (a (k0 + i)) (b (k0 + i)))))) (.fin false 0 0)

/-- R64: an exactly zero chunk is +0. -/
def posZero : Val → Val
  | .fin _ 0 e => .fin false 0 e
  | v => v

/-- R354: an operation never writes −0. -/
def noNegZero (f : Fmt) (v : Nat) : Nat :=
  match decodeF f v with
  | .fin true 0 _ => 0
  | _ => v

/-- R62, R64, R354: one element of a floating-point accumulator. -/
def mulAccF (f : Fmt) (chunk k : Nat) (a b sa sb : Nat → Val) (acc : Nat) : Nat :=
  (List.range ((k + chunk - 1) / chunk)).foldl (fun acc c =>
    let k0 := c * chunk
    let s0 := chunkSum a b k0 (min k (k0 + chunk))
    let s := posZero (orNaN (vMul (orNaN (vMul s0 (sa k0))) (sb k0)))
    noNegZero f (roundTo f .rne (orNaN (vAdd (decodeF f acc) s)))) acc

/-- R65: one element of an S32 accumulator. -/
def mulAccI (k : Nat) (a b : Nat → Val) (acc : Nat) : Nat :=
  let int : Val → Int
    | .fin n m _ => signed n m
    | _ => 0
  let sum := (List.range k).foldl (fun (t : Int) i => t + int (a i) * int (b i)) 0
  (BitVec.ofInt 32 ((acc : Int) + sum)).toNat

end Sys2Proof.Machine
end

