-- ==== Sys2Proof/Machine/StreamIssue.lean ====
section
/-!
DEFINITION. Machine/StreamIssue.lean: the issue of a stream instruction by the matrix sequencer (R331, R332, R358, R359),
the stream's registers, fences and end (R361, R363, R364), MSTART (R356, R357).
-/

namespace Sys2Proof.Machine

/-- What the body of a stream instruction answers: it issued; it is not ready after all; it faults, with the byte that
its matrix notice names. -/
inductive SeqDone where
  | ok (s : State)
  | stall
  | fault (c : Cause) (addr : Nat)

/-- R79: a register field: a k register, or zr where the instruction admits it. -/
def kOk (r : BitVec 7) (zrToo : Bool) : Bool := r.toNat < 16 || (zrToo && r == zr)

/-- R330: a stream operation of a kind is in flight. -/
def Sequencer.busy (q : Sequencer) (f : StreamOp → Bool) : Bool := q.ops.any f

/-- R331: the sequencer waits on q1 for an operation. -/
def Hold.onOp : Hold → Bool
  | .op _ => true
  | _ => false

/-- R363, R364: stream CPBOX commands that have not completed. -/
def Party.streamCopies (p : Party) : Bool :=
  p.cmds.any fun c => c.seq && (c.kind == .copyIn || c.kind == .copyOut)

noncomputable section

/-- THE ISSUE of a stream instruction: `regs` are its register fields. The body sees the stream PC already advanced. Nothing of it is
looked at while the sequencer waits on q1 for the instruction before it (R331). A strand takes ILLEGAL_OPCODE (R95). -/
def streamIssue (i : Instr) (regs : List (BitVec 7 × Bool)) (ready : Nat → Party → Bool)
    (body : Nat → Party → State → SeqDone) (s : State) : Out :=
  match s.focus with
  | .sequencer core =>
    match s.party? core with
    | none => .fault .noIssuer
    | some p =>
      let words := instrWords i
      if p.seq.hold.onOp then .next s
      else if !reservedOk i then .next (s.markIssued.streamFault core .reservedField words)
      else if !regs.all fun r => kOk r.1 r.2 then .next (s.markIssued.streamFault core .illegalOperand words)
      else if !ready core p then .next s
      else
        let s1 := s.markIssued.modParty core (·.modSeq fun q => { q with pc := q.pc + BitVec.ofNat 56 (instrLen i), state := .running })
        match body core p s1 with
        | .stall => .next s
        | .fault c a => .next (s.markIssued.streamFault core c words a)
        | .ok t => .next t
  | _ => refusedWord (instrWords i) atOnce (fun _ _ => .illegalOpcode) .illegalOpcode 0 false s

def seqAlways (_ : Nat) (_ : Party) : Bool := true

/-- A stream instruction whose effect lies in the sequencer. -/
def seqOnly (i : Instr) (regs : List (BitVec 7 × Bool)) (f : Sequencer → Sequencer) (s : State) : Out :=
  streamIssue i regs seqAlways (fun core _ s => .ok (s.modParty core (·.modSeq f))) s

-- stream registers (R361, R159)

/-- R361. -/
def execKadd (o : UR) (s : State) : Out :=
  seqOnly (.kadd o) [(o.d, true), (o.a, true), (o.b, true)] (fun q => q.setK o.d (q.kreg o.a + q.kreg o.b)) s
def execKaddi (o : UI) (s : State) : Out :=
  seqOnly (.kaddi o) [(o.d, true), (o.a, true)] (fun q => q.setK o.d (q.kreg o.a + o.imm.signExtend 64)) s
def execKlim (o : UI) (s : State) : Out :=
  seqOnly (.klim o) [(o.a, true)] (fun q => { q with limit := q.kreg o.a + o.imm.signExtend 64 }) s
/-- R361: the branch is taken from the KLOOP's own address. -/
def execKloop (o : UI) (s : State) : Out :=
  streamIssue (.kloop o) [(o.d, false)] seqAlways (fun core p s =>
    let v := p.seq.kreg o.d + 1
    .ok (s.modParty core (·.modSeq fun q =>
      let q1 := q.setK o.d v
      if v.toNat < q.limit.toNat then { q1 with pc := p.seq.pc + ((o.imm.signExtend 56) <<< 2) } else q1))) s

/-- R159: a chunk of a 64-bit value. -/
def chunkMask (h : BitVec 2) : Dword := 0xFFFF#64 <<< (16 * h.toNat)
def chunkAt (h : BitVec 2) (imm : BitVec 16) : Dword := (imm.setWidth 64) <<< (16 * h.toNat)

/-- A SLIMZ or SLIMK: in a strand on s registers, in the stream on k registers. -/
def slim (i : Instr) (o : UK) (f : Dword → Dword) (s : State) : Out :=
  match s.focus with
  | .sequencer _ => seqOnly i [(o.d.setWidth 7, false)] (fun q => q.setK (o.d.setWidth 7) (f (q.kreg (o.d.setWidth 7)))) s
  | _ =>
    issueParty i (fun x p =>
      let r := sSpec o.d.toNat
      let (v, p1) := p.srcU x.w r
      p1.dstU x.w r (f v)) s
def execSlimz (o : UK) (s : State) : Out := slim (.slimz o) o (fun _ => chunkAt o.h o.imm) s
def execSlimk (o : UK) (s : State) : Out := slim (.slimk o) o (fun v => (v &&& ~~~chunkMask o.h) ||| chunkAt o.h o.imm) s

-- fences and the end (R363, R364, R331)

/-- R363, R331: every earlier stream operation has completed. -/
def streamQuiet (_ : Nat) (p : Party) : Bool := p.seq.ops.isEmpty && !p.streamCopies

def execMfence (o : UJ) (s : State) : Out := streamIssue (.mfence o) [] streamQuiet (fun _ _ s => .ok s) s

/-- R364, R114: the sequencer is Idle; the party ends if no strand is left. -/
def execMend (o : UJ) (s : State) : Out :=
  streamIssue (.mend o) [] streamQuiet (fun core p s =>
    let s1 := s.modParty core (·.modSeq fun q => { q with state := .idle })
    .ok (if p.anyLive then s1 else s1.post (.partyEnd ⟨core⟩))) s

-- MSTART (R356, R357)

/-- The set bits of MASK. -/
def maskBits (o : UL) : List Nat := (List.range 8).filter fun n => o.w1.getLsbD n

/-- R357: the entry is not an instruction's address; an empty register has no value to judge (R96). -/
def badEntry (o : UL) (x : Ctx) (p : Party) : Bool :=
  let a := (p.srcU x.w o.a).1
  (p.strand x.w.strand).isFull o.a.toNat && (a.extractLsb' 0 2 != 0 || a.extractLsb' 56 8 != 0)

/-- R357: the release at scope party waits for the strand's earlier accesses. -/
def execMstart (o : UL) (s : State) : Out :=
  issue (.mstart o) (fun x p =>
      if p.seq.state ≠ .idle then some .illegalOperand
      else if isS o.b && (maskBits o).any fun n => 23 < o.b.toNat - 88 + n then some .illegalOperand
      else if badEntry o x p then some .illegalOperand
      else none)
    (fun x s => settledReady x s
      && (o.eb || !isS o.b || (maskBits o).all fun n => (s.strandOf x.w).isFull (o.b.toNat + n)))
    (fun x s =>
      match s.party? x.w.core with
      | none => .stall
      | some p =>
        let (a, p1) := p.srcU x.w o.a
        let st := p.strand x.w.strand
        if isS o.b && !(maskBits o).all fun n => st.isFull (o.b.toNat + n) then .fault .feEmpty 0
        else
          let val (n : Nat) : Dword := if isS o.b then st.sreg (o.b.toNat - 88 + n) else 0
          let p2 := p1.modSeq fun q =>
            { q with
              k := (maskBits o).foldl (fun k n => k.setIfInBounds n (val n)) q.k
              owner := x.w.strand
              pc := a.setWidth 56
              state := .running
              hold := .none }
          .ok (s.setParty x.w.core p2) (some x.w)) s

end

end Sys2Proof.Machine
end

