-- ==== Sys2Proof/Machine/Matrix.lean ====
section
/-!
DEFINITION. Machine/Matrix.lean: the stream instructions on tiles, slots and barriers (R333-R354, R362, R365-R377), and the
completion of their operations (R370, R378).
-/

namespace Sys2Proof.Machine

-- the matrix state

def Sequencer.tcfg (q : Sequencer) : Option Tcfg := if q.cfg = 0 then none else some (Tcfg.of q.cfg)
def Sequencer.accAt (q : Sequencer) (c : Tcfg) (t i j : Nat) : Nat := sget 0 q.acc (c.entry t i j)
def Sequencer.setAcc (q : Sequencer) (c : Tcfg) (t i j v : Nat) : Sequencer := { q with acc := sput 0 q.acc (c.entry t i j) v }

/-- R349: bytes of a slot lie from its start in the weight buffer. -/
def slotBase (n : Nat) : Nat := n * 262144
def Sequencer.slotByte (q : Sequencer) (slot off : Nat) : Byte := sget 0 q.wbuf (slotBase slot + off)
def Sequencer.writeSlot (q : Sequencer) (slot off : Nat) (bs : List Byte) : Sequencer :=
  { q with wbuf := scratchWrite q.wbuf (slotBase slot + off) bs }
def Sequencer.setValid (q : Sequencer) (slot : Nat) (b : Bool) : Sequencer :=
  { q with valid := if b then q.valid ||| (1#4 <<< slot) else q.valid &&& ~~~(1#4 <<< slot) }

/-- R337: no configuration, or a tile index of T or more. -/
def Sequencer.tileOk (q : Sequencer) (t : Nat) : Bool := q.tcfg.any fun c => t < c.tcnt

/-- A sequencer held by an operation goes on. -/
def Sequencer.freeOp (q : Sequencer) (id : Nat) : Sequencer :=
  if q.hold = .op id then { q with hold := .none, state := if q.state = .waiting then .running else q.state } else q
def Sequencer.dropOp (q : Sequencer) (id : Nat) : Sequencer := { q.freeOp id with ops := q.ops.filter (·.id != id) }
def Sequencer.setOp (q : Sequencer) (o : StreamOp) : Sequencer :=
  { q with ops := q.ops.map fun x => if x.id = o.id then o else x }

/-- R367: a WLOAD of the slot that has not ended. -/
def StreamOp.loads (slot : Nat) (o : StreamOp) : Bool :=
  match o.kind with
  | .wload _ _ _ _ => o.slot == some slot
  | _ => false

/-- R349, R368: a WLOAD of a slot has ended; of several, the last to issue decides whether the slot is valid. -/
def Sequencer.loaded (q : Sequencer) (id slot : Nat) (ok : Bool) : Sequencer :=
  q.setValid slot (ok && !((q.ops.dropWhile (·.id != id)).drop 1).any (·.loads slot))

/-- R333: no earlier operation shares a tile or a slot with this one. -/
def Sequencer.turn (q : Sequencer) (o : StreamOp) : Bool :=
  !(q.ops.takeWhile (·.id != o.id)).any fun x =>
    (x.tile.isSome && x.tile == o.tile) || (x.slot.isSome && x.slot == o.slot)

/-- An A-shared multiply: they pair in issue order (R340). -/
def StreamOp.shares (o : StreamOp) : Bool :=
  match o.kind with
  | .mma _ _ _ _ _ _ sh => sh
  | _ => false

/-- A new operation joins the stream's operations, and its completion is an event. -/
def State.startOp (s : State) (core : Nat) (p : Party) (kind : OpKind) (tile slot : Option Nat) (hold : Bool) : State :=
  let id := s.nextId
  let op : StreamOp := ⟨id, p.seq.pc, kind, tile, slot⟩
  ((s.modParty core (·.modSeq fun q =>
    { q with
      ops := q.ops ++ [op]
      hold := if hold then .op id else q.hold
      state := if hold then .waiting else q.state })).bump).post (.matrixOpComplete ⟨core, id⟩)

/-- R331: the sequencer stands at an instruction that it holds. -/
def State.holdAt (s : State) (core : Nat) (pc : Pc) (h : Hold) : State :=
  s.modParty core (·.modSeq fun q => { q with pc := pc, hold := h, state := .waiting })
/-- The held instruction has issued: the sequencer runs on. -/
def State.release (s : State) (core : Nat) : State :=
  s.modParty core (·.modSeq fun q => { q with hold := .none, offer := none, state := .running })

-- ropes (R339-R341)

/-- R339: every member core holds a party of the grid. -/
def State.ropeHeld (s : State) (core rope : Nat) (grid : BitVec 32) : Bool :=
  (ropeCores rope core).all fun c => (s.party? c).any fun t => t.grid == grid

/-- R340: the other member of a core's rope row. -/
def ropeMate (core : Nat) : Nat := core / 2 * 2 + (1 - core % 2)

-- reads of an operation

/-- Bytes of scratchpad from an offset, by number. -/
def Party.scratchFn (p : Party) (off : Nat) (k : Nat) : Byte := sget 0 p.scratch (off + k)
def Party.swzFn (p : Party) (off sw : Nat) (k : Nat) : Byte := sget 0 p.scratch (swizzle (off + k) sw)
def listFn (l : List Byte) (k : Nat) : Byte := l[k]?.getD 0

/-- R347: the bytes of a row popped from q1, `n` entries. -/
def entryBytes (es : List (Lanes Word)) : List Byte := es.flatMap fun e => laneList.flatMap fun i => natBytes 4 (e[i]).toNat

/-- R346, R347: the bytes of each A row, `n` bytes of it. -/
def Party.aRows (p : Party) (a : FormatBlock) (rows : List (Lanes Word)) (kt m n : Nat) : List (List Byte) :=
  (List.range m).map fun i =>
    if a.layout = 1 then
      let e := (a.rowBytes kt + 127) / 128
      (entryBytes ((rows.drop (i * e)).take e)).take n
    else (List.range n).map (p.swzFn (a.addr + i * a.stride) a.swz)

/-- R348: the scale bytes of each A row or B column. -/
def Party.scaleRows (p : Party) (b : FormatBlock) (m n : Nat) : List (List Byte) :=
  (List.range m).map fun i => (List.range n).map (p.scratchFn (b.saddr + i * b.sstride))

/-- R353: a multiply into its tile, from the A rows and scales and the slot. -/
def Party.multiply (p : Party) (c : Tcfg) (t slot : Nat) (a b : FormatBlock) (m n k : Nat) (ra sa : List (List Byte)) : Party :=
  let sb := p.scaleRows b n (b.scaleBytes k)
  let chunk := min a.chunk b.chunk
  p.modSeq fun q =>
    (List.range m).foldl (fun q i => (List.range n).foldl (fun q j =>
      let fa (x : Nat) : Val := a.decode (containerAt (listFn (ra[i]?.getD [])) a.bits x)
      let fb (x : Nat) : Val := b.columnElement c.kt (fun y => q.slotByte slot (b.addr + j * b.stride + y)) x
      let ga (x : Nat) : Val := a.scale (listFn (sa[i]?.getD [])) x
      let gb (x : Nat) : Val := b.scale (listFn (sb[j]?.getD [])) x
      let old := q.accAt c t i j
      let new := match c.accFmt with
        | some f => mulAccF f chunk k fa fb ga gb old
        | none => mulAccI k fa fb old
      q.setAcc c t i j new) q) q

-- the checks of a multiply (R344, R351, R352)

/-- The first byte of `m` ranges of `n` bytes that lies beyond the scratchpad. -/
def Party.beyond (p : Party) (base stride m n : Nat) : Option Nat :=
  (List.range m).findSome? fun i =>
    if p.scratchSize < base + i * stride + n then some (max (base + i * stride) p.scratchSize) else none

/-- R346: the first byte of the A rows in a KiB whose swizzle tag is not SWZ. -/
def FormatBlock.strayTag (a : FormatBlock) (p : Party) (m n : Nat) : Option Nat :=
  (List.range m).findSome? fun i =>
    let lo := a.addr + i * a.stride
    (List.range (n / 1024 + 2)).findSome? fun x =>
      if lo / 1024 + x ≤ (lo + n - 1) / 1024 ∧ p.swzTag (lo + x * 1024) ≠ a.swz then some (max lo ((lo / 1024 + x) * 1024)) else none

/-- R351: the bytes of a column that an MMA or an MMAR reads. -/
def FormatBlock.columnUse (b : FormatBlock) (ragged : Bool) (kt k : Nat) : Nat :=
  if ragged then b.columnRead kt k else b.columnBytes kt

/-- R352, R344, R351, with the notice's first failing byte: the A block of a shared member is read only for its kinds (R340). -/
def Party.mmaFault (p : Party) (c : Tcfg) (oa ob m n k slot : Nat) (member ragged : Bool) : Option (Cause × Nat) :=
  if p.scratchSize < oa + 32 then some (.scratchRange, max oa p.scratchSize)
  else if p.scratchSize < ob + 32 then some (.scratchRange, max ob p.scratchSize)
  else
    let (a, ra) := FormatBlock.of ((List.range 32).map (p.scratchFn oa))
    let (b, rb) := FormatBlock.of ((List.range 32).map (p.scratchFn ob))
    let an := packedBytes k a.bits
    if oa % 32 != 0 || (!member && ra) || a.badKinds c.af || (!member && a.badPlaces true c.kt) then some (.matrixFormat, oa)
    else if ob % 32 != 0 || rb || b.badKinds c.af || b.badPlaces false c.kt then some (.matrixFormat, ob)
    else match (if !member && a.layout == 0 then p.beyond a.addr a.stride m an else none) with
    | some x => some (.scratchRange, x)
    | none =>
      let scales (f : FormatBlock) (n : Nat) : Option Nat :=
        if f.skind = 0 then none else p.beyond f.saddr f.sstride n (f.scaleBytes k)
      match (if member then none else scales a m).or (scales b n) with
      | some x => some (.scaleFetch, x)
      | none =>
        if !p.seq.valid.getLsbD slot || decide (262144 < b.addr + (n - 1) * b.stride + b.columnUse ragged c.kt k) then some (.weightSlot, 0)
        else (if !member && a.layout == 0 then a.strayTag p m an else none).map fun x => (.swizzleMismatch, x)

/-- R340: the fields of a member's A block that must be the leader's. -/
def FormatBlock.sameKinds (a b : FormatBlock) : Bool :=
  a.fmt == b.fmt && a.ekind == b.ekind && a.blen == b.blen && a.skind == b.skind && a.sfmt == b.sfmt

-- drains (R374-R377)

/-- The format that OF or IF names; none is S32. -/
def drainFmt (c : Tcfg) (f : Nat) (code : BitVec 16) : Option Fmt :=
  match f with
  | 0 => c.accFmt
  | 1 => some f32
  | 2 => some b16
  | 3 => some f16
  | _ => some (fmtOfCode code)

/-- Bits of the container of OF or IF. -/
def drainBits (c : Tcfg) (f : Nat) (code : BitVec 16) : Nat :=
  match f with
  | 0 => c.accBits
  | 1 => 32
  | 2 => 16
  | 3 => 16
  | _ => narrowBits code

/-- R376: an element in the destination format. -/
def drainValue (c : Tcfg) (f : Nat) (code : BitVec 16) (rnd v : Nat) : Nat :=
  match c.accFmt, drainFmt c f code with
  | some af, some to_ => if f = 0 then v else roundTo to_ (if rnd = 0 then .rne else if rnd = 1 then .rtz else .rneSat) (decodeF af v)
  | _, _ => v

/-- Containers packed into bytes (R345). -/
def packContainers (bits : Nat) (vs : List Nat) : List Byte :=
  let v := vs.foldr (fun x acc => x % 2 ^ bits + acc * 2 ^ bits) 0
  natBytes (packedBytes vs.length bits) v

/-- R377: an element added into its destination. -/
def addElement (c : Tcfg) (f : Nat) (old v : Nat) : Nat :=
  match c.accFmt, drainFmt c f 0 with
  | some af, some g =>
    let x := decodeF g old
    let y := decodeF af v
    if isNaN x then g.quiet old
    else if isNaN y then g.canonNaN
    else match vAdd x y with
      | none => g.canonNaN
      | some z => roundTo g .rne z
  | _, _ => (old + v) % 2 ^ 32

/-- The rows of a tile that a drain reads, as accumulator values. -/
def Sequencer.tileRows (q : Sequencer) (c : Tcfg) (t m n : Nat) : List (List Nat) :=
  (List.range m).map fun i => (List.range n).map fun j => q.accAt c t i j

/-- The place of row `i` (R376): on unbounded integers, a pointer modulo 2^64. -/
def rowAt (base : Nat) (stride : Int) (i : Nat) : Int := (base : Int) + i * stride

/-- The pieces of a row of a plain or ADD drain, one line each (R378). -/
def drainRow (c : Tcfg) (add : Bool) (f : Nat) (code : BitVec 16) (rnd : Nat) (ptr : Dword) (vs : List Nat) : List Segment :=
  let bits := drainBits c f code
  let bs := packContainers bits (vs.map (drainValue c f code rnd))
  let size := bits / 8
  let half := bits == 4 && vs.length % 2 == 1
  (⟨ptr, 0, bs.length, []⟩ : Run).pieces.map fun r =>
    ⟨0, r.ptr, 0, r.len, [], false, if add then [] else (bs.drop r.off).take r.len,
      if half && r.off + r.len == bs.length then [r.len - 1] else [],
      if add then (vs.drop (r.off / size)).take (r.len / size) else [], false, .ready, none⟩

/-- A piece joins the segment of its line (R324). -/
def Segment.joinLine (g : Segment) : List Segment → List Segment
  | [] => [g]
  | h :: t =>
    if ptrLine h.ptr = ptrLine g.ptr then
      { h with
        more := h.more ++ (g.ptr, 0, g.len) :: g.more
        data := h.data ++ g.data
        halves := h.halves ++ g.halves.map (h.data.length + ·)
        vals := h.vals ++ g.vals } :: t
    else h :: g.joinLine t

/-- One segment for each line, in the order of their first bytes. -/
def numberSegments (gs : List Segment) : List Segment :=
  (gs.foldl (fun acc g => g.joinLine acc) []).zipIdx.map fun (g, i) => { g with id := i }

/-- A list cut into pieces of given lengths. -/
def cutAt {α : Type} : List Nat → List α → List (List α)
  | [], _ => []
  | n :: t, l => l.take n :: cutAt t (l.drop n)

/-- What follows the runs of a segment, `f` a byte count, run by run. -/
def Segment.perRun {α : Type} (g : Segment) (l : List α) (f : Nat → Nat) : List (List α) := cutAt (g.runs.map fun r => f r.2.2) l

/-- R376: the bytes of a drain at one place of scratchpad: a half byte keeps its high nibble. -/
def Party.drainScratch (p : Party) (off : Nat) (bs : List Byte) (half : Bool) : Party :=
  let last := off + bs.length - 1
  let keep := sget 0 p.scratch last &&& 0xF0#8
  let bs1 := if half then bs.take (bs.length - 1) ++ [(bs.getLastD 0 &&& 0x0F#8) ||| keep] else bs
  p.engineWrite ((List.range bs.length).map (off + ·)) (bs1.map fun b => (b, false))

/-- The row entries of a LANES drain (R376). -/
def laneEntries (bs : List Byte) : List (Lanes Word) :=
  (List.range ((bs.length + 127) / 128)).map fun e => tab fun i =>
    BitVec.ofNat 32 (bytesNat ((List.range 4).map fun b => listFn bs (128 * e + 4 * i.val + b)))

-- completions

/-- A multiply takes its rows from q1 as they come (R347). -/
def Party.popRows (p : Party) (o : StreamOp) (need : Nat) : Party × Nat :=
  match o.kind with
  | .mma a b m n k rows sh =>
    let take := p.q1in.take (need - rows.length)
    let q := { p with q1in := p.q1in.drop take.length }
    (q.modSeq (·.setOp { o with kind := .mma a b m n k (rows ++ take) sh }), rows.length + take.length)
  | _ => (p, 0)

/-- R370, R340: a multiply completes; none while it waits for its rope partner. -/
def State.finishMma (s : State) (core : Nat) (p : Party) (c : Tcfg) (o : StreamOp) (a b : FormatBlock) (m n k : Nat)
    (rows : List (Lanes Word)) (shared : Bool) : Option State :=
  let t := o.tile.getD 0
  let mate := ropeMate core
  if shared && (ropePos c.rope core).2 != 0 then
    match p.seq.casts with
    | [] => none
    | (_, ra, sa) :: rest =>
      some (s.setParty core ((p.modSeq fun q => { q with casts := rest }.dropOp o.id).multiply c t (o.slot.getD 0) a b m n k ra sa))
  else
    let ra := p.aRows a rows c.kt m (packedBytes k a.bits)
    let sa := p.scaleRows a m (a.scaleBytes k)
    if shared && (s.party? mate).any fun u => 2 ≤ u.seq.casts.length then none
    else
      let s1 := if shared then s.modParty mate (·.modSeq fun q => { q with casts := q.casts ++ [(a, ra, sa)] }) else s
      some (s1.setParty core ((p.multiply c t (o.slot.getD 0) a b m n k ra sa).modSeq (·.dropOp o.id)))

/-- R373: elements of a tile from bytes of the source; a failed byte range gives the canonical NaN, or 0. -/
def Sequencer.loadTile (q : Sequencer) (c : Tcfg) (t m n from_ : Nat) (row : Nat → Nat → Option Byte) : Sequencer :=
  let bits := drainBits c from_ 0
  (List.range m).foldl (fun q i => (List.range n).foldl (fun q j =>
    let bs := (List.range (bits / 8)).map fun x => row i (j * (bits / 8) + x)
    let ok := bs.all Option.isSome
    let v := bytesNat (bs.map fun b => b.getD 0)
    let new := match c.accFmt, drainFmt c from_ 0 with
      | some af, some g => if ok then roundTo af .rne (decodeF g v) else af.canonNaN
      | _, _ => if ok then v else 0
    q.setAcc c t i j new) q) q

/-- The byte at a pointer, among bytes that follow some runs. -/
def runByte (data : List Byte) (ptr : Dword) : List (Dword × Nat × Nat) → Option Byte
  | [] => none
  | (q, _, n) :: t => if (ptr - q).toNat < n then data[(ptr - q).toNat]? else runByte (data.drop n) ptr t

/-- The byte that a finished segment of a tile load brought. -/
def EngineCmd.loadedByte (c : EngineCmd) (ptr : Dword) : Option Byte :=
  c.segs.findSome? fun g => if g.step = .landed then runByte g.data ptr g.runs else none

def State.dropCmd (s : State) (core id : Nat) : State :=
  s.modParty core fun p => { p with cmds := p.cmds.filter (·.id != id) }

/-- A command whose segments have all landed or failed; an unstarted drain has none yet. -/
def EngineCmd.allDone (c : EngineCmd) : Bool := c.segs.all Segment.finished

/-- R376: a drain reads its tile and starts its writes. -/
def State.startDrain (s : State) (core : Nat) (p : Party) (c : Tcfg) (o : StreamOp) : State :=
  match o.kind with
  | .drain cmd mode sp dest stride m n to_ fmt rnd _ _ =>
    let vals := p.seq.tileRows c (o.tile.getD 0) m n
    let bits := drainBits c to_ fmt
    let rowBytes (vs : List Nat) : List Byte := packContainers bits (vs.map (drainValue c to_ fmt rnd))
    let half := bits == 4 && n % 2 == 1
    if mode = 2 then
      let rows := if n = 0 then [] else vals.flatMap fun vs => laneEntries (rowBytes vs)
      (s.modParty core (·.modSeq (·.setOp
        { o with tile := none, kind := .drain cmd mode sp dest stride m n to_ fmt rnd true rows }))).post (.matrixOpComplete ⟨core, o.id⟩)
    else if sp then
      s.modParty core fun p =>
        let p1 := (vals.zipIdx).foldl (fun p r =>
          let off := (rowAt (dest.toNat % 2 ^ 32) stride r.2).toNat
          if n = 0 then p
          else if mode = 1 then
            let size := bits / 8
            (r.1.zipIdx).foldl (fun p e =>
              let at_ := off + e.2 * size
              if sget false p.spoison (at_ / 32) then p.matrixNotice o.pc at_ false .poisonConsumed
              else p.engineWrite ((List.range size).map (at_ + ·))
                ((natBytes size (addElement c to_ (p.readScratch at_ size) e.1)).map fun b => (b, false))) p
          else p.drainScratch off (rowBytes r.1) half) p
        p1.modSeq (·.dropOp o.id)
    else
      let segs := numberSegments ((vals.zipIdx).flatMap fun r =>
        if n = 0 then [] else drainRow c (mode == 1) to_ fmt rnd (BitVec.ofInt 64 (rowAt dest.toNat stride r.2)) r.1)
      let s1 := s.modParty core fun p =>
        let put (d : EngineCmd) : EngineCmd := if some d.id = cmd then { d with segs := segs } else d
        let p1 := { p with cmds := p.cmds.map put }
        p1.modSeq (·.setOp { o with tile := none, kind := .drain cmd mode sp dest stride m n to_ fmt rnd true [] })
      if segs = [] then s1.post (.matrixOpComplete ⟨core, o.id⟩)
      else if mode = 1 then
        segs.foldl (fun s g => s.post (.addDrainLine ⟨core, o.id, ptrLine g.ptr, none⟩)) s1
      else segs.foldl (fun s g => s.post (.segmentLand ⟨core, o.id, g.id⟩)) s1
  | _ => s

/-- R23: room in q1 from the sequencer. -/
def q1Depth : Nat := 8

/-- R41: the acquire of a TLOAD or DRAIN on scratchpad, before it reads; its command ends with it. None while the acquire waits. -/
def State.opAcquire (s : State) (core id : Nat) : Option State :=
  match (s.party? core).bind (·.cmd? id) with
  | none => some s
  | some c => (s.commandAcquire core c).map (·.dropCmd core id)

/-- MATRIX_OP_COMPLETE: an operation reads, writes and ends, when its turn comes (R333). -/
def State.completeOp (s : State) (core id : Nat) : State :=
  match s.party? core with
  | none => s
  | some p =>
    match p.seq.ops.find? (·.id == id), p.seq.tcfg.getD (Tcfg.of 0) with
    | none, _ => s
    | some o, c =>
      let again := s.post (.matrixOpComplete ⟨core, id⟩)
      let finish (f : Sequencer → Sequencer) (s : State) : State :=
        s.modParty core (·.modSeq fun q => (f q).dropOp id)
      if !p.seq.turn o || (o.shares && (p.seq.ops.takeWhile (·.id != id)).any StreamOp.shares) then again
      else match o.kind with
      | .mma a b m n k rows shared =>
        let need := if a.layout = 1 && !(shared && (ropePos c.rope core).2 != 0) then m * ((a.rowBytes c.kt + 127) / 128) else 0
        if rows.length < need then
          let (p1, got) := p.popRows o need
          let s1 := s.setParty core p1
          (if got = need then s1.modParty core (·.modSeq (·.freeOp id)) else s1).post (.matrixOpComplete ⟨core, id⟩)
        else (s.finishMma core p c o a b m n k rows shared).getD again
      | .tzero =>
        finish (fun q => (List.range (c.mt * c.nt)).foldl (fun q e =>
          { q with acc := sput 0 q.acc (c.entry (o.tile.getD 0) 0 0 + e) 0 }) q) s
      | .wload none src len off =>
        -- poisoned bytes are loaded as they stand (DESIGN CHOICE, log entry 120)
        let bs := p.engineRead ((List.range len).map (src + ·))
        finish (fun q => (q.writeSlot (o.slot.getD 0) off (bs.map Prod.fst)).loaded id (o.slot.getD 0) true) s
      | .wload (some k) _ _ _ =>
        match p.cmd? k with
        | none => finish id_ s
        | some d =>
          if d.allDone then finish (·.loaded id (o.slot.getD 0) (!d.err)) (s.dropCmd core k) else s
      | .tload none src stride m n from_ =>
        match s.opAcquire core id with
        | none => again
        | some s1 =>
          finish (fun q => q.loadTile c (o.tile.getD 0) m n from_ fun i x => some (sget 0 p.scratch ((rowAt src stride i).toNat + x))) s1
      | .tload (some k) src stride m n from_ =>
        match p.cmd? k with
        | none => finish id_ s
        | some d =>
          if d.allDone then
            let row (i x : Nat) : Option Byte := d.loadedByte (BitVec.ofInt 64 (rowAt src stride i + x))
            finish (fun q => q.loadTile c (o.tile.getD 0) m n from_ row) (s.dropCmd core k)
          else s
      | .drain cmd mode sp dest stride m n to_ fmt rnd started rows =>
        if !started then
          match (if sp then s.opAcquire core id else some s) with
          | none => again
          | some s1 => s1.startDrain core p c o
        else if mode = 2 then
          match rows with
          | [] => finish id_ s
          | r :: rest =>
            if p.q1out.length < q1Depth then
              s.setParty core ({ p with q1out := p.q1out ++ [r] }.modSeq (·.setOp
                { o with kind := .drain cmd mode sp dest stride m n to_ fmt rnd true rest }))
                |>.post (.matrixOpComplete ⟨core, id⟩)
            else again
        else
          match cmd with
          | none => finish id_ s
          | some k =>
            match p.cmd? k with
            | none => finish id_ s
            | some d => if d.allDone then finish id_ (s.dropCmd core k) else s
where
  id_ (q : Sequencer) : Sequencer := q

noncomputable section

def execMatrixOpComplete (o : CoreItem) (s : State) : Out := .next (s.completeOp o.core o.id)

-- segments of the engines

/-- R378, R360: the notice of a failed segment of a WLOAD, TLOAD or DRAIN, with its first failing byte. -/
def Party.failNotice (p : Party) (c : EngineCmd) (g : Segment) (cause : Cause) (addr : Nat) : Party :=
  if c.kind = .copyIn ∨ c.kind = .copyOut then p.segNotice c addr cause
  else if c.kind = .txa then
    { p with txas := p.txas.map fun (t : Txa) => if t.id = c.id then { t with causes := t.causes ++ [(g.id, cause)] } else t }
  else p.matrixNotice c.pc (addr % 2 ^ 56) false cause

/-- A matrix command whose last segment has ended: its operation completes. -/
def State.matrixSegment (s : State) (core id : Nat) (g : Segment) : State :=
  let s1 := s.segmentDone core id g
  match (s1.party? core).bind (·.cmd? id) with
  | none => s1
  | some c => if c.allDone then s1.post (.matrixOpComplete ⟨core, id⟩) else s1

/-- The operation of a matrix command may read or write its slot now (R333). -/
def Party.cmdTurn (p : Party) (id : Nat) : Bool :=
  match p.seq.ops.find? (·.id == id) with
  | none => true
  | some o => p.seq.turn o

/-- A segment of a WLOAD or TLOAD lands (R368, R373); poisoned bytes are loaded as they stand (R500 lets no such segment fail for them;
DESIGN CHOICE, log entry 120). -/
def State.landLoad (s : State) (core : Nat) (p : Party) (c : EngineCmd) (g : Segment) (again : State) : State :=
  match State.readRuns (p.reader core) c.strand c.id true s g.runs with
  | .again => again
  | .bad e addr => s.segmentBad core c g e addr
  | .got s1 bss =>
    match c.kind with
    | .wload slot =>
      ((g.runs.zip bss).foldl (fun s ((_, off, _), bs) =>
        s.modParty core (·.modSeq fun q => q.writeSlot slot off (bs.map Prod.fst))) s1).matrixSegment core c.id { g with step := .landed }
    | _ => s1.matrixSegment core c.id { g with data := bss.flatten.map Prod.fst, step := .landed }

/-- The byte at a pointer as its home holds it, with its sector's poison. -/
def State.homeByte (s : State) (o : Reader) (ptr : Dword) : Byte × Bool :=
  match s.checkRun o ptr 1 true with
  | .ok (s1, .global r, _) => (s1.readByte r, sget false s1.poison (r / 32))
  | .ok (s1, .scratch c off, _) => ((s1.party? c).map fun t => (sget 0 t.scratch off, t.scratchPoison off 1)).getD (0, false)
  | .error _ => (0, false)

/-- R376: the bytes of a plain drain's segment, run by run; a half byte keeps the high nibble that its home holds, or that an
earlier run of the segment writes there, and its sector's poison. -/
def State.drainBytes (s : State) (o : Reader) (g : Segment) : List (List (Byte × Bool)) :=
  let ptrs := g.runs.flatMap fun (ptr, _, n) => (List.range n).map fun k => ptr + BitVec.ofNat 64 k
  let out := (g.data.zip ptrs).zipIdx.foldl (fun (acc : List (Byte × Bool)) ((b, ptr), i) =>
    if g.halves.contains i then
      let (keep, psn) := (((acc.zip ptrs).filter fun x => x.2 == ptr).getLast?.map Prod.fst).getD (s.homeByte o ptr)
      acc ++ [((b &&& 0x0F#8) ||| (keep &&& 0xF0#8), psn)]
    else acc ++ [(b, false)]) []
  g.perRun out id

/-- A segment of a plain drain lands (R376, R377). -/
def State.landDrain (s : State) (core : Nat) (p : Party) (c : EngineCmd) (g : Segment) (again : State) : State :=
  let o := p.reader core
  match s.writeRuns o c.strand c.id ((g.runs.map Prod.fst).zip (s.drainBytes o g)) 0 with
  | .again => again
  | .bad e addr => s.segmentBad core c g e addr
  | .done s1 => s1.matrixSegment core c.id { g with step := .landed }
  | .away s1 out => s1.sendSegment core c g out (s1.segmentStore core c g out)

/-- R377: the runs of an ADD drain's segment in the bytes of its line: each run's elements added, one run after the other, and each
run's new bytes. -/
def addRuns (cfg : Tcfg) (to_ : Nat) : List (Dword × List Nat) → List Byte → List (Dword × List (Byte × Bool))
  | [], _ => []
  | (ptr, vs) :: t, line =>
    let size := drainBits cfg to_ 0 / 8
    let off := ptr.toNat % 128
    let new := vs.zipIdx.flatMap fun v => natBytes size (addElement cfg to_ (fieldAt line (off + v.2 * size) size) v.1)
    (ptr, new.map fun b => (b, false)) :: addRuns cfg to_ t (line.take off ++ new ++ line.drop (off + new.length))

/-- R377: the bytes of the line that an ADD drain updates; its first poisoned byte that a run touches. -/
def State.addSource (s : State) (at_ : RunAt) (g : Segment) : Except Nat (List Byte) :=
  let touched := g.runs.flatMap fun (ptr, _, n) => (List.range n).map fun k => (ptr.toNat + k) % 2 ^ 56
  match at_ with
  | .global r =>
    match touched.find? fun va => sget false s.poison (4 * lineOf r + va % 128 / 32) with
    | some va => .error va
    | none => .ok (natBytes 128 (s.homeData (lineOf r)).toNat)
  | .scratch k off =>
    match s.party? k with
    | none => .ok []
    | some t =>
      let base := off - g.ptr.toNat % 128
      match touched.find? fun va => t.scratchPoison (base + va % 128) 1 with
      | some va => .error va
      | none => .ok (natBytes 128 (t.readScratch base 128))

/-- R377: a segment of an ADD drain, one line, read and written at its home as one step; as on an atomic, its page must be readable
too. -/
def State.landAdd (s : State) (core : Nat) (p : Party) (cfg : Tcfg) (c : EngineCmd) (g : Segment) (to_ : Nat) (again : State) : State :=
  let o := p.reader core
  let size := drainBits cfg to_ 0 / 8
  let waits := g.runs.any fun (ptr, _, _) => ptr.extractLsb' 60 4 == 0 && [true, false].any fun w =>
    s.missWaits (clusterOfCore core) p.root (ptr.toNat % 2 ^ 56) w p.priv
  if waits then again else
  let unread := g.runs.findSome? fun (ptr, _, n) => match s.checkRun o ptr n false with
    | .error (.protectionRead, addr) => some addr
    | _ => none
  match unread with
  | some addr => s.segmentBad core c g .protectionRead addr
  | none =>
    match s.checkRun o g.ptr g.len true with
    | .error (e, addr) => s.segmentBad core c g e addr
    | .ok (s1, at_, _) =>
      let far := match at_ with | .global r => homeDie r != dieOfCore core | .scratch _ _ => false
      if far then
        match s1.writeRuns o c.strand c.id (g.runs.map fun (ptr, _, n) => (ptr, List.replicate n (0, false))) 0 with
        | .again => again
        | .bad e addr => s.segmentBad core c g e addr
        | .done s2 => s2
        | .away s2 out => s2.sendSegment core c g out (.addDrainLine ⟨core, c.id, ptrLine g.ptr, some (g.id, out.line)⟩)
      else
      match s1.addSource at_ g with
      | .error addr => s1.stopSegment core c.id g .poisonConsumed addr
      | .ok line =>
        match s1.writeRuns o c.strand c.id (addRuns cfg to_ ((g.runs.map Prod.fst).zip (g.perRun g.vals (· / size))) line) 0 with
        | .again => again
        | .bad e addr => s.segmentBad core c g e addr
        | .done s2 => s2.matrixSegment core c.id { g with step := .landed }
        | .away s2 _ => s2

/-- R377: an ADD drain's line at its home on another die: the elements added in one step; the answer says that it met poison, or brings
the wts. -/
def State.addAtHome (s : State) (core : Nat) (cfg : Tcfg) (c : EngineCmd) (g : Segment) (out : LineOut) (to_ : Nat) : State :=
  let size := drainBits cfg to_ 0 / 8
  match s.addSource (.global (lineAddr out.line)) g with
  | .error va => s.fromHome core out.line (.segmentFail ⟨core, c.id, g.id, .poisonConsumed, va⟩)
  | .ok line =>
    let rs := (addRuns cfg to_ ((g.runs.map Prod.fst).zip (g.perRun g.vals (· / size))) line).map fun (ptr, bs) =>
      (⟨ptr.toNat % 128, bs, none⟩ : LineRun)
    let o := LineOut.ofRuns out.line out.pte rs none
    let (s1, t) := (s.touchLine core out.pte out.line).applyStore core out.line o.mask o.data 0 0 (s.outClock core out.line)
    (s1.modParty core (·.setSegment c.id { g with out := some o })).fromHome core out.line
      (.storeAcknowledgement ⟨core, 0, out.line, t, some (c.id, g.id)⟩)

/-- A segment whose write on another die is acknowledged lands. -/
def State.segmentAcked (s : State) (core id seg wts : Nat) : State :=
  match (s.party? core).bind (·.cmd? id) with
  | none => s
  | some c =>
    match c.seg? seg with
    | none => s
    | some g =>
      match g.out with
      | none => s
      | some o =>
        if g.step != .sent then s
        else
          let s1 := s.outAcked core o wts
          let g1 := { g with out := none }
          if c.kind = .copyOut then s1.landed core c g1 o.bad else s1.matrixSegment core id { g1 with step := .landed }

/-- R507, R509: the party is halted under HALT.ALL, and its engines have stopped at a line boundary. -/
def Party.enginesStopped (p : Party) : Bool :=
  (p.status == .halting || p.status == .debugHalt || p.dbg) && p.halt.any fun h => h.all

/-- R327: the entries of the fix-up list are replayed in list order: an earlier one is being tried again. -/
def State.fixupBefore (s : State) (core : Nat) (p : Party) (id seg : Nat) : Bool :=
  (p.fixups.takeWhile (· != (id, seg))).any fun f => s.agenda.contains (.segmentLand ⟨core, f.1, f.2⟩)

/-- A segment's turn (R297, R324, R327, R378): it lands, fails, or is looked at again. -/
def State.landSegment (s : State) (core : Nat) (p : Party) (c : EngineCmd) (g : Segment) (again : State) : State :=
  let listed := p.fixups.contains (c.id, g.id)
  if g.finished || g.step == .stopped || g.step == .sent || p.enginesStopped then s
  else if !g.local_ && ((s.pkg (pkgOfCore core)).paused || (256 < p.fixEntries + g.runs.length && !listed)) then again
  else if listed && s.fixupBefore core p c.id g.id then again
  else if s.segBlocked core p c g || !p.cmdTurn c.id then again
  else
    match s.commandAcquire core c with
    | none => again
    | some s1 =>
      match c.kind with
      | .copyIn => s1.landCopy core p c g again
      | .copyOut => s1.landCopy core p c g again
      | .drain false _ => s1.landDrain core p c g again
      | .drain true to_ => s1.landAdd core p (p.seq.tcfg.getD (Tcfg.of 0)) c g to_ again
      | _ => s1.landLoad core p c g again

/-- STORE_ACKNOWLEDGEMENT (R271, R436). -/
def execStoreAcknowledgement (o : StoreAck) (s : State) : Out :=
  match o.part with
  | none => .next (s.storeAcked o)
  | some (id, k) => .next ((s.segmentAcked o.core id k o.wts).backedAcked o.core id k)

/-- R377: one line of an ADD drain as one indivisible step. -/
def execAddDrainLine (o : DrainLine) (s : State) : Out :=
  match s.party? o.core with
  | none => .next s
  | some p =>
    match p.cmd? o.op with
    | none => .next s
    | some c =>
      match c.segs.find? fun g => ptrLine g.ptr == o.line with
      | none => .next s
      | some g =>
        match o.home, g.out, c.kind with
        | none, _, _ => .next (s.landSegment o.core p c g (s.post (.addDrainLine o)))
        | some _, some out, .drain true to_ =>
          if s.locked out.line || s.notInTurn o.core out.line (.addDrainLine o) then .next (s.post (.addDrainLine o))
          else .next (s.addAtHome o.core (p.seq.tcfg.getD (Tcfg.of 0)) c g out to_)
        | some _, _, _ => .next s

/-- SEGMENT_LAND (R297, R324, R327, R378). -/
def execSegmentLand (o : SegRef) (s : State) : Out :=
  match s.party? o.core with
  | none => .next s
  | some p =>
    match p.cmd? o.cmd with
    | none => .next s
    | some c =>
      match c.seg? o.seg with
      | none => .next s
      | some g => .next (s.landSegment o.core p c g (s.post (.segmentLand o)))

/-- SEGMENT_FAIL (R324, R378): counts with ER, the notice, the command's error. -/
def execSegmentFail (o : SegFail) (s : State) : Out :=
  match s.party? o.core with
  | none => .next s
  | some p =>
    match p.cmd? o.cmd with
    | none => .next s
    | some c =>
      match c.seg? o.seg with
      | none => .next s
      | some g =>
        if g.finished then .next s
        else
          let g1 := { g with step := .failed }
          let s1 := if c.kind = .copyIn ∨ c.kind = .copyOut then s.segmentDone o.core c.id g1 else s.matrixSegment o.core c.id g1
          .next (s1.modParty o.core (·.failNotice c g o.cause o.addr))

-- stream instructions on tiles

/-- The sequencer waits for a descriptor's page. -/
def Hold.missingPage : Hold → Bool
  | .descriptor _ served => !served
  | _ => false

/-- R296, R305: a CPBOX of the stream, under the owning strand's ANCn. -/
def streamBox (o : UL) (s : State) : Out :=
  streamIssue (.cpbox o) [(o.a, false), (o.b, false)] (fun _ p => p.cmdRoom) (fun core p s =>
    if !(o.d == zr || o.d.toNat ≤ 13) then .fault .illegalOperand 0
    else if p.seq.hold.missingPage then .stall
    else
      let k (n : Nat) : Dword := if o.d == zr then 0 else p.seq.kreg (o.d + BitVec.ofNat 7 n)
      let a : Access :=
        { id := s.nextId, strand := p.seq.owner, slot := .a, pc := p.seq.pc, words := instrWords (.cpbox o), m0 := 0, uniform := true,
          loc := false, kind := .load, size := 16, form := .zext, policy := 0, fn := 0, ord := 0, dst := none, parts := [],
          op := none, base := 0, pl1 := splat 0, pl2 := splat 0, pl3 := splat 0, step := .attempt, txn := false, fault := none,
          ovr := ⟨0, 0⟩, placed := false, entry := p.entryAt (o.w1.extractLsb' 20 5), noFill := false,
          fixed := false, pushed := none, thnd := p.thnd, sentAt := none }
      match s.checkBox core p a ⟨k 0, k 1, k 2, p.seq.kreg o.a, p.seq.kreg o.b, o.w1⟩ (some p.seq.owner) with
      | .ok s1 c => .ok ((s1.accept core { c with seq := true }).release core)
      | .bad _ f => .fault f.cause (f.addr.toNat % 2 ^ 56)
      | .missing s1 va =>
        .ok ((s1.holdAt core p.seq.pc (.descriptor va false)).post (.faultService ⟨core, BitVec.ofNat 56 va, 3, .sequencer⟩))
      | .again => .stall) s

/-- CPBOX (R305-R308). -/
def execCpbox (o : UL) (s : State) : Out :=
  match s.focus with
  | .sequencer _ => streamBox o s
  | _ =>
    issue (.cpbox o) noTxn copyReady (fun x s =>
      match s.party? x.w.core with
      | none => .stall
      | some p =>
        let (va, p1) := p.srcU x.w o.a
        let (vb, p2) := p1.srcU x.w o.b
        let d (n : Nat) : Dword := if isS o.d then (p.strand x.w.strand).sreg (o.d.toNat - 88 + n) else 0
        let a0 := x.access p .command 0
        (s.setParty x.w.core p2).startCopy x { a0 with
          uniform := true
          op := some (.cpbox o)
          entry := p.entryAt (o.w1.extractLsb' 20 5)
          pl1 := tab fun k => if k.val = 0 then (d 1).setWidth 64 ++ (d 0).setWidth 64
            else if k.val = 1 then (d 2).setWidth 128 else 0
          pl2 := logUniform va
          pl3 := logUniform vb
          parts := ⟨0, va, 0, 1, 0, 0, .scratch 0, .waiting, 0, false, false⟩ :: laterPages 0 va 96 }) s

/-- R366. -/
def execTzero (o : UI) (s : State) : Out :=
  let t := o.imm.toNat % 32
  streamIssue (.tzero o) [] seqAlways (fun core p s =>
    if !p.seq.tileOk t then .fault .tileConfig 0 else .ok (s.startOp core p .tzero (some t) none false)) s

/-- R337: an operation of the stream that reads or writes a tile has not completed. -/
def StreamOp.onTile (o : StreamOp) : Bool :=
  match o.kind with
  | .wload _ _ _ _ => false
  | _ => true

/-- R337: the configuration is installed and the accumulator store cleared. -/
def Sequencer.install (q : Sequencer) (v : Dword) : Sequencer := { q with cfg := v, acc := [], casts := [], broken := false }

/-- R337, R339: TCFG, and its rendezvous. -/
def execTcfg (o : UL) (s : State) : Out :=
  streamIssue (.tcfg o) [(o.a, false)] (fun _ p => !p.seq.ops.any StreamOp.onTile) (fun core p s =>
    let v := p.seq.kreg o.a
    let c := Tcfg.of v
    let held := Hold.tcfg (instrWords (.tcfg o))
    if !c.valid then .fault .tileConfig 0
    else if c.rope = 0 then .ok (s.modParty core (·.modSeq (·.install v)))
    else if p.seq.hold != held && !s.ropeHeld core c.rope p.grid then .fault .ropeMismatch 0
    else
      let offer (m : Nat) : Option Dword := if m = core then some v else (s.party? m).bind fun t => t.seq.offer
      let members := ropeCores c.rope core
      let s1 := (s.holdAt core p.seq.pc held).modParty core (·.modSeq fun q => { q with offer := some v })
      if members.any fun m => (offer m).isNone then (if p.seq.hold = held then .stall else .ok s1)
      else
        let bad := members.any fun m => (offer m).any fun w =>
          !(Tcfg.of w).sameRope c || ((Tcfg.of w).rowpos, (Tcfg.of w).colpos) != ropePos c.rope m
        if bad then .ok (s1.ropeFaults members)
        else
          .ok (members.foldl (fun s m =>
            (s.modParty m (·.modSeq fun q => { q.install ((offer m).getD 0) with pc := q.pc + 8 })).release m) s1)) s

/-- R334 steps 1 and 2: earlier operations have finished their reads, and drains their writes. -/
def StreamOp.holdsKbar (o : StreamOp) : Bool :=
  match o.kind with
  | .mma _ _ _ _ _ _ _ | .drain _ _ _ _ _ _ _ _ _ _ _ _ => true
  | _ => false

/-- R142: the sequencer's arrival; it waits in its phase unless it ends it. -/
def State.seqArrive (s : State) (core n : Nat) : State :=
  let s1 := s.modParty core fun p => (p.setBar n { p.bar n with seqWait := true }).arrive n s.nextId
  if (s1.party? core).any fun p => (p.bar n).seqWait then
    s1.modParty core (·.modSeq fun q => { q with hold := .arrived n, state := .waiting })
  else (s1.modParty core (·.modSeq fun q => { q with pc := q.pc + 4 })).release core

/-- R334, R362: KBAR and its rope rendezvous. -/
def execKbar (o : UI) (s : State) : Out :=
  let n := o.imm.toNat % 16
  streamIssue (.kbar o) [] (fun _ p => p.seq.hold != .none || !p.seq.ops.any StreamOp.holdsKbar) (fun core p s =>
    let here := s.modParty core (·.modSeq fun q => { q with pc := p.seq.pc })
    let rope := (p.seq.tcfg.map Tcfg.rope).getD 0
    let roped := o.imm.getLsbD 4 && rope != 0
    let nOf (m : Nat) : Option Nat := (s.party? m).bind fun t => match t.seq.hold with
      | .rendezvous k _ => some k
      | _ => none
    if !(p.bar n).seq then .fault .illegalOperand 0
    else match p.seq.hold with
      | .arrived _ => if (p.bar n).seqWait then .stall else .ok (s.release core)
      | h =>
        let held := Hold.rendezvous n (instrWords (.kbar o))
        if !roped then .ok (here.seqArrive core n)
        else if p.seq.broken then .fault .ropeMismatch 0
        else
          let s1 := here.holdAt core p.seq.pc held
          let members := ropeCores rope core
          let others := members.filter (· != core)
          if others.any fun m => (nOf m).isNone then (if h = held then .stall else .ok s1)
          else if others.any fun m => nOf m != some n then .ok (s1.ropeFaults members)
          else .ok (members.foldl (fun s m => (s.acquireDrops m 2).seqArrive m n) s1)) s

/-- The command of a matrix operation, accepted with its operation's number (R295, R378). -/
def State.matrixCmd (s : State) (core : Nat) (p : Party) (kind : CmdKind) (ord : BitVec 2) (scope : BitVec 5)
    (segs : List Segment) : State :=
  let c : EngineCmd := { EngineCmd.fresh kind p.seq.owner p.seq.pc with
    id := s.nextId
    seq := true
    serial := p.serial
    rel := ord.getLsbD 1
    acqs := if ord.getLsbD 0 then some (p.cover scope) else none
    cover := p.cover scope
    segs := segs }
  s.modParty core fun p => { p with cmds := p.cmds ++ [c], serial := p.serial + 1 }

/-- R367, R368. -/
def execWload (o : UL) (s : State) : Out :=
  let slot := w1 o 31 30
  let sp := o.w1.getLsbD 29
  let ord := o.w1.extractLsb' 25 2
  let scope := o.w1.extractLsb' 20 5
  streamIssue (.wload o) [(o.a, false), (o.b, false)] (fun _ p => p.cmdRoom) (fun core p s =>
    let a := p.seq.kreg o.a
    let b := p.seq.kreg o.b
    let len := (b.extractLsb' 0 19).toNat
    let off := (b.extractLsb' 32 18).toNat
    let src := a.toNat % 2 ^ 32
    if ord.getLsbD 1 || (sp && (ord != 0 || scope != 0)) || b.extractLsb' 19 13 != 0 || b.extractLsb' 50 14 != 0 then
      .fault .illegalOperand 0
    else if len % 16 ≠ 0 ∨ off % 16 ≠ 0 ∨ 262144 < off + len then .fault .illegalOperand 0
    else if sp && a.extractLsb' 32 32 != 0 then .fault .scratchRange (a.toNat % 2 ^ 56)
    else if !sp && a.extractLsb' 60 4 != 0 then .fault .noncanonicalAddress (a.toNat % 2 ^ 56)
    else if a.toNat % 16 ≠ 0 then .fault .misalignedAccess (a.toNat % 2 ^ 56)
    else if sp && p.scratchSize < src + len then .fault .scratchRange (max src p.scratchSize)
    else
      let s0 := s.modParty core (·.modSeq (·.setValid slot false))
      if sp then .ok (s0.startOp core p (.wload none src len off) none (some slot) false)
      else
        let segs := (⟨a, off, len, []⟩ : Run).pieces.zipIdx.map fun (r, i) =>
          (⟨i, r.ptr, r.off, r.len, [], false, [], [], [], false, .ready, none⟩ : Segment)
        let id := s0.nextId
        let s1 := (s0.matrixCmd core p (.wload slot) ord scope segs).startOp core p (.wload (some id) 0 len off) none (some slot)
          false
        .ok (segs.foldl (fun s g => s.post (.segmentLand ⟨core, id, g.id⟩)) s1)) s

/-- A multiply starts: a leader or a lone core whose A rows come by q1 waits for them (R347). -/
def State.startMma (s : State) (core : Nat) (p : Party) (kind : OpKind) (tile slot : Nat) : State :=
  let popsRows := match kind with
    | .mma a _ _ _ _ _ shared => a.layout == 1 && !(shared && core % 2 != 0)
    | _ => false
  s.startOp core p kind (some tile) (some slot) popsRows

/-- R340, R352: an A-shared multiply that has passed its checks meets the one at which its rope partner waits, or waits for it. Both
issue if their A blocks agree: then the leader's block stands for both. -/
def State.pairMma (s : State) (core : Nat) (p : Party) (kind : OpKind) (tile slot : Nat) (w : Words) : State :=
  let here := s.holdAt core p.seq.pc (.pair kind tile slot w)
  let mate := ropeMate core
  match s.party? mate, kind with
  | some q, .mma a b m n k r sh =>
    match q.seq.hold with
    | .pair (.mma a1 b1 m1 n1 k1 r1 sh1) tile1 slot1 _ =>
      if !a.sameKinds a1 then here.ropeFaults [core, mate]
      else
        let l := if core % 2 = 0 then a else a1
        let go (m : Nat) (s : State) : State := (s.modParty m (·.modSeq fun q => { q with pc := q.pc + 8 })).release m
        let s1 := (go mate here).startMma mate q (.mma l b1 m1 n1 k1 r1 sh1) tile1 slot1
        (go core s1).startMma core p (.mma l b m n k r sh) tile slot
    | _ => here
  | _, _ => here

/-- The sequencer waits for its rope partner's multiply. -/
def Hold.paired : Hold → Bool
  | .pair _ _ _ _ => true
  | _ => false

/-- R340: a leader's partner has room for one more broadcast, those of multiplies that have issued counted. -/
def State.castRoom (s : State) (core : Nat) (p : Party) : Bool :=
  decide (((s.party? (ropeMate core)).map fun u => u.seq.casts.length).getD 0 + (p.seq.ops.filter StreamOp.shares).length < 2)

/-- MMA and MMAR issue (R342, R352, R369). -/
def matrixMultiply (i : Instr) (o : UL) (regs : List (BitVec 7 × Bool)) (ragged : Bool) (dims : Sequencer → Dword) (s : State) :
    Out :=
  let slot := w1 o 31 30
  let t := w1 o 29 25
  streamIssue i regs (fun _ p => p.seq.hold.paired || (p.seq.hold == .none && !p.seq.ops.any (·.loads slot))) (fun core p s =>
    let v := dims p.seq
    let oa := (p.seq.kreg o.a).toNat % 2 ^ 32
    let ob := (p.seq.kreg o.b).toNat % 2 ^ 32
    if p.seq.hold.paired then (if p.seq.broken then .fault .ropeMismatch 0 else .stall)
    else if ragged && core % 32 < 28 then .fault .raggedNotCapable 0
    else if ragged && v.extractLsb' 48 16 != 0 then .fault .illegalOperand 0
    else match p.seq.tcfg with
      | none => .fault .tileConfig 0
      | some c =>
        let m := if ragged then v.toNat % 65536 else c.mt
        let n := if ragged then v.toNat / 65536 % 65536 else c.nt
        let k := if ragged then v.toNat / 2 ^ 32 % 65536 else c.kt
        let shared := c.ashare
        let member := shared && (ropePos c.rope core).2 != 0
        if c.tcnt ≤ t || c.mt < m || c.nt < n || c.kt < k || (ragged && c.rope != 0) then .fault .tileConfig 0
        else if m = 0 ∨ n = 0 ∨ k = 0 then .ok s
        else if shared && p.seq.broken then .fault .ropeMismatch 0
        else match p.mmaFault c oa ob m n k slot member ragged with
          | some (cause, addr) => .fault cause addr
          | none =>
            let a := (FormatBlock.of ((List.range 32).map (p.scratchFn oa))).1
            let b := (FormatBlock.of ((List.range 32).map (p.scratchFn ob))).1
            let kind := OpKind.mma a b m n k [] shared
            if !shared then .ok (s.startMma core p kind t slot)
            else if !member && !s.castRoom core p then .stall
            else .ok (s.pairMma core p kind t slot (instrWords i))) s

/-- R370. -/
def execMma (o : UL) (s : State) : Out :=
  matrixMultiply (.mma o) o [(o.a, false), (o.b, false)] false (fun _ => 0) s
/-- R342: M, N and K from the k register that word 1 names. -/
def execMmar (o : UL) (s : State) : Out :=
  let c := o.w1.extractLsb' 18 7
  matrixMultiply (.mmar o) o [(o.a, false), (o.b, false), (c, true)] true (fun q => q.kreg c) s

/-- R372: the extents of a TLOAD or DRAIN. -/
def extents (q : Sequencer) (c : Tcfg) (d : BitVec 7) : Nat × Nat :=
  if d == zr then (c.mt, c.nt) else ((q.kreg d).toNat % 65536, (q.kreg d).toNat / 65536 % 65536)

/-- The first byte of some rows that does not lie in scratchpad. -/
def rowsBad (p : Party) (base : Nat) (stride : Int) (m bytes : Nat) : Option Nat :=
  if bytes = 0 then none
  else (List.range m).findSome? fun i =>
    let at_ := rowAt base stride i
    if at_ < 0 then some (BitVec.ofInt 56 at_).toNat
    else if (p.scratchSize : Int) < at_ + bytes then some (max at_.toNat p.scratchSize)
    else none
/-- Rows that do not lie wholly in scratchpad. -/
def rowsOut (p : Party) (base : Nat) (stride : Int) (m bytes : Nat) : Bool := (rowsBad p base stride m bytes).isSome

/-- R372, R373. -/
def execTload (o : UL) (s : State) : Out :=
  let sp := o.w1.getLsbD 29
  let ord := o.w1.extractLsb' 25 2
  let scope := o.w1.extractLsb' 20 5
  let t := w1 o 19 15
  let from_ := w1 o 14 12
  streamIssue (.tload o) [(o.d, true), (o.a, false), (o.b, false)] (fun _ p => p.cmdRoom) (fun core p s =>
    let a := p.seq.kreg o.a
    let b := p.seq.kreg o.b
    let src := a.toNat % 2 ^ 32
    let stride := b.toInt
    if ord.getLsbD 1 || (p.seq.kreg o.d).extractLsb' 32 32 != 0 then .fault .illegalOperand 0
    else match p.seq.tcfg with
      | none => .fault .tileConfig 0
      | some c =>
        let (m, n) := extents p.seq c o.d
        let bits := drainBits c from_ 0
        if c.af = 2 ∧ from_ ≠ 0 then .fault .illegalOperand 0
        else if c.tcnt ≤ t ∨ c.mt < m ∨ c.nt < n then .fault .tileConfig 0
        else if !sp && a.extractLsb' 60 4 != 0 then .fault .noncanonicalAddress (a.toNat % 2 ^ 56)
        else if a.toNat % 16 ≠ 0 ∨ b.toNat % 16 ≠ 0 then .fault .misalignedAccess (a.toNat % 2 ^ 56)
        else if sp && (a.extractLsb' 32 32 != 0 || rowsOut p src stride m (n * bits / 8)) then
          .fault .scratchRange ((rowsBad p src stride m (n * bits / 8)).getD (a.toNat % 2 ^ 56))
        else if sp then
          let s1 := if ord = 0 then s else s.matrixCmd core p (.tload from_) ord scope []
          .ok (s1.startOp core p (.tload none src stride m n from_) (some t) none false)
        else
          let runs := (List.range m).flatMap fun i =>
            ((⟨BitVec.ofInt 64 (rowAt a.toNat stride i), 0, n * bits / 8, []⟩ : Run).pieces.map fun r =>
              (⟨0, r.ptr, i * c.nt + r.off / (bits / 8), r.len, [], false, [], [], [], false, .ready, none⟩ : Segment))
          let segs := numberSegments runs
          let id := s.nextId
          let s1 := (s.matrixCmd core p (.tload from_) ord scope segs).startOp core p (.tload (some id) a.toNat stride m n from_)
            (some t) none false
          .ok (segs.foldl (fun s g => s.post (.segmentLand ⟨core, id, g.id⟩)) s1)) s

/-- R374-R376. -/
def execDrain (o : UL) (s : State) : Out :=
  let mode := w1 o 31 30
  let sp := o.w1.getLsbD 29
  let rnd := w1 o 28 27
  let ord := o.w1.extractLsb' 25 2
  let scope := o.w1.extractLsb' 20 5
  let t := w1 o 19 15
  let to_ := w1 o 14 12
  let c7 := o.w1.extractLsb' 5 7
  let lanes := mode == 2
  streamIssue (.drain o) [(o.d, true), (o.a, lanes), (o.b, lanes), (c7, to_ != 4)] (fun _ p => p.cmdRoom && p.seq.hold == .none)
    (fun core p s =>
    let a := p.seq.kreg o.a
    let b := p.seq.kreg o.b
    let cv := p.seq.kreg c7
    let code : BitVec 16 := cv.setWidth 16
    match p.seq.tcfg with
    | none => .fault .tileConfig 0
    | some c =>
      let (m, n) := extents p.seq c o.d
      let stride := b.toInt
      let base := a.toNat % 2 ^ 32
      let bytes := packedBytes n (drainBits c to_ code)
      if c.tcnt ≤ t ∨ c.mt < m ∨ c.nt < n then .fault .tileConfig 0
      else if c.af = 2 ∧ to_ ≠ 0 then .fault .illegalOperand 0
      else if (rnd != 0 && (to_ == 0 || (to_ == 1 && c.af == 0)))
          || (mode == 1 && (to_ == 4 || rnd != 0))
          || (lanes && (sp || ord != 0 || o.a != zr || o.b != zr))
          || (p.seq.kreg o.d).extractLsb' 32 32 != 0
          || (to_ == 4 && (!(fmtOfCode code).valid || cv.extractLsb' 16 48 != 0)) then .fault .illegalOperand 0
      else if !lanes && !sp && a.extractLsb' 60 4 != 0 then .fault .noncanonicalAddress (a.toNat % 2 ^ 56)
      else if !lanes && (a.toNat % 16 != 0 || b.toNat % 16 != 0) then .fault .misalignedAccess (a.toNat % 2 ^ 56)
      else if sp && (a.extractLsb' 32 32 != 0 || rowsOut p base stride m bytes) then
        .fault .scratchRange ((rowsBad p base stride m bytes).getD (a.toNat % 2 ^ 56))
      else if m = 0 ∨ n = 0 then .ok s
      else
        let id := s.nextId
        let global := !lanes && !sp
        let s1 := if global ∨ ord ≠ 0 then s.matrixCmd core p (.drain (mode == 1) to_) ord scope [] else s
        .ok (s1.startOp core p (.drain (if global then some id else none) mode sp a stride m n to_ code rnd false [])
          (some t) none lanes)) s

end

end Sys2Proof.Machine
end

