-- ==== Sys2Proof/Machine/Life.lean ====
section
/-!
DEFINITION. Machine/Life.lean: the end of a party (R114, R170), what a save or a halt waits for (R148, R355, R503), the save of a
party's context (R148, R409).
-/

namespace Sys2Proof.Machine

noncomputable section

/-- The party has a collective packet or a TXA or an XABORT that has not been resolved. -/
def State.packetsOut (s : State) (p : Party) : Bool :=
  p.txas.any (fun (t : Txa) => t.stage != 0) || p.aborts != [] || s.packets.any fun k => k.grid == p.grid && k.index == p.index && k.step != .waiting

/-- R355: no stream operation of the core can go further. -/
def State.streamQuiet (s : State) (core : Nat) (p : Party) : Bool :=
  p.seq.ops.all fun o => (s.completeOp core o.id).party? core == some p

/-- R407: no party that could fill or free a bin of the die runs, and no bin of it will become ready: a FETCHB goes with its party's
context and waits on after the resume (DESIGN CHOICE, log entry 125). -/
def State.batchStuck (s : State) (core : Nat) (p : Party) (off : Nat) : Bool :=
  (s.claimBatch core off).isNone && (s.grid? p.grid).all fun g =>
    !(s.parties.any fun (c, q) => q.grid == p.grid && dieOfCore c == dieOfCore core && q.status == .running)
      && (g.whole || g.rings.all fun r => r.die != dieOfCore core || r.pending == 0)

/-- R148, R503, R507: producers have written back, accesses have settled or sit in the log, stores have drained. What can go no
further in a halt, a FETCHB without its batch and an access without a place in the log, is waited for only by a save. -/
def State.strandsQuiet (s : State) (core : Nat) (p : Party) (saves : Bool := false) : Bool :=
  p.producers.all (fun (_, q) => match q.res with | .batch _ _ off => !saves || s.batchStuck core p off | _ => false)
    && p.accesses.all (fun a => a.step == .logged || (!saves && a.step == .logWait))
    && (s.core core).sb == []
    && p.strands.toList.all fun st => st.txn.all fun t => t.commit.isNone

/-- R43, R409: every segment of the command has landed, has failed or stands in the fix-up list. -/
def EngineCmd.parked (c : EngineCmd) : Bool :=
  !c.allDone && c.segs.all fun g => g.finished || g.step == .fixup

-- PARTY_END

/-- R114: the party may leave its core. -/
def State.mayEnd (s : State) (core : Nat) (p : Party) : Bool :=
  p.status == .running && !p.anyLive && p.seq.state == .idle && p.seq.ops == [] && p.cmds == [] && p.accesses == []
    && p.producers.all (fun (_, q) => match q.res with | .batch _ _ _ => true | _ => false)
    && (s.core core).sb == [] && !s.packetsOut p

def execPartyEnd (o : CoreRef) (s : State) : Out :=
  match s.party? o.core with
  | none => .next s
  | some p =>
    if p.anyLive || p.status == .halting then .next s
    else if s.mayEnd o.core p then .next (s.removeParty o.core)
    else .next (s.post (.partyEnd o))

-- PARTY_SAVE (R148, R409)

/-- R148, R355, R409: nothing of the party is left to do: commands have completed or have been reported failed, but for those of a
debug halt under ALL, and for those whose operation cannot begin; broadcasts have been used (R341). -/
def State.settledParty (s : State) (core : Nat) (p : Party) : Bool :=
  s.strandsQuiet core p true && s.streamQuiet core p && p.cmds.all (fun c => !p.cmdTurn c.id || (p.enginesStopped && c.parked))
    && !s.packetsOut p && p.seq.casts == []

/-- R409, R341: the party's context can be captured, with those of its rope. -/
def State.maySave (s : State) (core : Nat) (p : Party) : Bool :=
  s.settledParty core p && ((ropeCores (p.seq.cfg.extractLsb' 41 2).toNat core).filter (· != core)).all fun m =>
    (s.party? m).all fun t => t.grid != p.grid || (t.status == .saving && s.settledParty m t)

/-- R476: a party's slot of the save area. -/
def Grid.saveSlot (g : Grid) (index : Nat) : Dword :=
  let s := if index < 0x8000 then index else g.parts + (index - 0x8000)
  g.save + BitVec.ofNat 64 (s * 0xA00000)

/-- R515: the first cause with which the save area's slot cannot be written, page by page of 64 KiB. -/
def State.slotFault (s : State) (slot : Dword) : Option (Cause × Dword) :=
  (List.range 161).findSome? fun k =>
    let at_ := if k = 160 then slot + 0x9FFFFF else slot + BitVec.ofNat 64 (65536 * k)
    match s.campAt s.bc.qroot at_ true with
    | .error c => some (c, at_)
    | .ok _ => none

/-- R253: an open transaction fails when its party is saved. -/
def Strand.failTxn (st : Strand) : Strand := { st with txn := st.txn.map fun t => Txn.failAll t 1 }

/-- R409, R391, R412: the context leaves the core. -/
def State.capture (s : State) (core : Nat) (p : Party) : State :=
  let q := { p with status := .suspended, strands := p.strands.map Strand.failTxn }
  let s1 := { s with
    parties := serase core s.parties
    saved := s.saved ++ [Parked.mk core q] }
  (s1.returnRange p.grid (dieOfCore core)).rebalanceAll

/-- A party whose save area cannot be written halts under HALT.ALL (R515). -/
def State.saveHalt (s : State) (core : Nat) (p : Party) (c : Cause) (at_ : Dword) : State :=
  let i := ((List.range 16).find? fun i => (p.strand i).live).getD 0
  let x := (p.strand i).receiver
  s.halt ⟨core, i, x⟩ (receivedInfo c (p.resumePc ((p.strand i).slot x)) ⟨0, 0⟩ at_ false) true

def execPartySave (o : CoreRef) (s : State) : Out :=
  match s.party? o.core with
  | none => .next s
  | some p =>
    if p.status != .saving then .next s
    else if !s.maySave o.core p then .next (s.post (.partySave o))
    else
      match s.grid? p.grid with
      | none => .next (s.capture o.core p)
      | some g =>
        match s.slotFault (g.saveSlot p.index) with
        | some (c, at_) => .next (s.saveHalt o.core p c at_)
        | none => .next (s.capture o.core p)

end

end Sys2Proof.Machine
end

