-- ==== Sys2Proof/Machine/Inventory.lean ====
section
/-!
DEFINITION. Machine/Inventory.lean: the inventory of a party, its sections and its header, and its writing (R508, R510-R515).
-/

namespace Sys2Proof.Machine

noncomputable section

def zeros (n : Nat) : List Byte := List.replicate n 0
/-- A list of bytes brought to a length. -/
def padTo (n : Nat) (bs : List Byte) : List Byte := bs.take n ++ zeros (n - bs.length)

-- strand records (R513)

/-- The slot waits on the instruction at its PC (R513 STATE 4). -/
def State.waitsAt (s : State) (p : Party) (w : SlotRef) : Bool :=
  let l := p.slot w
  match s.instrAt w.core p.root p.priv l.pc with
  | none => false
  | some i =>
    let x : Ctx := ⟨w, l.pc, l.pc, ⟨0, 0⟩⟩
    let ro := roles i
    let queues := ro.srcs.filter fun r => isQ r.spec
    match i with
    | .waitf _ => !p.srcsReady w ro.srcs []
    | .anwait o => !anwaitReady o x s
    | .waitp o => !waitpReady o x s
    | _ => !p.srcsReady w queues [] || ((ro.dst.any fun d => isQ d.spec) && !p.dstReady w ro.dst)
        || (needsEmptyLog i && p.logBusy w.strand) || (p.logBusy w.strand && p.overLimit w.strand)

/-- STATE, PC and WAIT of a slot (R513). -/
def State.slotView (s : State) (p : Party) (w : SlotRef) : Nat × Pc × Pc :=
  let l := p.slot w
  let stopped := match p.halt with
    | some h => !h.dbgHalt && h.strand == w.strand && h.slot == w.slot
    | none => false
  if stopped && l.st != .notLive then (5, (p.halt.map fun h => h.info.pc).getD l.pc, 0)
  else
  match l.st with
  | .notLive => (0, l.pc, 0)
  | .atJoin => (2, l.pc + 4, l.pc)
  | .suspended => (3, l.pc, 0)
  | .running =>
      match l.wait with
      | .bar _ pc => (4, l.pc, pc)
      | .none => (if s.waitsAt p w then 4 else 1, l.pc, 0)
      | _ => (4, p.resumePc l, 0)

def State.slotBytes (s : State) (p : Party) (w : SlotRef) : List Byte :=
  let l := p.slot w
  let (st, pc, wait) := s.slotView p w
  natBytes 8 pc.toNat ++ natBytes 4 l.em.toNat ++ natBytes 4 l.m0.toNat ++ natBytes 8 wait.toNat ++ natBytes 1 st
    ++ natBytes 1 l.flags.bits.toNat ++ zeros 6

/-- One place of an operand-log entry: 16 bytes a lane. -/
def placeBytes (x : Lanes (BitVec 128)) : List Byte := laneList.flatMap fun i => natBytes 16 (x[i]).toNat

def Access.logBytes (a : Access) : List Byte :=
  natBytes 4 a.words.w0.toNat ++ natBytes 4 a.words.w1.toNat ++ natBytes 4 a.m0.toNat ++ zeros 4
    ++ natBytes 8 (a.pc.toNat + (if a.slot = .b then 2 ^ 56 else 0) + 2 ^ 63) ++ natBytes 8 a.base.toNat
    ++ placeBytes a.pl1 ++ placeBytes a.pl2 ++ placeBytes a.pl3

/-- A v register as the record shows it: a compute strand's v72-v87 hold its shadow window (R136). -/
def Party.shownV (p : Party) (i n : Nat) : Lanes Word :=
  if p.shadows && i < 8 && 72 ≤ n then (p.window i)[n - 72]?.getD (splat 0) else (p.strand i).vreg n

/-- R513: a strand record of 0x4840 bytes. -/
def State.strandBytes (s : State) (core : Nat) (p : Party) (i : Nat) : List Byte :=
  let st := p.strand i
  let w : SlotRef := ⟨core, i, .a⟩
  if st.ended || !st.live then zeros 0x4830 ++ natBytes 1 i ++ [if st.ended then 4 else 0] ++ zeros 14
  else
    let logged := (p.accesses.filter fun a => a.strand == i && a.step == .logged).take 4
    (List.range 88).flatMap (fun n => laneList.flatMap fun l => natBytes 4 ((p.shownV i n)[l]).toNat)
      ++ (List.range 24).flatMap (fun n => natBytes 8 (st.sreg n).toNat)
      ++ (List.range 7).flatMap (fun n => natBytes 4 (st.mreg (n + 1)).toNat) ++ zeros 4
      ++ natBytes 16 st.full.toNat
      ++ laneList.flatMap (fun l => natBytes 4 (st.rng[l]).toNat)
      ++ s.slotBytes p w ++ s.slotBytes p { w with slot := .b }
      ++ (List.range 64).flatMap (fun k => natBytes 8 ((s.sysRead p w k).getD 0).toNat)
      ++ padTo (4 * 1568) (logged.flatMap Access.logBytes)
      ++ natBytes 1 i ++ [BitVec.ofNat 8 (1 + 2 * st.shd.toNat)] ++ natBytes 1 st.partner.toNat
      ++ natBytes 1 ((st.pendingFault.map fun f => (causeCode f.1).toNat).getD 0) ++ zeros 4
      ++ natBytes 8 ((st.pendingFault.map fun f => f.2.toNat).getD 0)

/-- The strands that have a record (R512 KIND 1). -/
def Grid.recordStrands (g : Grid) (p : Party) : List Nat :=
  let n := if p.collective then g.hdr.cstrand else g.hdr.nstrand
  List.range n ++ (if p.shadows then (List.range n).map (· + 8) else [])

-- the other sections (R512, R514)

def Party.scratchBytes (p : Party) : List Byte :=
  let n := p.scratchSize
  let kib (k : Nat) : Nat := if k < n / 1024 then (sget 0 p.swz k).toNat else 0
  (List.range n).map (sget 0 p.scratch)
    ++ (List.range ((n + 4095) / 4096)).map (fun j =>
      BitVec.ofNat 8 (kib (4 * j) + 4 * kib (4 * j + 1) + 16 * kib (4 * j + 2) + 64 * kib (4 * j + 3)))
    ++ (List.range (n / 256)).map (fun j =>
      BitVec.ofNat 8 ((List.range 8).foldl (fun v b => v + (if sget false p.spoison (8 * j + b) then 2 ^ b else 0)) 0))

def Party.anchorBytes (p : Party) : List Byte :=
  (List.range 16).flatMap (fun n => natBytes 8 ((p.bars[n]?.getD Barrier.blank).bits).toNat)
    ++ (List.range 16).flatMap fun i => (List.range 4).flatMap fun n =>
      let off := p.ancOff i n
      natBytes 8 off ++ zeros 8 ++ natBytes 16 (if off = 0 then 0 else p.readScratch off 16)

def seqCode : SeqState → Nat
  | .idle => 0
  | .running => 1
  | .waiting => 2
  | .halted => 3

/-- R338, R514: the accumulator store: 32-bit accumulators in 4 bytes, F64 ones in 8. -/
def Sequencer.accBytes (q : Sequencer) : List Byte :=
  let size := if (q.cfg.extractLsb' 39 2).toNat = 1 then 8 else 4
  (List.range (0x80000 / size)).flatMap fun e => natBytes size (sget 0 q.acc e)

def Party.matrixBytes (p : Party) : List Byte :=
  let q := p.seq
  padTo 0x100 (natBytes 8 q.pc.toNat ++ natBytes 1 (seqCode q.state) ++ natBytes 1 q.owner ++ natBytes 1 q.valid.toNat ++ zeros 5
    ++ natBytes 8 q.limit.toNat ++ natBytes 8 q.cfg.toNat ++ q.k.toList.flatMap fun k => natBytes 8 k.toNat)
    ++ (List.range 0x100000).map (sget 0 q.wbuf) ++ q.accBytes

/-- A queue's head and entries in room for its depth. -/
def queueBytes (entsz depth lost : Nat) (es : List (List Byte)) : List Byte :=
  natBytes 2 es.length ++ natBytes 2 entsz ++ natBytes 4 lost ++ zeros 8 ++ padTo (entsz * depth) es.flatten
def laneEntry (x : Lanes Word) : List Byte := laneList.flatMap fun l => natBytes 4 (x[l]).toNat
def wordEntry (x : Dword) : List Byte := natBytes 8 x.toNat

def Party.queueSection (p : Party) : List Byte :=
  (List.range 8).flatMap (fun i => natBytes 2 (p.window i).length ++ zeros 14)
    ++ queueBytes 128 8 0 (p.q1in.map laneEntry) ++ queueBytes 128 8 0 (p.q1out.map laneEntry)
    ++ queueBytes 8 32 0 (p.q2.map wordEntry) ++ queueBytes 8 128 p.q4lost (p.q4.map wordEntry)
    ++ queueBytes 128 16 0 (p.q5.map laneEntry)

/-- R379: the tile of a tile load and the element at which a segment begins. -/
def Sequencer.loadElement (q : Sequencer) (id : Nat) (g : Segment) : Nat :=
  ((q.ops.find? (·.id == id)).bind StreamOp.tile).getD 0 * 2 ^ 17 + g.off

/-- R379: the engine's side of a matrix segment; entry `k` of the list keeps its drained bytes in staging line `k`. -/
def EngineCmd.inside (c : EngineCmd) (q : Sequencer) (k : Nat) (g : Segment) : Nat :=
  match c.kind with
  | .copyIn | .copyOut => ((swizzled g.off g.len c.swz).head?).getD g.off
  | .wload slot => 0xF0 * 2 ^ 56 + slot * 2 ^ 18 + g.off
  | .drain _ _ => 0xF1 * 2 ^ 56 + k
  | .tload _ => 0xF2 * 2 ^ 56 + q.loadElement c.id g
  | .txa => g.off

/-- R329: a fix-up entry. -/
def EngineCmd.fixBytes (c : EngineCmd) (q : Sequencer) (k : Nat) (g : Segment) : List Byte :=
  let out := !c.kind.reads
  let inside := c.inside q k g
  let src := if out then inside else g.ptr.toNat
  let dst := if out then g.ptr.toNat else inside
  let hi : BitVec 128 := 0#32 ++ BitVec.ofNat 32 c.serial ++ BitVec.ofNat 2 c.swz ++ bit1 c.rel ++ bit1 c.seq
    ++ BitVec.ofNat 4 c.strand ++ bit1 out ++ BitVec.ofNat 7 (g.len - 1) ++ c.pitch ++ BitVec.ofNat 28 (c.anchor / 16) ++ c.tag
  natBytes 8 src ++ natBytes 8 dst ++ natBytes 16 hi.toNat

/-- R329: the entries of the list in its order, one for each run of a listed segment. -/
def Party.fixRuns (p : Party) : List (EngineCmd × Segment) :=
  p.fixups.flatMap fun (i, j) => ((p.cmd? i).bind fun c => (c.seg? j).map fun g =>
    g.runs.map fun (ptr, off, len) => (c, { g with ptr := ptr, off := off, len := len })).getD []

def Party.fixSection (p : Party) : List Byte :=
  let es := (p.fixRuns.take 256).zipIdx.map fun ((c, g), k) => c.fixBytes p.seq k g
  padTo 0x2010 (natBytes 2 es.length ++ zeros 14 ++ es.flatten)

def Party.flowBytes (p : Party) (f : Nat) : List Byte :=
  match p.flows.find? (·.num == f) with
  | none => zeros 32
  | some k => padTo 32 (natBytes 8 k.window.toNat ++ natBytes 2 k.size ++ natBytes 1 k.ordered.toNat ++ [1])

def Party.partySection (p : Party) : List Byte :=
  natBytes 1 p.items.length ++ natBytes 1 p.batches.length ++ zeros 14
    ++ padTo 128 (p.items.flatMap fun i => wordEntry i.wid) ++ padTo 128 (p.batches.flatMap fun b => wordEntry b.handle)
    ++ (List.range 32).flatMap p.flowBytes

/-- The seven sections (R512). -/
def State.sections (s : State) (core : Nat) (p : Party) (g : Grid) : List (List Byte) :=
  [(g.recordStrands p).flatMap (s.strandBytes core p), p.scratchBytes, p.anchorBytes, p.matrixBytes, p.queueSection,
    p.fixSection, p.partySection]

-- writing (R510, R511, R515)

/-- A section-table entry with what was written: kind, size, offset, valid bytes. -/
structure SectionOut where
  kind : Nat
  size : Nat
  off : Nat
  valid : Nat
  fault : Option (Cause × Dword)
  deriving DecidableEq, Repr

/-- The sections written in order, each from the next 4 KiB boundary. -/
def State.writeSections (s : State) (slot : Dword) : List (List Byte) → Nat → Nat → List SectionOut → State × List SectionOut
  | [], _, _, out => (s, out)
  | bs :: t, kind, off, out =>
    let (s1, n, f) := s.campWrite s.bc.qroot (slot + BitVec.ofNat 64 off) bs
    s1.writeSections slot t (kind + 1) ((off + bs.length + 4095) / 4096 * 4096) (out ++ [⟨kind, bs.length, off, n, f⟩])

/-- R511: FLAGS of the header. -/
def HaltInfo.flagBits (h : HaltInfo) (pv secondary : Bool) : Nat :=
  pv.toNat + 2 * h.all.toNat + 4 * h.inHandler.toNat + 8 * h.info.stream.toNat + 16 * secondary.toNat + 32 * h.dbgHalt.toNat

/-- R511: the header and the section table. -/
def headerBytes (now core : Nat) (p : Party) (h : HaltInfo) (out : List SectionOut) : List Byte :=
  let st := p.strand h.strand
  let bad := out.filter fun x => x.fault.isSome
  let first := bad.head?
  let t := h.info
  padTo 0x100 (natBytes 4 0x4B564E49 ++ natBytes 2 1 ++ natBytes 2 7 ++ natBytes 4 p.grid.toNat ++ natBytes 2 p.index
    ++ natBytes 2 core ++ natBytes 8 (rackCount (pkgOfCore core) h.time) ++ natBytes 1 (causeCode t.cause).toNat ++ natBytes 1 h.strand
    ++ natBytes 1 (slotIdx h.slot) ++ natBytes 1 (h.flagBits st.shd !bad.isEmpty)
    ++ natBytes 1 ((t.lane.map fun l => 32 + l.toNat).getD 0) ++ natBytes 1 (if st.shd then st.partner.toNat else 0) ++ zeros 2
    ++ natBytes 4 t.mask.toNat ++ zeros 4 ++ natBytes 8 t.pc.toNat ++ natBytes 8 (t.words.w1 ++ t.words.w0).toNat
    ++ natBytes 8 t.addr.toNat ++ natBytes 8 (t.ovr.count * 2 ^ 56 + t.ovr.pc.toNat)
    ++ natBytes 1 (if bad.isEmpty then 0 else (causeCode .dumpSecondary).toNat)
    ++ natBytes 1 (((first.bind SectionOut.fault).map fun f => (causeCode f.1).toNat).getD 0)
    ++ natBytes 1 ((first.map SectionOut.kind).getD 0) ++ natBytes 1 bad.length ++ zeros 4
    ++ natBytes 8 (((first.bind SectionOut.fault).map fun f => f.2.toNat).getD 0) ++ natBytes 8 now)
  ++ out.flatMap fun x => natBytes 1 x.kind ++ natBytes 1 x.fault.isSome.toNat ++ zeros 2 ++ natBytes 4 x.size
    ++ natBytes 4 x.off ++ natBytes 4 x.valid

/-- INVENTORY_WRITE (R510, R515): the sections, then the header; the flag says that the header was written. -/
def State.writeInventory (s : State) (core : Nat) (p : Party) (h : HaltInfo) : State × Bool :=
  match s.grid? p.grid with
  | none => (s, true)
  | some g =>
    let slot := g.saveSlot p.index
    let (s1, out) := s.writeSections slot (s.sections core p g) 1 0x1000 []
    let bs := padTo 0x1000 (headerBytes (s.rackTime (pkgOfCore core)) core p h out)
    match s1.campWrite s1.bc.qroot (slot + 128) (bs.drop 128) with
    | (s2, _, some _) => (s2, false)
    | (s2, _, none) =>
      match s2.campWrite s2.bc.qroot slot (bs.take 128) with
      | (s3, _, some _) => (s3, false)
      | (s3, _, none) => (s3, true)

end

end Sys2Proof.Machine
end

