-- ==== Sys2Proof/Machine/FaultService.lean ====
section
/-!
DEFINITION. Machine/FaultService.lean: the fault service (R144, R147, R238, R327, R482): a missing page is served from the tables,
or its fault enters the fault ring and is served by MAPUPDATE or becomes fatal.
-/

namespace Sys2Proof.Machine

noncomputable section

-- the ring (R482)

def BaseCamp.faultRoom (b : BaseCamp) : Bool := (b.fqtail + 2 ^ 32 - b.fqhead) % 2 ^ 32 < 2 ^ b.fqsize

def ringRecord (va : Nat) (tag : BitVec 32) (core kind time : Nat) : List Byte :=
  natBytes 8 va ++ natBytes 4 tag.toNat ++ natBytes 2 core ++ natBytes 1 kind ++ [0] ++ natBytes 8 time ++ zeros 8

/-- A record of the fault ring written, with its interrupt; none when the write faults. -/
def State.ringPut (s : State) (bs : List Byte) : Option State :=
  let b := s.bc
  match s.campWrite b.qroot (BitVec.ofNat 64 (b.fqbase + 32 * (b.fqtail % 2 ^ b.fqsize))) bs with
  | (_, _, some _) => none
  | (s1, _, none) => some { s1.modBc fun b => { b with fqtail := (b.fqtail + 1) % 2 ^ 32 } with msix := s1.msix ++ [1] }

-- serving and failing

/-- The core on which a party stands. -/
def State.coreOf (s : State) (tag : BitVec 32) (index : Nat) : Option Nat :=
  (s.parties.find? fun (_, p) => p.grid == tag && p.index == index).map Prod.fst
/-- A party, resident or suspended. -/
def State.partyOf (s : State) (tag : BitVec 32) (index : Nat) : Option Party :=
  match s.parties.find? fun (_, p) => p.grid == tag && p.index == index with
  | some (_, p) => some p
  | none => (s.saved.find? fun k => k.party.grid == tag && k.party.index == index).map Parked.party

/-- OPERAND_LOG_REPLAY and FIXUP_REPLAY (R144, R327): what waits in a resident party for a page is served; entries of the log are
tried again in log order, those of the fix-up list in list order. -/
def State.replayPage (s : State) (core pg : Nat) : State :=
  match s.party? core with
  | none => s
  | some p =>
    let here (va : Nat) : Bool := va % 2 ^ 56 / 65536 == pg
    let serve (a : Access) : Access :=
      if a.step = .logged ∧ a.fault.any (fun f => here f.addr.toNat) = true then { a with fault := none } else a
    let p1 := { p with accesses := p.accesses.map serve }.modSeq fun q => match q.hold with
      | .descriptor va _ => if va / 65536 = pg then { q with hold := .descriptor va true } else q
      | _ => q
    let segs := p.fixups.filter fun f => ((p.cmd? f.1).bind (·.seg? f.2)).any fun g => g.runs.any fun r => here r.1.toNat
    (segs.foldl (fun s f => s.post (.segmentLand ⟨core, f.1, f.2⟩)) (s.setParty core p1)).pump core

/-- A fault record leaves Base Camp's list. -/
def State.dropFault (s : State) (id : Nat) : State :=
  s.modBc fun b => { b with faults := b.faults.filter fun f => f.id != id }

/-- The record's page has been served. -/
def State.serveFault (s : State) (f : FaultRec) : State :=
  let s1 := s.dropFault f.id
  match s1.coreOf f.grid f.index with
  | none => s1
  | some core => s1.replayPage core (f.va.toNat / 65536)

/-- What a fault stops still waits for it. -/
def Party.stillWaits (p : Party) : FaultWho → Bool
  | .access id => p.accesses.any fun a => a.id == id && a.step == .logged && a.fault.isSome
  | .segment c g => p.fixups.contains (c, g) && ((p.cmd? c).bind (·.seg? g)).any fun x => x.step == .fixup
  | .sequencer => match p.seq.hold with
    | .descriptor _ served => !served
    | _ => false

/-- R147, R324, R359: a fault that is fatal reaches what it stopped. -/
def State.fatalTo (s : State) (core : Nat) (p : Party) (va : Pc) (who : FaultWho) : State :=
  if !p.stillWaits who then s
  else
    match who with
    | .access id =>
      match p.access? id with
      | none => s
      | some a =>
        let s1 := if a.kind = .command then s.rejectCopy core a.strand else s
        s1.failAccess core a (a.fault.getD ⟨.pageNotPresent, 0, none, va.setWidth 64⟩)
    | .segment c g =>
      match (p.cmd? c).bind (·.seg? g) with
      | none => s
      | some x => s.stopSegment core c x .pageNotPresent va.toNat
    | .sequencer =>
      let words := match s.instrAt core p.root p.priv p.seq.pc with
        | some i => instrWords i
        | none => ⟨0, 0⟩
      s.streamFault core .pageNotPresent words va.toNat

/-- A record declared fatal: a suspended party meets it when it resumes. -/
def State.failFault (s : State) (f : FaultRec) : State :=
  match s.coreOf f.grid f.index with
  | none =>
    (s.modBc fun b => { b with faults := b.faults.map fun g => if g.id = f.id then { g with fatal := true } else g }).post
      (.faultTimeout ⟨f.id⟩)
  | some core =>
    match s.party? core with
    | none => s
    | some p => (s.dropFault f.id).fatalTo core p f.va f.who

/-- Records that wait for room enter the ring in order; one whose write faults is fatal at once (R518), and a record of a debug
halt is then dropped. -/
def State.tendRing (s : State) : State :=
  if s.commitsHold then s else
  let s1 := s.bc.faults.foldl (fun s f =>
    if f.ringed || !s.bc.faultRoom then s
    else
      match s.ringPut (ringRecord f.va.toNat f.grid f.core f.kind (rackCount (pkgOfCore f.core) f.time)) with
      | none => s.failFault { f with ringed := true }
      | some s1 => s1.modBc fun b => { b with faults := b.faults.map fun g => if g.id = f.id then { g with ringed := true } else g }) s
  s1.bc.debugRecs.foldl (fun s d =>
    if !s.bc.faultRoom then s
    else
      let (tag, core, pc, time) := d
      let s2 := s.modBc fun b => { b with debugRecs := b.debugRecs.erase d }
      (s2.ringPut (ringRecord pc.toNat tag core 4 time)).getD s2) s1

/-- FAULT_SERVICE (R238): the page has come into the tables, or the fault takes a record. A party faults once for one cause. -/
def execFaultService (o : FaultReq) (s : State) : Out :=
  match s.party? o.core with
  | none => .next s
  | some p =>
    if !p.stillWaits o.who then .next s
    else if s.commitsHold then .next (s.post (.faultService o))
    else
      match s.walkFrom s.campUp p.root o.va.toNat 3 with
      | .error .pageNotPresent =>
        let same (f : FaultRec) : Bool := f.grid == p.grid && f.index == p.index && f.who == o.who && f.va == o.va
        if s.bc.faults.any same then
          .next (s.modBc fun b => { b with faults := b.faults.map fun f => if same f then { f with core := o.core } else f })
        else
          let f : FaultRec := ⟨s.nextId, p.grid, p.index, o.core, o.va, o.kind, o.who, s.now, false, false⟩
          let s1 := s.bump.modBc fun b => { b with faults := b.faults ++ [f] }
          .next (s1.post (.faultTimeout ⟨f.id⟩)).tendRing
      | _ => .next (s.replayPage o.core (o.va.toNat / 65536))

/-- FAULT_TIMEOUT (R482). -/
def execFaultTimeout (o : FaultRef) (s : State) : Out :=
  match s.bc.faults.find? (·.id == o.id) with
  | none => .next s
  | some f =>
    if !f.fatal && s.now < f.time + 4000000 then .next (s.post (.faultTimeout o))
    else .next (s.failFault f)

end

end Sys2Proof.Machine
end

