-- ==== Sys2Proof/Machine/Halt.lean ====
section
/-!
DEFINITION. Machine/Halt.lean: halting a party (R507, R508), debug halts and their resumption (R478, R509).
-/

namespace Sys2Proof.Machine

noncomputable section

/-- R507: the cause of the grid's first halt in time. -/
def State.noteHalt (s : State) (tag : BitVec 32) (h : HaltInfo) : State :=
  s.modGrid tag fun g =>
    if g.cause = .none ∨ h.time < g.causeAt then { g with cause := h.info.cause, causeAt := h.time } else g

/-- R507 step 4: segments not yet sent stay on the fix-up list. -/
def Party.parkSegments (p : Party) : Party :=
  let ready := p.cmds.flatMap fun c => (c.segs.filter fun g => g.step == .ready).map fun g => (c.id, g.id)
  { p with
    fixups := p.fixups ++ ready
    cmds := p.cmds.map fun c =>
      { c with segs := c.segs.map fun g => if g.step = .ready then { g with step := .fixup } else g } }

/-- An EMIT that waits for room does not append once its party halts. -/
def Party.dropEmits (p : Party) : Party :=
  { p with accesses := p.accesses.filter fun a => !(a.step == .attempt && (match a.op with | some (.emit _) => true | _ => false)) }

/-- R340: a multiply of the party waits for a broadcast that its rope partner is about to send. -/
def State.castComing (s : State) (core : Nat) (p : Party) : Bool :=
  p.seq.ops.any StreamOp.shares && (s.party? (ropeMate core)).any fun u =>
    u.grid == p.grid && u.status == .running && !u.seq.hold.onOp && u.seq.ops.any StreamOp.shares

/-- R507 steps 2 to 4: what the halt waits for, but for commands whose operation cannot begin. -/
def State.workDone (s : State) (core : Nat) (p : Party) (all : Bool) : Bool :=
  s.strandsQuiet core p && s.streamQuiet core p && !s.castComing core p
    && p.cmds.all (fun c => !p.cmdTurn c.id || (all && c.parked))
    && (all || !s.packetsOut p)

/-- A WLOAD, TLOAD or DRAIN of the stream. -/
def StreamOp.moves (o : StreamOp) : Bool :=
  match o.kind with
  | .mma _ _ _ _ _ _ _ | .tzero => false
  | _ => true

/-- R507 step 3: nothing is left that a halt has to see completed or reported failed. -/
def State.mayDump (s : State) (core : Nat) (p : Party) (all : Bool) : Bool :=
  s.workDone core p all && (all || (p.cmds.all (fun c => c.kind == .txa) && !p.seq.ops.any StreamOp.moves))

/-- The notices of a stream operation that is reported failed: one for each segment that has not ended, or one that names no byte. -/
def Party.failOp (p : Party) (o : StreamOp) (cause : Cause) : Party :=
  match (p.cmd? o.id).map fun c => (c, c.segs.filter fun g => !g.finished) with
  | none => p.matrixNotice o.pc 0 false cause
  | some (_, []) => p.matrixNotice o.pc 0 false cause
  | some (c, gs) => gs.foldl (fun p g => p.failNotice c g cause (g.ptr.toNat % 2 ^ 56)) p

/-- R507 step 3: loads and drains of the stream that cannot go on, as no strand is left to push rows to q1 or to pop them, are reported
failed with the cause of the halt (DESIGN CHOICE, log entry 65); the elements of a failed TLOAD are those of R373. -/
def Party.failStuck (p : Party) (cause : Cause) : Party :=
  let c := p.seq.tcfg.getD (Tcfg.of 0)
  (p.seq.ops.filter StreamOp.moves).foldl (fun p o =>
    let q := { p.failOp o cause with cmds := p.cmds.filter (·.id != o.id), fixups := p.fixups.filter (·.1 != o.id) }
    q.modSeq fun s => match o.kind with
      | .tload _ _ _ m n from_ => (s.loadTile c (o.tile.getD 0) m n from_ fun _ _ => none).dropOp o.id
      | _ => s.dropOp o.id) p

/-- PARTY_HALT (R507): the steps that have not ended are looked at again. -/
def execPartyHalt (o : CoreRef) (s : State) : Out :=
  match s.party? o.core with
  | none => .next s
  | some p0 =>
    match p0.halt with
    | none => .next s
    | some h =>
      if p0.status != .halting then .next s
      else
        let p := (if h.all then p0.parkSegments else p0).dropEmits
        let s1 := (s.setParty o.core p).noteHalt p.grid h
        if !h.all && s1.workDone o.core p false && !s1.mayDump o.core p false then
          .next ((s1.setParty o.core (p.failStuck h.info.cause)).post (.partyHalt o))
        else if !s1.mayDump o.core p h.all || s1.commitsHold then .next (s1.post (.partyHalt o))
        else
          let (s2, ok) := s1.writeInventory o.core p h
          let s3 := s2.failParty p o.core h.info.cause
          let s4 := if ok then s3 else s3.modGrid p.grid fun g => { g with cause := .dumpSecondary, causeAt := 0 }
          .next (s4.removeParty o.core)

-- debug halts (R509)

/-- What a requested debug halt records: no cause, no instruction. -/
def requestedHalt (all : Bool) (now : Nat) : HaltInfo :=
  ⟨⟨.none, 0, ⟨0, 0⟩, none, 0, 0, ⟨0, 0⟩, 0, false⟩, 0, .a, all, false, true, now⟩

/-- R482: the ring record of a debug halt that a BREAKPOINT or SINGLE_STEP caused. -/
def State.recordDebug (s : State) (p : Party) (h : HaltInfo) : State :=
  if h.info.cause = .none then s
  else
    let core := (s.coreOf p.grid p.index).getD 0
    (s.modBc fun b => { b with
      debugRecs := b.debugRecs ++ [(p.grid, core, h.info.pc, rackCount (pkgOfCore core) h.time)] }).tendRing

/-- R478: DEBUG commands whose parties have all written their inventory complete. -/
def State.tendHalts (s : State) : State :=
  s.bc.active.foldl (fun s a =>
    match a.wait with
    | .halts ps n =>
      if ps.all fun i => match s.partyOf a.grid i with
          | none => true
          | some p => p.dbg || (p.dbgWant.isSome && p.status == .saving) || p.status == .halting
      then s.finishActive a .none n else s
    | _ => s) s

/-- R331, R509: a debug halt stops the sequencer, and with it its rope (R341). -/
def State.stopSequencer (s : State) (core : Nat) : State :=
  if (s.party? core).any fun p => p.seq.state == .running || p.seq.state == .waiting then
    (s.modParty core (·.modSeq fun q => { q with state := .halted, was := some q.state })).breakRope core
  else s

/-- R355, R509: what the inventory of a debug halt waits for of the engines. -/
def Party.haltedEngines (p : Party) (all : Bool) : Bool :=
  p.cmds.all fun c => !p.cmdTurn c.id ||
    (if all then c.parked else match c.kind with
      | .drain _ _ => false
      | .copyIn | .copyOut => !c.seq
      | _ => true)

/-- DEBUG_HALT (R509): a request that stands stops a party that runs; once its strands and its stream are quiet the inventory is written. A
party that a save has overtaken keeps the request for its resumption (R478). -/
def execDebugHalt (o : HaltReq) (s : State) : Out :=
  match s.party? o.core with
  | none => .next s
  | some p0 =>
    if p0.status = .running then
      match p0.dbgWant with
      | none => .next s
      | some all =>
        .next (((s.setParty o.core { p0 with
          status := .debugHalt, dbgWant := none, halt := some (requestedHalt all s.now) }).stopSequencer o.core).post (.debugHalt o))
    else if p0.status != .debugHalt || p0.dbg then .next s
    else
      let h := p0.halt.getD (requestedHalt o.all s.now)
      let p := if h.all then { p0 with halt := some h }.parkSegments else { p0 with halt := some h }
      let s1 := (s.setParty o.core p).stopSequencer o.core
      let p1 := (s1.party? o.core).getD p
      if !(s1.strandsQuiet o.core p1 && s1.streamQuiet o.core p1 && p1.haltedEngines h.all) || s1.commitsHold then .next (s1.post (.debugHalt o))
      else
        let q := { p1 with strands := p1.strands.map Strand.failTxn }
        let (s2, _) := (s1.setParty o.core q).writeInventory o.core q h
        .next ((s2.modParty o.core fun p => { p with dbg := true }).recordDebug q h).tendHalts

/-- R478, R509: a debug-halted party after its resume, stepping or not: its sequencer is as the halt found it. -/
def Party.undoDebug (p : Party) (step : Bool) : Party :=
  { p with
    dbg := false
    halt := none
    seq := { p.seq with state := p.seq.was.getD p.seq.state, was := none }
    strands := if step then p.strands.map fun st => { st with step := true } else p.strands }

/-- R478, R509: a debug-halted party on its core goes on, or the saving of it does; the engines take up what HALT.ALL left. -/
def State.debugResume (s : State) (core : Nat) (step : Bool) : State :=
  match s.party? core with
  | none => s
  | some p =>
    let all := p.halt.any fun h => h.all
    let s1 := s.setParty core { p.undoDebug step with status := if p.status = .debugHalt then .running else p.status }
    if all then p.fixups.foldl (fun s f => s.post (.segmentLand ⟨core, f.1, f.2⟩)) s1 else s1

end

end Sys2Proof.Machine
end

