-- ==== Sys2Proof/Machine/Launch.lean ====
section
/-!
DEFINITION. Machine/Launch.lean: the launch header, its core set and its bins (R380, R381, R401, R403), where a grid runs (R385,
R386), the split of its index space (R384, R388, R394), the start of its parties (R101, R113, R115).
-/

namespace Sys2Proof.Machine

noncomputable section

-- reading the header

def bitmapBytes : Nat := 2304

def BinEntry.ofBytes (bs : List Byte) : BinEntry where
  entry := BitVec.ofNat 64 (fieldAt bs 0 8)
  buf := BitVec.ofNat 64 (fieldAt bs 8 8)
  count := fieldAt bs 0x10 2
  recSz := fieldAt bs 0x12 1
  cap := fieldAt bs 0x14 4
  timer := fieldAt bs 0x18 4

/-- R401, R403. -/
def binOk (bs : List Byte) : Bool :=
  let b := BinEntry.ofBytes bs
  b.entry.toNat % 4 == 0 && b.buf.toNat % 128 == 0 && 1 ≤ b.count && b.count ≤ 1024 && 4 ≤ b.recSz && b.recSz ≤ 32
    && b.recSz % 4 == 0 && fieldAt bs 0x13 1 == 0 && b.cap == 2 ^ b.cap.log2 && b.count ≤ b.cap && b.cap ≤ 2 ^ 20
    && 1 ≤ b.timer && b.timer ≤ 65535 && fieldAt bs 0x1C 4 == 0

def one (n : Nat) : Nat := if n = 0 then 1 else n

/-- R380: the fields of a header, its core set and bins still to be read. -/
def Header.ofBytes (ptr : Dword) (bs : List Byte) : Header where
  ptr := ptr
  hashed := fieldAt bs 0 1 == 1
  edgeRoute := fieldAt bs 1 1 % 2 == 1
  movable := fieldAt bs 1 1 / 2 % 2 == 1
  priv := fieldAt bs 1 1 / 4 % 2 == 1
  nstrand := one (fieldAt bs 3 1)
  cpart := fieldAt bs 4 1
  cstrand := one (fieldAt bs 5 1)
  edgeMask := fieldAt bs 6 1
  entry := BitVec.ofNat 64 (fieldAt bs 0x08 8)
  handler := BitVec.ofNat 64 (fieldAt bs 0x10 8)
  shadow := BitVec.ofNat 64 (fieldAt bs 0x18 8)
  centry := BitVec.ofNat 64 (fieldAt bs 0x20 8)
  scratch := fieldAt bs 0x28 4
  kshift := fieldAt bs 0x2C 1
  kbits := fieldAt bs 0x2D 1
  stealIdle := if fieldAt bs 0x2E 2 = 0 then 16 else fieldAt bs 0x2E 2
  kmul := one (fieldAt bs 0x30 4)
  kbase := fieldAt bs 0x34 4
  fields := (List.range (fieldAt bs 2 1)).map fun f => ⟨fieldAt bs (0x50 + 16 * f) 1, fieldAt bs (0x58 + 16 * f) 8 + 1⟩
  coreset := none
  bins := []

/-- R381: what makes a header's own bytes malformed on a LAUNCH from the host queue. -/
def headerBad (bs : List Byte) : Bool :=
  let h := Header.ofBytes 0 bs
  let nf := fieldAt bs 2 1
  let nbin := fieldAt bs 0x48 2
  let zero (off n : Nat) : Bool := fieldAt bs off n == 0
  let sum := h.fields.foldl (fun n f => n + f.width) 0
  1 < fieldAt bs 0 1 || 8 ≤ fieldAt bs 1 1 || 6 < nf || !zero 7 1 || !zero 0x4A 6 || !zero 0xB0 80
    || (List.range 6).any (fun f => if f < nf then !zero (0x51 + 16 * f) 7 else !zero (0x50 + 16 * f) 16)
    || h.fields.any (fun f => f.width == 0 || 2 ^ f.width < f.extent)
    || 64 < sum || (62 < sum && nbin != 0)
    || 16 < fieldAt bs 3 1 || (8 < h.nstrand && h.shadow != 0) || 16 < fieldAt bs 5 1 || 8 < h.cpart
    || (h.centry == 0 && h.cpart != 0) || 2 ^ nf ≤ h.edgeMask || 63 < h.kshift || 32 < h.kbits
    || h.scratch % 1024 != 0 || 8388608 < h.scratch || 256 < nbin
    || (nbin != 0 && (zero 0x40 8 || fieldAt bs 0x40 8 % 32 != 0)) || h.priv

/-- R17, R21: the cores of the rack. -/
def rackCores : List Nat := List.range (72 * 256)

/-- R385: a core that would be reserved for the collective kernel. -/
def Header.reserves (h : Header) (core : Nat) : Bool := 28 ≤ core % 32 + h.cpart && core % 32 < 28
/-- The cores that the header names. -/
def Header.named (h : Header) : List Nat := match h.coreset with
  | none => rackCores
  | some l => l.filter (· < 72 * 256)

/-- R381, R386: no core of the set could run the grid. -/
def Header.hopeless (h : Header) : Bool :=
  (h.named.all h.reserves) || (h.edgeRoute && !h.named.any edgeCore)

/-- R381, R518: the header, its core set and its bins, as read now. -/
def State.readHeader (s : State) (ptr : Dword) : Except Cause (State × Header) :=
  let root := s.bc.qroot
  match s.campRead root ptr 256 with
  | .error _ => .error .commandFault
  | .ok (s1, bs) =>
    if headerBad bs then .error .commandMalformed
    else
      let h := Header.ofBytes ptr bs
      let cs := fieldAt bs 0x38 8
      let nbin := fieldAt bs 0x48 2
      let read (s : State) (at_ n : Nat) : Except Cause (State × List Byte) :=
        if n = 0 then .ok (s, [])
        else match s.campRead root (BitVec.ofNat 64 at_) n with
          | .error _ => .error .commandFault
          | .ok r => .ok r
      match read s1 cs (if cs = 0 then 0 else bitmapBytes) with
      | .error c => .error c
      | .ok (s2, map) =>
        match read s2 (fieldAt bs 0x40 8) (32 * nbin) with
        | .error c => .error c
        | .ok (s3, tab) =>
          let entries := (List.range nbin).map fun b => (tab.drop (32 * b)).take 32
          let h1 := { h with
            coreset := if cs = 0 then none else some (bitmapCores map)
            bins := entries.map BinEntry.ofBytes }
          if !entries.all binOk || h1.hopeless then .error .commandMalformed else .ok (s3, h1)

-- where it runs (R385, R386)

/-- A core that holds no party and that no grid but this would take. -/
def State.freeCore (s : State) (core : Nat) : Bool :=
  (s.party? core).isNone && (s.pkg (pkgOfCore core)).ready && !s.fenced.contains (dieOfCore core)

/-- The edge cores of a core's die. -/
def edgesBeside (c : Nat) : List Nat := (List.range 4).map fun i => c / 32 * 32 + 28 + i

/-- R386: the participating cores at acceptance; with EDGEROUTE a die takes part while one of its edge cores is free. -/
def State.participants (s : State) (h : Header) : List Nat :=
  let free := h.named.filter s.freeCore
  if h.edgeRoute then free.filter fun c => (edgesBeside c).any s.freeCore else free

/-- R386: the grid can start now. -/
def State.canStart (s : State) (h : Header) : Bool := (s.participants h).any fun c => !h.reserves c

-- the index space (R384, R388, R394)

/-- R388: a range split among parts, each with its compute cores, in ascending order; the last takes the remainder. -/
def splitRange (n c0 lo hi : Nat) : List (Nat × List Nat) → Nat → List (List Nat × Nat × Nat)
  | [], _ => []
  | [(_, cs)], at_ => [(cs, at_, hi)]
  | (_, cs) :: t, at_ =>
    let m := n * cs.length / c0
    (cs, at_, at_ + m) :: splitRange n c0 lo hi t (at_ + m)

/-- Cores grouped by a key, in ascending order of the key. -/
def groupCores (key : Nat → Nat) (cs : List Nat) : List (Nat × List Nat) :=
  cs.foldl (fun acc c => kput acc (key c) ((kget acc (key c)).getD [] ++ [c])) []

/-- One level of the split. -/
def splitBy (key : Nat → Nat) (part : List Nat × Nat × Nat) : List (List Nat × Nat × Nat) :=
  let (cs, lo, hi) := part
  splitRange (hi - lo) cs.length lo hi (groupCores key cs) lo

/-- R388: the launch ranges of the dies. -/
def launchRanges (compute : List Nat) (n : Nat) : List (Nat × Nat × Nat) :=
  let dies := ((splitBy (fun c => pkgOfCore c / 9) (compute, 0, n)).flatMap (splitBy pkgOfCore)).flatMap (splitBy dieOfCore)
  dies.filterMap fun (cs, lo, hi) => match cs with
    | [] => none
    | c :: _ => if lo < hi then some (dieOfCore c, lo, hi) else none

/-- R384: the home package of an index. -/
def State.hashHome (s : State) (h : Header) (pkgs : List Nat) (x : Nat) : Nat :=
  let k := (h.kbase + h.kmul * ((h.workId x).toNat / 2 ^ h.kshift % 2 ^ h.kbits)) % 2 ^ 32
  let p := s.poolHome (poolFold k)
  ((List.range 72).findSome? fun i => if pkgs.contains ((p + i) % 72) then some ((p + i) % 72) else none).getD p

/-- R384, R394: the queues of the packages that have a participating core. -/
def State.launchQueues (s : State) (h : Header) (cores : List Nat) : List (Nat × List Nat) :=
  let pkgs := (cores.map pkgOfCore).eraseDups
  let empty : List (Nat × List Nat) := pkgs.foldl (fun q p => kput q p []) []
  (List.range h.size).foldl (fun q x =>
    let p := s.hashHome h pkgs x
    kput q p ((kget q p).getD [] ++ [x])) empty

-- parties

/-- R101: the registers and slot A of a strand as it starts. -/
def Header.strand (h : Header) (args : Dword) (index core i : Nat) (entry : Dword) : Strand :=
  let s0 := Strand.blank.s
  let regs := (((((s0.setIfInBounds 0 args).setIfInBounds 1 h.ptr).setIfInBounds 2 (BitVec.ofNat 64 index)).setIfInBounds 3
    (BitVec.ofNat 64 core)).setIfInBounds 4 (BitVec.ofNat 64 i)).setIfInBounds 5 (BitVec.ofNat 64 h.scratch)
  { Strand.blank with live := true, s := regs }.setSlot .a
    { Slot.dead with
      st := .running
      pc := entry.setWidth 56
      em := BitVec.allOnes 32
      m0 := BitVec.allOnes 32 }

/-- R115: a shadow strand. -/
def Header.shadowStrand (h : Header) (args : Dword) (index core i : Nat) : Strand :=
  let st := h.strand args index core (i + 8) h.shadow
  { st.setS 6 (BitVec.ofNat 64 i) with shd := true, partner := BitVec.ofNat 4 i }

/-- PARTY_START (R113): every strand of a party starts. -/
def Header.party (h : Header) (tag : BitVec 32) (args : Dword) (root index core : Nat) (collective : Bool) : Party :=
  let n := if collective then h.cstrand else h.nstrand
  let entry := if collective then h.centry else h.entry
  let shadows := !collective && h.shadow != 0
  let strands := Vector.ofFn fun i : Fin 16 =>
    if i.val < n then h.strand args index core i.val entry
    else if shadows && 8 ≤ i.val && i.val < n + 8 then h.shadowStrand args index core (i.val - 8)
    else Strand.blank
  { Party.blank with
    grid := tag
    index := index
    collective := collective
    movable := h.movable
    priv := h.priv
    root := root
    scratchSize := h.scratch
    shadows := shadows
    strands := strands
    bars := Party.blank.bars.setIfInBounds 0 { Barrier.blank with pend := n, count := n }
    thnd := h.handler.extractLsb' 2 54 }

/-- The grid that a header starts. -/
def State.gridOf (s : State) (tag : BitVec 32) (h : Header) (args : Dword) (root : Nat) (failLog save : Dword)
    (compute colls : List Nat) : Grid where
  tag := tag
  hdr := h
  args := args
  root := root
  failLog := failLog
  save := save
  compute := compute
  parts := compute.length
  colls := colls
  ranges := if h.hashed then [] else launchRanges compute h.size
  edges := []
  back := []
  queues := if h.hashed then s.launchQueues h (compute ++ colls) else []
  idle := []
  rings := []
  seqs := []
  withdrawn := []
  live := compute.length + colls.length
  cause := .none
  causeAt := 0
  failed := 0
  whole := false

/-- THE START of a grid on its participating cores (R385, R113). -/
def State.startGrid (s : State) (tag : BitVec 32) (h : Header) (args : Dword) (root : Nat) (failLog save : Dword) : State :=
  let cores := s.participants h
  let compute := cores.filter fun c => !h.reserves c
  let colls := cores.filter h.reserves
  let s1 := s.setGrid (s.gridOf tag h args root failLog save compute colls)
  let put (coll : Bool) (base : Nat) (s : State) (x : Nat × Nat) : State :=
    s.setParty x.1 (h.party tag args root (base + x.2) x.1 coll)
  let s2 := colls.zipIdx.foldl (put true 0x8000) (compute.zipIdx.foldl (put false 0) s1)
  ((compute.map pkgOfCore).eraseDups).foldl (fun s p => s.noteIdle tag p) s2

end

end Sys2Proof.Machine
end

