-- ==== Sys2Proof/Machine/Camp.lean ====
section
/-!
DEFINITION. Machine/Camp.lean: the command queue (R472-R475, R477, R480, R483, R484, R518): dispatch, the steps of a packet, the
halts of the queue, completion records.
-/

namespace Sys2Proof

-- the packet

def Cmd.op (o : Cmd) : Nat := o.dw0.toNat % 256
def Cmd.dclass (o : Cmd) : Nat := o.dw0.toNat / 256 % 8
def Cmd.bound (o : Cmd) (k : Nat) : Bool := o.dw0.getLsbD (11 + k)
def Cmd.fence (o : Cmd) : Bool := o.dw0.getLsbD 16
def Cmd.irq (o : Cmd) : Bool := o.dw0.getLsbD 17
def Cmd.tag (o : Cmd) : BitVec 32 := o.dw0.extractLsb' 32 32
/-- Operand DW(3 + k). -/
def Cmd.operand (o : Cmd) : Nat → Dword
  | 0 => o.dw3
  | 1 => o.dw4
  | 2 => o.dw5
  | 3 => o.dw6
  | _ => o.dw7
def Cmd.setOperand (o : Cmd) (v : Dword) : Nat → Cmd
  | 0 => { o with dw3 := v }
  | 1 => { o with dw4 := v }
  | 2 => { o with dw5 := v }
  | 3 => { o with dw6 := v }
  | _ => { o with dw7 := v }
/-- The operands from DW(3 + k) on are zero. -/
def Cmd.zeroFrom (o : Cmd) (k : Nat) : Bool := (List.range 5).all fun j => j < k || o.operand j == 0

end Sys2Proof

namespace Sys2Proof.Machine

noncomputable section

/-- R473: a packet as read. -/
def cmdOfBytes (addr depth seq : Nat) (bs : List Byte) : Cmd :=
  let w (k : Nat) : Dword := BitVec.ofNat 64 (fieldAt bs (8 * k) 8)
  ⟨addr, depth, seq, w 0, w 1, w 2, w 3, w 4, w 5, w 6, w 7⟩

/-- R476: the command of an opcode; an opcode above 0x0A goes to NOP, whose check finds it (R477). -/
def commandOf (o : Cmd) : Instr :=
  match o.op with
  | 0x01 => .launch o
  | 0x02 => .preempt o
  | 0x03 => .resume o
  | 0x04 => .semsig o
  | 0x05 => .semwait o
  | 0x06 => .ibuf o
  | 0x07 => .mapupdate o
  | 0x08 => .hostcopy o
  | 0x09 => .timestamp o
  | 0x0A => .debugCmd o
  | _ => .nopCommand o

-- dispatch

/-- R484: the completion ring has room. -/
def BaseCamp.recordRoom (b : BaseCamp) : Bool := (b.cqtail + 2 ^ 32 - b.cqhead) % 2 ^ 32 < 2 ^ b.cqsize

/-- Buffers that have run to their end leave the chain; their IBUFs then wait for the commands dispatched so far. -/
def popBuffers : Nat → BaseCamp → BaseCamp
  | 0, b => b
  | k + 1, b =>
    match b.buffers with
    | [] => b
    | x :: t =>
      if x.next < x.count then b
      else popBuffers k { b with
        buffers := t
        active := b.active.map fun a => if a.seq = x.seq then { a with wait := .buffer (some b.seq) } else a }

/-- The address of the next packet: of the innermost buffer, else of the ring (R472, R480). -/
def BaseCamp.nextPacket (b : BaseCamp) : Option Nat :=
  match b.buffers with
  | x :: _ => some (x.base + 64 * x.next)
  | [] => if b.qhead = b.qtail then none else some (b.qbase + 64 * (b.qhead % 2 ^ b.qsize))

/-- The packet in dispatch is dequeued (R474 step 4). -/
def BaseCamp.dequeued (b : BaseCamp) : BaseCamp :=
  match b.buffers with
  | x :: t => { b with buffers := { x with next := x.next + 1 } :: t }
  | [] => { b with qhead := (b.qhead + 1) % 2 ^ 32 }

/-- R480, R518: the queue halts. -/
def BaseCamp.halted (b : BaseCamp) (why : QueueHalt) (c : Cause) (seq addr : Nat) : BaseCamp :=
  { b with
    stage := 0
    state := 2
    stop := some why
    qerr := causeCode c
    qerrSeq := seq % 2 ^ 64
    qerrAddr := addr % 2 ^ 56 }

/-- R474 step 1: the next packet is read. The rack controller processes the queue (R468). While completion records wait, or the ring is
full of them, none is read (R484). A buffer stays in the chain while its last packet waits or has halted the queue. -/
def State.dispatch (s0 : State) : State :=
  let s := if s0.bc.stage = 0 ∧ s0.bc.stop = none then s0.modBc (popBuffers 5) else s0
  let b := s.bc
  if (kget b.roles 0).isNone || !b.en || b.state != 1 || b.stage != 0 || b.done != [] || !b.recordRoom || b.stop.isSome || s.commitsHold then s
  else
    match b.nextPacket with
    | none => s
    | some addr =>
      let s1 := s.modBc fun b => { b with seq := b.seq + 1 }
      match s1.campRead b.qroot (BitVec.ofNat 64 addr) 64 with
      | .error _ => s1.modBc fun x => x.halted (.packet b.seq) .commandFault b.seq addr
      | .ok (s2, bs) =>
        (s2.modBc fun x => { x with stage := 2 }).post (commandOf (cmdOfBytes addr b.buffers.length b.seq bs))

-- the steps of a packet (R474)

/-- The record of a command (R484). -/
def cmdResult (o : Cmd) (c : Cause) (v : Nat) : CmdResult :=
  ⟨o.tag, BitVec.ofNat 8 o.op, c, o.seq, BitVec.ofNat 64 v, o.irq⟩

/-- The command completes, and dispatch goes on. -/
def State.complete (s : State) (o : Cmd) (c : Cause) (v : Nat) : State :=
  (s.modBc fun b => { b with stage := 0 }).finishCommand (cmdResult o c v)

/-- The command has started and runs on. -/
def State.started (s : State) (o : Cmd) (grid : BitVec 32) (w : CmdWait) : State :=
  s.modBc fun b => { b with
    stage := 0
    active := b.active ++ [⟨o.seq, o.tag, BitVec.ofNat 8 o.op, o.irq, grid, w⟩] }

/-- R474: every earlier command has completed, but for the IBUFs that enclose this packet. -/
def BaseCamp.earlierDone (b : BaseCamp) : Bool :=
  b.done == [] && b.active.all fun a => b.buffers.any fun x => x.seq == a.seq

/-- Step 2: the wait on the semaphore is over. -/
def State.semPassed (s : State) (o : Cmd) : Except Cause (State × Bool) :=
  if o.sem = 0 then .ok (s, true)
  else if o.sem.toNat % 8 ≠ 0 then .error .commandMalformed
  else
    match s.campWord o.sem with
    | .error _ => .error .commandFault
    | .ok (s1, v) => .ok (s1, decide (o.semval.toNat ≤ v.toNat))

/-- Step 3: a bound operand is replaced (R475). -/
def State.bindOperand (s : State) (o : Cmd) (k : Nat) : Except Cause (State × Cmd) :=
  if !o.bound k then .ok (s, o)
  else if (o.operand k).toNat % 8 ≠ 0 then .error .boundFieldFault
  else
    match s.campWord (o.operand k) with
    | .error _ => .error .boundFieldFault
    | .ok (s1, v) => .ok (s1, o.setOperand v k)
def State.bindOperands (s : State) (o : Cmd) : Except Cause (State × Cmd) :=
  [0, 1, 2, 3, 4].foldl (fun acc k => match acc with
    | .error c => .error c
    | .ok (s, o) => s.bindOperand o k) (.ok (s, o))

/-- What a command adds to the steps: the operands that it has, its own checks, whether its class asks that every earlier
command has completed (R483), whether it can start now, its effect. -/
structure CmdRules where
  operands : Nat
  check : Cmd → State → Except Cause State
  waits : Bool
  can : Cmd → State → Bool
  start : Cmd → State → State

/-- R477: the checks of every packet. -/
def cmdFormBad (o : Cmd) (k : CmdRules) : Bool :=
  0x0A < o.op || 3 < o.dclass || o.dw0.extractLsb' 18 14 != 0 || !o.zeroFrom k.operands

/-- R483: a command of a class is admitted. -/
def CmdRules.admitted (k : CmdRules) (o : Cmd) (s : State) : Bool :=
  (!(o.fence || k.waits) || s.bc.earlierDone) && k.can o s

/-- Step 6. -/
def CmdRules.tryStart (k : CmdRules) (o : Cmd) (s : State) (again : Instr) : State :=
  if (!o.fence || s.bc.earlierDone) && k.can o s then k.start o s else s.post again

/-- Steps 4 to 6 of an unbound packet: it is dequeued, checked, and admitted or rejected. -/
def CmdRules.accept (k : CmdRules) (o : Cmd) (s0 : State) (again : Instr) : State :=
  let s := s0.modBc BaseCamp.dequeued
  if cmdFormBad o k then s.complete o .commandMalformed 0
  else
    match k.check o s with
    | .error c => s.complete o c 0
    | .ok s1 =>
      if o.dclass ≠ 0 ∧ !k.admitted o s1 then s1.complete o .deadlineReject 0
      else k.tryStart o (s1.modBc fun b => { b with stage := 6 }) again

/-- R474: a packet's steps from the second on; it comes again while it waits. A halted queue starts nothing (R480, R518). -/
def State.runCommand (s : State) (o : Cmd) (mk : Cmd → Instr) (k : CmdRules) : State :=
  if s.commitsHold || s.bc.stop.isSome then s.post (mk o)
  else if s.bc.stage = 6 then k.tryStart o s (mk o)
  else if s.bc.stage ≠ 2 then s
  else
    match s.semPassed o with
    | .error c => (s.modBc BaseCamp.dequeued).complete o c 0
    | .ok (s1, false) => s1.post (mk o)
    | .ok (s1, true) =>
      match s1.bindOperands o with
      | .error c => (s1.modBc BaseCamp.dequeued).complete o c 0
      | .ok (s2, o1) => k.accept o1 s2 (mk o1)

def noCheck (_ : Cmd) (s : State) : Except Cause State := .ok s
def canAlways (_ : Cmd) (_ : State) : Bool := true
/-- A test of R477. -/
def malformedIf (b : Bool) (s : State) : Except Cause State := if b then .error .commandMalformed else .ok s

-- the small commands

def nopRules : CmdRules := ⟨0, noCheck, false, canAlways, fun o s => s.complete o .none 0⟩
def execNopCommand (o : Cmd) (s : State) : Out := .next (s.runCommand o .nopCommand nopRules)
/-- SEMWAIT (R476): the wait of step 2 alone. -/
def execSemwait (o : Cmd) (s : State) : Out := .next (s.runCommand o .semwait nopRules)

/-- SEMSIG: the semaphore is set, or added to. A set reads nothing. -/
def State.signal (s : State) (ptr value : Dword) (add : Bool) : State × Cause :=
  let put (s : State) (x : Dword) : State × Cause :=
    match s.campWrite s.bc.qroot ptr (natBytes 8 x.toNat) with
    | (s1, _, some _) => (s1, .commandFault)
    | (s1, _, none) => (s1, .none)
  if add then
    match s.campWord ptr with
    | .error _ => (s, .commandFault)
    | .ok (s1, v) => put s1 (v + value)
  else put s value

/-- SEMSIG starts: it signals, or waits beside the packets behind it for the earlier commands (R476). -/
def State.startSignal (s : State) (o : Cmd) : State :=
  if s.bc.earlierDone then
    let (s1, c) := s.signal o.dw3 o.dw4 (o.dw5.getLsbD 0)
    s1.complete o c 0
  else s.started o 0 (.signal o.dw3 o.dw4 (o.dw5.getLsbD 0) (s.bc.buffers.map Buffer.seq))

/-- A SEMSIG whose earlier commands have all completed signals. -/
def State.tendSignals (s : State) : State :=
  if s.commitsHold then s
  else s.bc.active.foldl (fun s a =>
    match a.wait with
    | .signal ptr value add around =>
      if s.bc.active.any (fun x => decide (x.seq < a.seq) && !around.contains x.seq)
          || s.bc.done.any (fun d => decide (d.1.seq < a.seq)) then s
      else
        let (s1, c) := s.signal ptr value add
        s1.finishActive a c 0
    | _ => s) s

def semsigRules : CmdRules :=
  ⟨3, fun o s => malformedIf (o.dw3.toNat % 8 != 0 || 1 < o.dw5.toNat) s, true, canAlways, fun o s => s.startSignal o⟩
def execSemsig (o : Cmd) (s : State) : Out := .next (s.runCommand o .semsig semsigRules)

/-- TIMESTAMP (R476): the rack time count is written. -/
def timestampRules : CmdRules :=
  ⟨1, fun o s => malformedIf (o.dw3.toNat % 8 != 0) s, false, canAlways, fun o s =>
    match s.campWrite s.bc.qroot o.dw3 (natBytes 8 (s.rackTime s.rackHolder)) with
    | (s1, _, some _) => s1.complete o .commandFault 0
    | (s1, _, none) => s1.complete o .none (s.rackTime s.rackHolder)⟩
def execTimestamp (o : Cmd) (s : State) : Out := .next (s.runCommand o .timestamp timestampRules)

/-- HOSTCOPY: bytes copied upward, piece by piece; false when an access faulted. -/
def copyBytes : Nat → State → Dword → Dword → Nat → State × Bool
  | 0, s, _, _, _ => (s, true)
  | k + 1, s, src, dst, n =>
    if n = 0 then (s, true)
    else
      let m := min n (128 - src.toNat % 128)
      match s.campRead s.bc.qroot src m with
      | .error _ => (s, false)
      | .ok (s1, bs) =>
        match s1.campWrite s1.bc.qroot dst bs with
        | (s2, _, some _) => (s2, false)
        | (s2, _, none) => copyBytes k s2 (src + BitVec.ofNat 64 m) (dst + BitVec.ofNat 64 m) (n - m)
def hostcopyRules : CmdRules :=
  ⟨3, fun o s => malformedIf (decide (2 ^ 40 ≤ o.dw5.toNat)) s, false, canAlways, fun o s =>
    match copyBytes (o.dw5.toNat / 128 + 2) s o.dw3 o.dw4 o.dw5.toNat with
    | (s1, ok) => s1.complete o (if ok then .none else .commandFault) 0⟩
def execHostcopy (o : Cmd) (s : State) : Out := .next (s.runCommand o .hostcopy hostcopyRules)

-- IBUF (R480)

/-- The buffer of an IBUF meets the ring or a buffer of its own chain. -/
def BaseCamp.selfRef (b : BaseCamp) (base len : Nat) : Bool :=
  meets b.qbase (64 * 2 ^ b.qsize) base len || b.buffers.any fun x => meets x.base (64 * x.count) base len

def State.startBuffer (s : State) (o : Cmd) : State :=
  let base := o.dw3.toNat
  let n := o.dw4.toNat
  if 4 ≤ o.depth then s.modBc fun b => b.halted (.ibuf o .ibNestDepth) .ibNestDepth o.seq o.addr
  else if s.bc.selfRef base (64 * n) then
    s.modBc fun b => b.halted (.ibuf o .ibSelfReference) .ibSelfReference o.seq o.addr
  else (s.started o 0 (.buffer none)).modBc fun b => { b with buffers := ⟨base, n, 0, o.seq⟩ :: b.buffers }
def ibufRules : CmdRules :=
  ⟨2, fun o s => malformedIf (o.dw3.toNat % 64 != 0 || o.dw4 == 0 || decide (2 ^ 20 < o.dw4.toNat)) s, false, canAlways,
    fun o s => s.startBuffer o⟩
def execIbuf (o : Cmd) (s : State) : Out := .next (s.runCommand o .ibuf ibufRules)

/-- R476: IBUFs whose commands have all completed are complete. -/
def State.tendBuffers (s : State) : State :=
  s.bc.active.foldl (fun s a =>
    match a.wait with
    | .buffer (some last) =>
      if s.bc.active.any (fun x => decide (a.seq < x.seq) && decide (x.seq < last))
          || s.bc.done.any (fun d => decide (a.seq < d.1.seq) && decide (d.1.seq < last)) then s
      else s.finishActive a .none 0
    | _ => s) s

-- completion records (R484)

def recordBytes (r : CmdResult) (time : Nat) : List Byte :=
  natBytes 4 r.tag.toNat ++ natBytes 1 r.op.toNat ++ natBytes 1 (causeCode r.cause).toNat ++ [0, 0]
    ++ natBytes 8 r.seq ++ natBytes 8 time ++ natBytes 8 r.result.toNat

/-- The record at the head of the completed commands is written. A write that faults halts the queue (R518); while the queue
is halted for another reason the write is tried again. -/
def State.writeRecord (s : State) (r : CmdResult) (time : Nat) : State :=
  let b := s.bc
  let at_ := b.cqbase + 32 * (b.cqtail % 2 ^ b.cqsize)
  match s.campWrite b.qroot (BitVec.ofNat 64 at_) (recordBytes r time) with
  | (s1, _, some _) =>
    if b.stop.isSome then s1.post (.commandCompletion r)
    else s1.modBc fun x => { x with
      state := 2
      stop := some .record
      qerr := causeCode .commandFault
      qerrSeq := r.seq % 2 ^ 64
      qerrAddr := at_ % 2 ^ 56 }
  | (s1, _, none) =>
    let s2 := s1.modBc fun x => { x with
      cqtail := (x.cqtail + 1) % 2 ^ 32
      done := x.done.drop 1
      active := x.active.filter fun a => a.seq != r.seq }
    if r.irq then { s2 with msix := s2.msix ++ [0] } else s2

def execCommandCompletion (o : CmdResult) (s : State) : Out :=
  match s.bc.done with
  | [] => .next s
  | (r, time) :: rest =>
    if r ≠ o then .next (if rest.any fun d => d.1 == o then s.post (.commandCompletion o) else s)
    else if s.bc.stop = some .record then .next s
    else if !s.bc.recordRoom || s.commitsHold then .next (s.post (.commandCompletion o))
    else .next ((s.writeRecord r time).tendBuffers.tendSignals).dispatch

/-- A write of SKIP (R480, R518): the halted queue goes on past what halted it. -/
def State.skipHalt (s : State) : State :=
  let go (b : BaseCamp) : BaseCamp := { b with stop := none, state := if b.en then 1 else 0 }
  match s.bc.stop with
  | none => s
  | some (.ibuf o c) => ((s.modBc go).finishCommand (cmdResult o c 0)).dispatch
  | some (.packet seq) => (((s.modBc go).modBc BaseCamp.dequeued).finishCommand ⟨0, 0xFF, .commandFault, seq, 0, false⟩).dispatch
  | some .record =>
    match s.bc.done with
    | [] => s.modBc go
    | (r, _) :: _ => (s.modBc go).post (.commandCompletion r)

end

end Sys2Proof.Machine
end

