-- ==== Sys2Proof/Machine/CampGrid.lean ====
section
/-!
DEFINITION. Machine/CampGrid.lean: the commands that act on grids: LAUNCH (R386, R476), PREEMPT and RESUME (R410, R479), DEBUG
(R478).
-/

namespace Sys2Proof.Machine

noncomputable section

-- LAUNCH

/-- R476: an address-space root named by an operand; 0 names QROOT. -/
def State.rootOf (s : State) (v : Dword) : Nat := if v = 0 then s.bc.qroot else v.toNat
/-- R471: a root table lies where QROOT could name it. -/
def rootBad (v : Dword) : Bool := v.toNat % 65536 != 0 || decide (2 ^ 52 ≤ v.toNat)

/-- R381, R477: the checks of a LAUNCH, which read the header, its core set and its bins; what they read is the grid's. -/
def launchCheck (o : Cmd) (s : State) : Except Cause State :=
  if o.dw3.toNat % 64 ≠ 0 ∨ rootBad o.dw5 = true ∨ (s.grid? o.tag).isSome = true then .error .commandMalformed
  else
    match s.readHeader o.dw3 with
    | .error c => .error c
    | .ok (s1, h) => .ok (s1.modBc fun b => { b with taken := some h })

/-- R386: the free cores of CORESET let the grid start. -/
def launchCan (_ : Cmd) (s : State) : Bool := s.bc.taken.any s.canStart

/-- R476: a save area of `n` slots is mapped with W. -/
def State.saveMapped (s : State) (save : Dword) (n : Nat) : Bool :=
  (List.range n).all fun k => (s.slotFault (save + BitVec.ofNat 64 (k * 0xA00000))).isNone

/-- The acceptance and the start of a grid. -/
def launchStart (o : Cmd) (s : State) : State :=
  match s.bc.taken with
  | none => s
  | some h =>
    let s1 := s.modBc fun b => { b with taken := none }
    if !s1.saveMapped o.dw7 (s1.participants h).length then s1.complete o .commandMalformed 0
    else (s1.startGrid o.tag h o.dw4 (s1.rootOf o.dw5) o.dw6 o.dw7).started o o.tag .launch

def launchRules : CmdRules := ⟨5, launchCheck, false, launchCan, launchStart⟩
def execLaunch (o : Cmd) (s : State) : Out := .next (s.runCommand o .launch launchRules)

-- the grid and the cores that a command names

def cmdGrid (o : Cmd) : BitVec 32 := o.dw3.setWidth 32

/-- R260: the core-set bitmap of an operand; none for 0. -/
def State.coreSet (s : State) (ptr : Dword) : Except Cause (State × Option (List Nat)) :=
  if ptr = 0 then .ok (s, none)
  else
    match s.campRead s.bc.qroot ptr bitmapBytes with
    | .error _ => .error .commandFault
    | .ok (s1, bs) => .ok (s1, some (bitmapCores bs))

/-- R477: the checks that PREEMPT, RESUME and DEBUG share; `part` says that the core-set form needs a MOVABLE grid. -/
def gridCheck (part : Bool) (o : Cmd) (s : State) : Except Cause State :=
  match s.grid? (cmdGrid o) with
  | none => .error .commandMalformed
  | some g =>
    if o.dw3.extractLsb' 32 32 ≠ 0 ∨ (part = true ∧ o.dw4 ≠ 0 ∧ g.hdr.movable = false) then .error .commandMalformed
    else
      match s.coreSet o.dw4 with
      | .error c => .error c
      | .ok (s1, _) => .ok s1

/-- The effect of such a command, with its grid and its cores. -/
def withGrid (f : Cmd → State → Grid → Option (List Nat) → State) (o : Cmd) (s : State) : State :=
  match s.coreSet o.dw4 with
  | .error c => s.complete o c 0
  | .ok (s1, cs) =>
    match s1.grid? (cmdGrid o) with
    | none => s1.complete o .commandMalformed 0
    | some g => f o s1 g cs

/-- The parties of a grid on their cores, in ascending core order, that a set names. -/
def State.partiesOf (s : State) (g : Grid) (cs : Option (List Nat)) : List (Nat × Party) :=
  s.parties.filter fun (c, p) => p.grid == g.tag && (match cs with | none => true | some l => l.contains c)

-- PREEMPT (R410, R479)

/-- A party that a PREEMPT suspends. -/
def Party.preemptable (p : Party) : Bool := p.status == .running || p.status == .debugHalt || p.status == .saving

/-- The cores that a PREEMPT acts on, each with the other members of its rope. -/
def State.preempted (s : State) (g : Grid) (cs : Option (List Nat)) : List Nat :=
  let named := (s.partiesOf g cs).filter fun (_, p) => p.preemptable
  let all := named.flatMap fun (c, p) =>
    (ropeCores p.rope c).filter fun d => d == c || (s.party? d).any fun q =>
      q.grid == g.tag && q.rope == p.rope && p.rope != 0 && q.preemptable
  all.eraseDups

def preemptStart (o : Cmd) (s : State) (g : Grid) (cs : Option (List Nat)) : State :=
  let cores := s.preempted g cs
  if cores = [] then s.complete o .none 0
  else
    let s1 := s.modGrid g.tag fun g => match cs with
      | none => { g with whole := true }
      | some _ => { g with withdrawn := (g.withdrawn ++ cores).eraseDups }
    let ids := cores.filterMap fun c => (s.party? c).map Party.index
    let s2 := cores.foldl (fun s c => if (s.party? c).any fun p => p.status == .saving then s else s.beginSave c) s1
    s2.started o g.tag (.saves ids 0)

def preemptRules : CmdRules := ⟨2, gridCheck true, false, canAlways, withGrid preemptStart⟩
def execPreempt (o : Cmd) (s : State) : Out := .next (s.runCommand o .preempt preemptRules)

/-- R476: PREEMPTs whose contexts are saved complete; a party that halted instead is not counted. -/
def State.tendSaves (s : State) : State :=
  s.bc.active.foldl (fun s a =>
    match a.wait with
    | .saves ids n =>
      let isSaving (i : Nat) : Bool := (s.partyOf a.grid i).any fun p => p.status == .saving
      let isLost (i : Nat) : Bool := (s.partyOf a.grid i).all fun p => p.status == .halting
      let n1 := n + (ids.filter fun i => !isSaving i && !isLost i).length
      let left := ids.filter isSaving
      if left = [] then s.finishActive a .none n1
      else s.modBc fun b => { b with
        active := b.active.map fun x => if x.seq = a.seq then { x with wait := .saves left n1 } else x }
    | _ => s) s

-- RESUME (R410, R412, R479)

/-- A core that may take a suspended party. -/
def State.takesParty (s : State) (core : Nat) : Bool :=
  (s.party? core).isNone && (s.pkg (pkgOfCore core)).ready && !s.fenced.contains (dieOfCore core) && core < 72 * 256

/-- The suspended parties of a grid. -/
def State.parkedOf (s : State) (g : Grid) : List Parked := s.saved.filter fun k => k.party.grid == g.tag

/-- A core that a RESUME may make a compute core of a MOVABLE grid (R410, R476): one that the command names, or without a set
one that the launch named. -/
def State.joinable (s : State) (g : Grid) (named : Bool) (core : Nat) : Bool :=
  g.compute.contains core
    || ((named || g.hdr.named.contains core) && !g.hdr.reserves core && (s.pkg (pkgOfCore core)).ready)

/-- Where a MOVABLE grid's unit resumes: on its own cores if they take it, else among the cores given. -/
def State.placeUnit (s : State) (cores : List Nat) (u : MoveUnit) : Option (List Nat) :=
  let free (c : Nat) : Bool := cores.contains c && s.takesParty c
  if u.cores.all free then some u.cores else placeAmong free cores u

/-- A unit resumes on some cores, which join the grid. -/
def State.resumeUnit (s : State) (tag : BitVec 32) (u : MoveUnit) (cs : List Nat) : State :=
  let s1 := s.modGrid tag fun g => { g with
    compute := g.compute ++ cs.filter fun c => !g.compute.contains c
    withdrawn := g.withdrawn.filter fun c => !cs.contains c }
  (u.cores.zip cs).foldl (fun s (k, c) => s.restore k c tag) s1

/-- Suspended compute units in the order of R412, as far as the cores take them. -/
def resumeUnits (tag : BitVec 32) (cores : List Nat) : Nat → State → State
  | 0, s => s
  | k + 1, s =>
    match s.grid? tag with
    | none => s
    | some g =>
      let able := (s.parkedUnits g).filter fun u => (s.placeUnit cores u).isSome
      match lowestUnit able with
      | none => s
      | some u =>
        match s.placeUnit cores u with
        | none => s
        | some cs => resumeUnits tag cores k (s.resumeUnit tag u cs)

/-- The cores that a RESUME of a MOVABLE grid may use. -/
def State.resumeCores (s : State) (g : Grid) (cs : Option (List Nat)) : List Nat :=
  let l := match cs with
    | none => g.compute ++ rackCores.filter fun c => !g.compute.contains c
    | some l => l
  l.filter (s.joinable g cs.isSome)

/-- R410: the cores that a RESUME of the whole grid needs are free. -/
def State.resumeFree (s : State) (g : Grid) : Bool :=
  let parked := s.parkedOf g
  if !g.hdr.movable then parked.all fun k => s.takesParty k.core
  else
    parked.all (fun k => !k.party.collective || s.takesParty k.core)
      && (parked.all (fun k => k.party.collective) || (s.parkedUnits g).any fun u => (s.placeUnit (s.resumeCores g none) u).isSome)

/-- R410: a RESUME waits for parties that are still being saved, so that a grid resumes whole, and for its cores. -/
def resumeCan (o : Cmd) (s : State) : Bool :=
  match s.grid? (cmdGrid o) with
  | none => true
  | some g => !(s.partiesOf g none).any (fun (_, p) => p.status == .saving) && (o.dw4 != 0 || s.parkedOf g == [] || s.resumeFree g)

/-- R391, R414: the ranges of dies on which no compute party runs any more return. -/
def State.returnRanges (s : State) (tag : BitVec 32) : State :=
  match s.grid? tag with
  | none => s
  | some g => ((g.ranges.map Prod.fst) ++ (g.edges.map Prod.fst)).eraseDups.foldl (fun s d => s.returnRange tag d) s

def resumeStart (o : Cmd) (s : State) (g : Grid) (cs : Option (List Nat)) : State :=
  if s.parkedOf g = [] then s.complete o .none 0
  else
    let fits (k : Parked) : Bool := match cs with | none => true | some l => l.contains k.core && s.takesParty k.core
    let s0 := s.modGrid g.tag fun g => match cs with
      | none => { g with withdrawn := [] }
      | some _ => g
    let own := (s.parkedOf g).filter fun k => (k.party.collective || !g.hdr.movable) && fits k
    let s1 := own.foldl (fun s k => s.restore k.core k.core g.tag) s0
    let s2 := if g.hdr.movable then resumeUnits g.tag (s1.resumeCores g cs) (s1.saved.length) s1 else s1
    let s3 := if s2.saved.length < s.saved.length then s2.modGrid g.tag fun g => { g with whole := false } else s2
    ((s3.returnRanges g.tag).rebalance g.tag).complete o .none 0

def resumeRules : CmdRules := ⟨2, gridCheck true, false, resumeCan, withGrid resumeStart⟩
def execResume (o : Cmd) (s : State) : Out := .next (s.runCommand o .resume resumeRules)

-- DEBUG (R478, R509)

def debugCheck (o : Cmd) (s : State) : Except Cause State :=
  let resume := o.dw5.getLsbD 0
  if 8 ≤ o.dw5.toNat ∨ (o.dw5.getLsbD 2 = true ∧ resume = false) ∨ (o.dw5.getLsbD 1 = true ∧ resume = true) then
    .error .commandMalformed
  else gridCheck false o s

/-- A suspended party of the grid changed. -/
def State.modParked (s : State) (tag : BitVec 32) (index : Nat) (f : Party → Party) : State :=
  { s with saved := s.saved.map fun (k : Parked) =>
      if k.party.grid == tag && k.party.index == index then { k with party := f k.party } else k }

/-- ACTION 0: running parties are asked to halt; a suspended one halts when it resumes. -/
def debugHaltStart (o : Cmd) (s : State) (g : Grid) (cs : Option (List Nat)) : State :=
  let all := o.dw5.getLsbD 1
  let here := (s.partiesOf g cs).filter fun (_, p) => p.status == .running
  let going := (s.partiesOf g cs).filter fun (_, p) => p.status == .saving && !p.dbg && p.dbgWant.isNone
  let away := if cs = none then (s.parkedOf g).filter fun k => !k.party.dbg && k.party.dbgWant.isNone else []
  let s1 := here.foldl (fun s (c, _) => s.post (.debugHalt ⟨c, all, .none⟩)) s
  let s2 := (here ++ going).foldl (fun s (c, _) => s.modParty c fun p => { p with dbgWant := some all }) s1
  let s3 := away.foldl (fun s k => s.modParked g.tag k.party.index fun p => { p with dbgWant := some all }) s2
  let ids := here.map fun (_, p) => p.index
  (s3.started o g.tag (.halts ids (here.length + going.length + away.length))).tendHalts

/-- ACTION 1: debug-halted parties go on. -/
def debugResumeStart (o : Cmd) (s : State) (g : Grid) (cs : Option (List Nat)) : State :=
  let step := o.dw5.getLsbD 2
  let here := (s.partiesOf g cs).filter fun (_, p) => p.dbg && (p.status == .debugHalt || p.status == .saving)
  let away := if cs = none then (s.parkedOf g).filter fun k => k.party.dbg else []
  let s1 := here.foldl (fun s (c, _) => s.debugResume c step) s
  let s2 := away.foldl (fun s k => s.modParked g.tag k.party.index (·.undoDebug step)) s1
  s2.complete o .none (here.length + away.length)

def debugRules : CmdRules :=
  ⟨3, debugCheck, false, canAlways, fun o s =>
    withGrid (if o.dw5.getLsbD 0 then debugResumeStart else debugHaltStart) o s⟩
def execDebugCmd (o : Cmd) (s : State) : Out := .next (s.runCommand o .debugCmd debugRules)

end

end Sys2Proof.Machine
end

