-- ==== Sys2Proof/Machine/CampMap.lean ====
section
/-!
DEFINITION. Machine/CampMap.lean: MAPUPDATE (R234, R419, R476, R481): the group descriptors of the windows that it maps, the
translations that it ends, the faults that it serves or declares fatal.
-/

namespace Sys2Proof.Machine

noncomputable section

-- group descriptors (R417-R419)

/-- The 32 bytes of a descriptor at a physical address; none outside HBM. -/
def State.descriptorPiece (s : State) (pa : Nat) : Option (List Byte) :=
  match s.resolve pa with
  | none => none
  | some r => if resOff r < hbmBytes then some ((List.range 32).map fun i => s.readByte (r + i)) else none

/-- R418, R419: a member entry keeps the rules of a window of a page size. -/
def State.memberOk (s : State) (size : Nat) (bs : List Byte) : Bool :=
  let base := fieldAt bs 0 8
  let limit := fieldAt bs 8 8
  let kind := fieldAt bs 0x12 1
  fieldAt bs 0x13 1 == 0 && fieldAt bs 0x18 8 == 0 && kind ≤ 1 && base % 128 == 0 && (kind == 0 || decide (base < 2 ^ 32))
    && limit % 128 == 0 && limit ≤ size && fieldAt bs 0x10 2 < 18432 && fieldAt bs 0x14 4 % 16 == 0
    && (kind == 1 || (List.range ((limit + 65535) / 65536 + 1)).all fun k =>
        limit == 0 || (s.resolve (base + min (65536 * k) (limit - 1))).isSome)

/-- R419: the descriptor that a leaf with MCAST = 1 names is well formed. -/
def State.descriptorOk (s : State) (level : Nat) (e : Dword) : Bool :=
  match s.descriptorPiece (ptePa e) with
  | none => false
  | some head =>
    let n := fieldAt head 0 2
    1 ≤ n && n ≤ 4096 && (head.drop 2).all (· == 0)
      && (List.range n).all fun r => (s.descriptorPiece (ptePa e + 32 + 32 * r)).any (s.memberOk (2 ^ pageBits level))

/-- The leaves that the tables hold for a range of addresses, from a table of a level down. -/
def State.leavesIn (s : State) (lo n : Nat) : Nat → Nat → Nat → List (Nat × Dword)
  | 0, table, base =>
    (List.range 1024).filterMap fun i =>
      let va := base + i * 2 ^ pageBits 0
      if !meets va (2 ^ pageBits 0) lo n then none
      else match s.walkEntry s.campUp table va 0 with
        | .leaf e _ => some (0, e)
        | _ => none
  | k + 1, table, base =>
    (List.range 1024).flatMap fun i =>
      let va := base + i * 2 ^ pageBits (k + 1)
      if !meets va (2 ^ pageBits (k + 1)) lo n then []
      else match s.walkEntry s.campUp table va (k + 1) with
        | .leaf e _ => [(k + 1, e)]
        | .table t => s.leavesIn lo n k t va
        | .fail _ => []

-- the command

/-- R476: the pages of a live grid's save area that a range meets are mapped with W. -/
def State.saveKept (s : State) (root lo n : Nat) : Bool :=
  root != s.bc.qroot || s.grids.all fun (_, g) =>
    (List.range ((g.parts + g.colls.length) * 160 + 1)).all fun k =>
      let at_ := g.save.toNat / 65536 * 65536 + 65536 * k
      !meets at_ 65536 lo n || !meets at_ 65536 g.save.toNat ((g.parts + g.colls.length) * 0xA00000)
        || (match s.campAt root (BitVec.ofNat 64 at_) true with | .ok _ => true | .error _ => false)

def mapCheck (o : Cmd) (s : State) : Except Cause State :=
  let root := s.rootOf o.dw5
  malformedIf (decide (4 ≤ o.dw6.toNat) || (o.dw6.getLsbD 0 && o.dw6.getLsbD 1) || rootBad o.dw5
    || !s.saveKept root o.dw3.toNat o.dw4.toNat
    || (s.leavesIn o.dw3.toNat o.dw4.toNat 3 root 0).any fun (level, e) => pteMcast e && !s.descriptorOk level e) s

/-- R234: no translation of the range, and no line under one, is left; what is being read under one becomes no copy. -/
def State.endTranslations (s : State) (root lo n : Nat) : State :=
  { s with
    tlb := s.tlb.filter fun (t : TlbEntry) =>
      !(t.root == root && meets (t.vpn * 2 ^ pageBits t.level) (2 ^ pageBits t.level) lo n)
    walkFails := s.walkFails.filter fun (f : WalkFail) => !(f.root == root && meets (f.page * 65536) 65536 lo n)
    parties := s.parties.map fun (c, p) => (c, if p.root != root then p else
      { p with accesses := p.accesses.map fun (a : Access) =>
        if a.step = .active ∧ a.parts.any (fun q => meets (q.addr.toNat % 2 ^ 56) 16 lo n) = true then { a with noFill := true } else a })
    cores := s.cores.map fun (c, k) =>
      (c, { k with l1 := k.l1.filter fun (l : L1Line) => !(l.root == root && meets (l.va * 128) 128 lo n) }) }

/-- R481: the fault-ring entries of the range are served, or are fatal. -/
def State.answerFaults (s : State) (root lo n : Nat) (fatal : Bool) : State :=
  let mine := s.bc.faults.filter fun f =>
    f.ringed && meets f.va.toNat 1 lo n && (s.partyOf f.grid f.index).any fun p => p.root == root
  mine.foldl (fun s f => if fatal then s.failFault f else s.serveFault f) s

def mapStart (o : Cmd) (s : State) : State :=
  let root := s.rootOf o.dw5
  let s1 := s.endTranslations root o.dw3.toNat o.dw4.toNat
  let s2 := if o.dw6.getLsbD 0 then s1.answerFaults root o.dw3.toNat o.dw4.toNat false
    else if o.dw6.getLsbD 1 then s1.answerFaults root o.dw3.toNat o.dw4.toNat true
    else s1
  s2.complete o .none 0

def mapRules : CmdRules := ⟨4, mapCheck, false, canAlways, mapStart⟩
def execMapupdate (o : Cmd) (s : State) : Out := .next (s.runCommand o .mapupdate mapRules)

end

end Sys2Proof.Machine
end

