-- ==== Sys2Proof/Machine/Owner.lean ====
section
/-!
DEFINITION. Machine/Owner.lean: host writes of registers (R471, R489), the management mailbox (R490, R491), ownership (R488,
R489), firmware (R492, R493), attestation (R494).
-/

namespace Sys2Proof.Machine

noncomputable section

-- register writes (R471)

/-- R471, R489: who may write registers: a strand of a privileged grid, and of the hosts the owner. -/
def State.mayWrite (s : State) (h : HostId) : Bool :=
  match h with
  | .device _ => true
  | h => s.own.owner.any fun c => c.host == h

/-- A register write by one who may make it, with what Base Camp then does. -/
def regEffect (o : RegWrite) (off : Nat) (s : State) : State :=
  if !s.mayWrite o.host then s
  else
    let s1 := s.regStore o.pkg off o.value
    if off = 0x080 then s1.tendRing else s1.dispatch

def execQtailWrite (o : RegWrite) (s : State) : Out := .next (regEffect o 0x010 s)
def execQbaseWrite (o : RegWrite) (s : State) : Out := .next (regEffect o 0x000 s)
def execQctlEn (o : RegWrite) (s : State) : Out := .next (regEffect o 0x028 s)
/-- R471, R480, R518: SKIP. -/
def execQctlSkip (o : RegWrite) (s : State) : Out :=
  if s.mayWrite o.host && o.value.getLsbD 1 then .next s.skipHalt else .next s
def execCqheadWrite (o : RegWrite) (s : State) : Out := .next (regEffect o 0x060 s)
def execFqheadWrite (o : RegWrite) (s : State) : Out := .next (regEffect o 0x080 s)
def execCohparamWrite (o : RegWrite) (s : State) : Out := .next (regEffect o 0x100 s)
/-- HOLD0 and HOLD1. -/
def execHoldWrite (o : RegWrite) (s : State) : Out := .next (regEffect o (if o.off = 0x110 then 0x110 else 0x108) s)

-- the mailbox (R490, R491)

/-- The package whose host die serves a host. -/
def hostPkg : HostId → Option Nat
  | .pcie p _ => some p
  | .app p => some p
  | .device _ => none
/-- The number of a mailbox copy. -/
def copyNum : HostId → Nat
  | .pcie p n => 3 * p + n % 2
  | .app p => 3 * p + 2
  | .device _ => 0
/-- The link over which Base Camp reads a host's memory. -/
def hostLink : HostId → Nat
  | .pcie p n => 2 * p + n % 2
  | .app p => 2 * p
  | .device _ => 0

def mailGet (l : List (HostId × Mailbox)) (h : HostId) : Option Mailbox := (l.find? fun x => x.1 == h).map Prod.snd
def State.mailbox (s : State) (h : HostId) : Mailbox := (mailGet s.mailboxes h).getD ⟨false, 0, 0, 0, [], []⟩
def State.setMailbox (s : State) (h : HostId) (m : Mailbox) : State :=
  { s with mailboxes := s.mailboxes.filter (fun x => x.1 != h) ++ [(h, m)] }
/-- Bytes of DATAIN. -/
def State.mailData (s : State) (h : HostId) (off n : Nat) : List Byte :=
  (List.range n).map fun i => sget 0 (s.mailbox h).dataIn (off + i)

/-- The request of the mailbox is done: its status and data stand, MSI-X vector 2 is signalled, the next copy is served. -/
def State.mailDone (s : State) (h : HostId) (result : BitVec 8) (out : List Byte) : State :=
  let m := s.mailbox h
  let d := if result = 0 then out else []
  { s.setMailbox h { m with
      busy := false
      result := result
      outLen := d.length
      dataOut := if result = 0 then d else m.dataOut } with
    mailQ := s.mailQ.erase h
    msix := s.msix ++ [2] }

/-- R491: what a host reads at an offset of its copy of the mailbox. -/
def State.mailByte (s : State) (h : HostId) (o : Nat) : Byte :=
  let m := s.mailbox h
  let status := m.busy.toNat + m.result.toNat * 2 ^ 8 + m.outLen * 2 ^ 32
  if 0x008 ≤ o ∧ o < 0x010 then BitVec.ofNat 8 (status / 2 ^ (8 * (o - 0x008)))
  else if 0x010 ≤ o ∧ o < 0x030 then ((padTo 32 (Config.challenge (copyNum h) m.challenge))[o - 0x010]?).getD 0
  else if 0x100 ≤ o ∧ o < 0x500 then sget 0 m.dataIn (o - 0x100)
  else if 0x800 ≤ o ∧ o < 0x1000 then (m.dataOut[o - 0x800]?).getD 0
  else 0

/-- R489, R491: the byte that a host reads at an offset of its package's MMIO region; a read changes nothing. -/
def State.hostRegByte (s : State) (h : HostId) (pkg o : Nat) : Byte :=
  if 0x1000 ≤ o ∧ o < 0x2000 then (if hostPkg h = some pkg then s.mailByte h (o - 0x1000) else 0) else s.mmioByte pkg o

/-- R490: the request of a code. -/
def mailEvent (code : Nat) (h : HostId) : Option Instr :=
  match code with
  | 1 => some (.claim ⟨h⟩)
  | 2 => some (.handover ⟨h⟩)
  | 3 => some (.releaseOwner ⟨h⟩)
  | 4 => some (.loadFw ⟨h⟩)
  | 5 => some (.stageFw ⟨h⟩)
  | 6 => some (.switchFw ⟨h⟩)
  | 7 => some (.attest ⟨h⟩)
  | 8 => some (.retrain ⟨h⟩)
  | _ => none

/-- R491: a write of 8 bytes to the block of a host's copy. -/
def State.mailWrite (s : State) (h : HostId) (off : Nat) (v : Dword) : State :=
  let m := s.mailbox h
  if m.busy then s
  else if off = 0 then
    let s1 := { s.setMailbox h { m with busy := true } with mailQ := s.mailQ ++ [h] }
    match mailEvent (v.toNat % 256) h with
    | some e => s1.post e
    | none => s1.mailDone h 5 []
  else if 0x100 ≤ off ∧ off < 0x500 ∧ off % 8 = 0 then
    s.setMailbox h { m with dataIn := scratchWrite m.dataIn (off - 0x100) (natBytes 8 v.toNat) }
  else s

/-- R471, R491: a write of 8 bytes to the register blocks. -/
def execRegisterWrite (o : RegWrite) (s : State) : Out :=
  if 0x1000 ≤ o.off ∧ o.off < 0x2000 then
    if hostPkg o.host = some o.pkg then .next (s.mailWrite o.host (o.off - 0x1000) o.value) else .next s
  else
    let s1 := regEffect o o.off s
    if o.off = 0x028 ∧ s.mayWrite o.host = true ∧ o.value.getLsbD 1 = true then .next s1.skipHalt else .next s1

/-- Requests are served one at a time, in order of arrival. `owner` and `ready` say who may make it and when. -/
def serveMail (h : HostId) (owner : Bool) (ready : Nat → State → Bool) (again : Instr) (f : Nat → State → State) (s : State) :
    Out :=
  if s.mailQ.head? ≠ some h then .next (if s.mailQ.contains h then s.post again else s)
  else
    match hostPkg h with
    | none => .next (s.mailDone h 1 [])
    | some p =>
      if owner && !s.own.owner.any (fun c => c.host == h) then .next (s.mailDone h 1 [])
      else if !ready p s then .next (s.mailDone h 6 [])
      else .next (f p s)

def whenReady (p : Nat) (s : State) : Bool := (s.pkg p).ready

-- ownership (R488, R489)

/-- Byte strings compared as big-endian numbers. -/
def bigEndian (bs : List Byte) : Nat := bs.foldl (fun n b => n * 256 + b.toNat) 0

/-- R489: the claim that wins. -/
def bestClaim (cs : List Claim) : Option Claim :=
  cs.foldl (fun acc c => match acc with
    | none => some c
    | some b => if b.prio < c.prio || (b.prio == c.prio && bigEndian c.ident < bigEndian b.ident) then some c else acc) none

def State.modOwn (s : State) (f : Ownership → Ownership) : State := { s with own := f s.own }

/-- A host becomes the owner; its standing claim is used up. -/
def State.setOwner (s : State) (c : Claim) : State :=
  let s1 := s.modOwn fun w => { w with owner := some c, claims := w.claims.filter fun x => x.host != c.host, since := none }
  if s1.own.down.any fun d => d.1 == c.host then s1.post .ownerLinkTimeout else s1

/-- Ownership ends; standing claims are collected from now on. -/
def State.loseOwner (s : State) : State :=
  let s1 := s.modOwn fun w => { w with owner := none, since := if w.claims = [] then none else some s.now }
  if s1.own.since.isSome then s1.post .claimWindowExpiry else s1

/-- R488: a claim is taken or refused. -/
def State.takeClaim (s : State) (h : HostId) : State :=
  let bs := s.mailData h 0 200
  let m := s.mailbox h
  let key := (bs.drop 0x20).take 64
  if bs.take 32 ≠ Config.sm3 key ∨ (bs.drop 0x81).take 7 ≠ zeros 7 then s.mailDone h 5 []
  else if (bs.drop 0x60).take 32 ≠ padTo 32 (Config.challenge (copyNum h) m.challenge) then s.mailDone h 3 []
  else if !Config.sm2Verify key bs then s.mailDone h 2 []
  else
    let c : Claim := ⟨h, bs.take 32, fieldAt bs 0x80 1⟩
    let s1 := s.setMailbox h { m with challenge := m.challenge + 1 }
    let first := s1.own.owner.isNone && s1.own.since.isNone
    let s2 := s1.modOwn fun w => { w with
      claims := w.claims.filter (fun x => x.host != h) ++ [c]
      since := if first then some s1.now else w.since }
    (if first then s2.post .claimWindowExpiry else s2).mailDone h 0 []

def execClaim (o : MailReq) (s : State) : Out :=
  serveMail o.host false whenReady (.claim o) (fun _ s => s.takeClaim o.host) s

/-- R489: 10 ms after the first claim the best one wins. -/
def execClaimWindowExpiry (s : State) : Out :=
  match s.own.owner, s.own.since with
  | none, some t =>
    if s.now < t + 40000000 then .next (s.post .claimWindowExpiry)
    else
      match bestClaim s.own.claims with
      | none => .next s
      | some c => .next (s.setOwner c)
  | _, _ => .next s

/-- R489: the owner's link has been DOWN for 100 ms. -/
def execOwnerLinkTimeout (s : State) : Out :=
  match s.own.owner with
  | none => .next s
  | some c =>
    match s.own.down.find? fun d => d.1 == c.host with
    | none => .next s
    | some (_, t) => if s.now < t + 400000000 then .next (s.post .ownerLinkTimeout) else .next s.loseOwner

def execHostLinkChange (o : LinkChange) (s : State) : Out :=
  let others := s.own.down.filter fun d => d.1 != o.host
  if o.up then .next (s.modOwn fun w => { w with down := others })
  else if others.length = s.own.down.length then
    .next ((s.modOwn fun w => { w with down := others ++ [(o.host, s.now)] }).post .ownerLinkTimeout)
  else .next s

def execHandover (o : MailReq) (s : State) : Out :=
  serveMail o.host true whenReady (.handover o) (fun _ s =>
    match s.own.claims.find? fun c => c.ident == s.mailData o.host 0 32 with
    | none => s.mailDone o.host 6 []
    | some c => (s.setOwner c).mailDone o.host 0 []) s

def execReleaseOwner (o : MailReq) (s : State) : Out :=
  serveMail o.host true whenReady (.releaseOwner o) (fun _ s => s.loseOwner.mailDone o.host 0 []) s

-- firmware (R492, R493)

/-- Bytes of a host's memory, read over its own link. -/
def State.hostBytes (s : State) (h : HostId) (at_ n : Nat) : List Byte :=
  (List.range n).map fun i => Config.hostByte s.now (hostLink h) (at_ + i)

/-- An image on a die, as the boot ROM measures it. -/
def imageOf (old : Option Image) (bs : List Byte) : Image :=
  ⟨Config.imageVersion bs, Config.sm3 bs, (old.map Image.loads).getD 0 + 1⟩

/-- STAGE (R493): a checked image is placed for a die. -/
def execStageFw (o : MailReq) (s : State) : Out :=
  serveMail o.host true whenReady (.stageFw o) (fun p s =>
    let d := s.mailData o.host 0 17
    let die := fieldAt d 16 1
    let bs := s.hostBytes o.host (fieldAt d 0 8) (fieldAt d 8 8)
    if 8 < die then s.mailDone o.host 5 []
    else if !Config.imageOk bs then s.mailDone o.host 4 []
    else
      let k := s.pkg p
      let x := imageOf (kget k.images die) bs
      (s.setPkg p { k with staged := kput k.staged die x }).mailDone o.host 0 (padTo 32 x.measure)) s

/-- R493: no command in its dispatch steps, no party save in progress. -/
def State.switchable (s : State) (p : Nat) : Bool :=
  s.bc.stage == 0 && s.parties.all fun (c, q) => pkgOfCore c != p || q.status != .saving

/-- SWITCH (R493). -/
def execSwitchFw (o : MailReq) (s : State) : Out :=
  serveMail o.host true whenReady (.switchFw o) (fun p s =>
    let die := fieldAt (s.mailData o.host 0 1) 0 1
    let k := s.pkg p
    let dies := if die = 255 then k.staged.map Prod.fst else [die]
    if 8 < die ∧ die ≠ 255 then s.mailDone o.host 5 []
    else if dies = [] ∨ dies.any (fun d => (kget k.staged d).isNone) = true then s.mailDone o.host 6 []
    else if !s.switchable p then s.post (.switchFw o)
    else
      let k1 := dies.foldl (fun k d => match kget k.staged d with
        | none => k
        | some x => { k with images := kput k.images d x, staged := serase d k.staged }) k
      (s.setPkg p k1).mailDone o.host 0 []) s

-- attestation (R494)

def provenance (die : Nat) (isStaged : Bool) (x : Image) : List Byte :=
  natBytes 1 die ++ natBytes 1 isStaged.toNat ++ [0, 0] ++ natBytes 4 x.version ++ padTo 32 x.measure ++ natBytes 8 x.loads

/-- ATTEST: the report, signed. -/
def execAttest (o : MailReq) (s : State) : Out :=
  serveMail o.host false whenReady (.attest o) (fun p s =>
    let k := s.pkg p
    let recs := (k.images.map fun (d, x) => provenance d false x) ++ k.staged.map fun (d, x) => provenance d true x
    let body := natBytes 4 0x54535441 ++ natBytes 2 1 ++ natBytes 2 recs.length ++ natBytes 8 (k.reports + 1)
      ++ s.mailData o.host 0 32 ++ padTo 32 (Config.sm3 (Config.packageKey p)) ++ natBytes 8 (s.rackTime p) ++ recs.flatten
    (s.setPkg p { k with reports := k.reports + 1 }).mailDone o.host 0 (body ++ padTo 64 (Config.sm2Sign p body))) s

end

end Sys2Proof.Machine
end

