-- ==== Sys2Proof/Machine/Group.lean ====
section
/-!
DEFINITION. Machine/Group.lean: groups and flows (R416-R422), the checks of the lane group instructions (R444, R445), their packets
(R446), and XPUT, XGET, XRED, XAMO and XSIG (R443, R449-R453).
-/

namespace Sys2Proof.Machine

noncomputable section

-- descriptors and windows (R416-R420)

/-- R417: COUNT of the descriptor at a physical address; 0 where there is none. -/
def State.groupCount (s : State) (desc : Nat) : Nat :=
  ((s.descriptorPiece desc).map fun bs => fieldAt bs 0 2).getD 0

/-- R418: a member entry. -/
def memberOf (rank : Nat) (bs : List Byte) : Member :=
  ⟨rank, fieldAt bs 0 8, fieldAt bs 8 8, fieldAt bs 0x10 2, fieldAt bs 0x12 1 == 1, fieldAt bs 0x14 4⟩
def State.memberAt (s : State) (desc rank : Nat) : Option Member :=
  if s.groupCount desc ≤ rank then none else (s.descriptorPiece (desc + 32 + 32 * rank)).map (memberOf rank)

/-- An open flow that no close has claimed (R423). -/
def Party.flow? (p : Party) (n : Nat) : Option Flow := p.flows.find? (·.num == n)
def Party.flowUsable (p : Party) (n : Nat) : Bool := (p.flow? n).any fun f => f.closing.isNone
def Party.modFlow (p : Party) (n : Nat) (g : Flow → Flow) : Party :=
  { p with flows := p.flows.map fun f => if f.num = n then g f else f }

/-- R416: the window offset of an address. -/
def Flow.offset (f : Flow) (va : Nat) : Nat := va % 2 ^ pageBits f.level
/-- R445: the address lies in the flow's window page. -/
def Flow.inWindow (f : Flow) (va : Nat) : Bool := va / 2 ^ pageBits f.level == f.window.toNat % 2 ^ 56 / 2 ^ pageBits f.level

/-- R416: the leaf is no multicast window. -/
def windowConflict (e : Dword) : Bool := !pteMcast e || pteTag e || pteHome e != 0

-- what a lane group instruction is

/-- Its packets' kind, the bytes of a lane (0 for none that name the region), the rights it needs, whether it signals. -/
structure GroupForm where
  kind : PktKind
  size : Nat
  reads : Bool
  writes : Bool
  signals : Bool
  flow : Nat
  deriving DecidableEq, Repr

def groupForm : Instr → Option GroupForm
  | .xput o =>
    if o.fn = 2 then some ⟨.mbx, 0, false, true, false, o.x.toNat⟩
    else some ⟨.put, wdBytes o.wd, false, true, o.fn == 1, o.x.toNat⟩
  | .xget o => some ⟨.get, wdBytes o.wd, true, false, false, o.x.toNat⟩
  | .xred o => some ⟨.red, wdBytes o.wd, false, true, false, o.x.toNat⟩
  | .xamo o => some ⟨.amo, wdBytes o.wd, true, true, false, o.x.toNat⟩
  | .xsig o => some ⟨.sig, 0, false, true, true, o.x.toNat⟩
  | _ => none

/-- R444: the fields of a lane's c. -/
def laneRank (q : LanePart) : Nat := q.y % 4096
def laneTag (q : LanePart) : Nat := q.y / 4096 % 16

/-- R445: the checks of a lane, with its leaf where it passes. -/
def State.groupLane (s : State) (core : Nat) (p : Party) (f : Flow) (g : GroupForm) (q : LanePart) : Verdict :=
  let va := q.addr.toNat % 2 ^ 56
  if q.addr.extractLsb' 60 4 ≠ 0 then .bad 1 .noncanonicalAddress
  else if g.size ≠ 0 ∧ q.addr.toNat % g.size ≠ 0 then .bad 2 .misalignedAccess
  else
    match s.walkFails.find? fun w => w.cluster == clusterOfCore core && w.root == p.root && w.page == va / 65536 with
    | some w => .bad (if w.cause = .pageNotPresent then 3 else 4) w.cause
    | none =>
      match s.leafFor core p.root va with
      | none => .bad 3 .pageNotPresent
      | some (_, e) =>
        let m := s.memberAt (ptePa e) (laneRank q)
        if windowConflict e then .bad 4 .attributeConflict
        else if p.movable && (g.signals || g.kind == .mbx || m.any Member.inScratch) then .bad 4 .attributeConflict
        else if (g.reads && !pteR e) || (g.writes && !pteW e) || (pteP e && !p.priv) || !f.inWindow va then
          .bad 5 .groupPermission
        else
          match m with
          | none => .bad 6 .peerRange
          | some m =>
            if 65536 ≤ q.y ∨ m.limit < f.offset va + g.size ∨ (g.signals = true ∧ m.anchor = 0) then
              .bad 6 .peerRange
            else .ok { q with pte := e }

-- packets (R446)

/-- Natural numbers in ascending order, each once. -/
def ascending (l : List Nat) : List Nat :=
  l.foldl (fun acc n => if acc.contains n then acc else acc.takeWhile (· < n) ++ n :: acc.dropWhile (· < n)) []

/-- The bytes that some lanes write, a higher lane's over a lower's. -/
def putBytes (off : LanePart → Nat) (size : Nat) (ps : List LanePart) : List (Nat × Byte) :=
  ps.foldl (fun acc q => (natBytes size q.x).zipIdx.foldl (fun acc b => kput acc (off q + b.2) b.1) acc) []
/-- R446: the unit count of some bytes. -/
def unitCount (bs : List (Nat × Byte)) : Nat := (ascending (bs.map fun b => b.1 / 32)).length

/-- A packet before its acceptance. -/
def packetBase (p : Party) (core strand : Nat) (f : Flow) (m : Member) (kind : PktKind) (owner at_ : Nat) : Packet where
  id := 0
  core := core
  grid := p.grid
  index := p.index
  strand := strand
  flow := f.num
  ordered := f.ordered
  window := f.size
  mem := m
  kind := kind
  owner := owner
  at_ := at_
  seq := none
  time := 0
  fn := 0
  wide := false
  off := 0
  bytes := []
  lanes := []
  tag := 0
  count := none
  faulted := none
  step := .waiting
  outcome := none
  values := []
  bad := []
  wts := 0
  asked := false

/-- Packets join the engine in order, and each asks for its sequence number. -/
def State.addPackets (s : State) (ks : List Packet) : State :=
  ks.foldl (fun s k =>
    (State.post { s with packets := s.packets ++ [{ k with id := s.nextId }] } (.packetAccept ⟨s.nextId⟩)).bump) s

/-- Lanes of one packet: by member, and by 512-byte block of window offset where bytes are named. -/
def groupKey (f : Flow) (g : GroupForm) (q : LanePart) : Nat :=
  laneRank q * 2 ^ 40 + (if g.kind = .sig then 0 else f.offset (q.addr.toNat % 2 ^ 56) / 512)

/-- R446: the packets of an instruction whose lanes have passed, in order of rank and block. -/
def State.packetsFor (s : State) (core : Nat) (p : Party) (a : Access) (f : Flow) (g : GroupForm) (ps : List LanePart) :
    List Packet :=
  let off (q : LanePart) : Nat := f.offset (q.addr.toNat % 2 ^ 56)
  (ascending (ps.map (groupKey f g))).filterMap fun key =>
    let mine := ps.filter fun q => groupKey f g q == key
    match mine with
    | [] => none
    | q0 :: _ =>
      (s.memberAt (ptePa q0.pte) (laneRank q0)).map fun m =>
        let bytes := if g.kind = .put then putBytes off g.size mine else []
        { packetBase p core a.strand f m g.kind a.id a.id with
          fn := a.fn.toNat
          wide := g.size == 8
          off := mine.foldl (fun n q => min n (off q)) (off q0)
          bytes := bytes
          lanes := if g.kind = .put ∨ g.kind = .sig then [] else mine.map fun q =>
            ⟨q.lane, off q, BitVec.ofNat 64 q.x, BitVec.ofNat 64 q.old⟩
          tag := BitVec.ofNat 4 (laneTag q0)
          count := if g.kind = .sig then some (mine.foldl (fun n q => n + q.x) 0, 0)
            else if g.signals then some (0, unitCount bytes) else none }

def Packet.size (k : Packet) : Nat := if k.wide then 8 else 4
/-- The window offsets of the bytes that a packet names. -/
def Packet.offsets (k : Packet) : List Nat :=
  k.bytes.map Prod.fst ++ (if k.kind = .mbx then [] else k.lanes.flatMap fun q => (List.range k.size).map (q.off + ·))
/-- The 128-byte lines of the region that it names. -/
def Packet.lines (k : Packet) : List Nat := ascending (k.offsets.map (· / 128))
def State.homeOf (s : State) (k : Packet) (off : Nat) : Option Nat := s.resolve (k.mem.base + off)
/-- Where the bytes lie that it names. -/
def State.packetPlaces (s : State) (k : Packet) : List Place :=
  if k.mem.inScratch then k.offsets.map fun o => .coreBacked k.mem.core (k.mem.base + o)
  else k.lines.filterMap fun l => (s.homeOf k (128 * l)).map fun r => .global (lineOf r)

/-- Where a part of an access lies, as the core sees it now. -/
def State.partPlace (s : State) (core : Nat) (p : Party) (a : Access) (q : LanePart) : Option Place :=
  if a.loc then some (.scratch q.addr.toNat)
  else if a.step = .active then some q.place
  else s.placeOf (clusterOfCore core) p.root (q.addr.toNat % 2 ^ 56)

/-- R40: an earlier access or buffered store of its strand that a packet waits for: it reads after the stores, and writes after the loads
too. -/
def State.packetBlocked (s : State) (core : Nat) (p : Party) (k : Packet) : Bool :=
  let at_ := s.packetPlaces k
  let hit (a : Access) : Bool :=
    a.strand == k.strand && a.id < k.at_ && a.kind != .command && a.kind != .group && a.step != .faulted
      && (k.kind != .get || a.kind.writes)
      && (a.kind == .tagFill || a.parts.any fun q => q.step != .done
        && (s.partPlace core p a q).any fun x => at_.any fun y => x.clash core a.size y 1)
  at_ != [] && (p.accesses.any hit
    || (s.core core).sb.any fun (_, e) => e.strand == k.strand && e.acc < k.at_ && at_.contains (.global e.line))

/-- The access of a group instruction whose packets have all been accepted is over, or, where it reads, once every lane has its
value (R445, R450). -/
def State.groupProgress (s : State) (core id : Nat) : State :=
  match s.access? core id with
  | none => s
  | some a =>
    if a.step ≠ .active ∨ s.packets.any (fun k => k.owner == id && k.step == .waiting) = true then s
    else if !a.isRead then (s.dropAccess core id).pump core
    else if !a.parts.all (fun q => q.step == .done) then s
    else if a.parts.any LanePart.poisoned then s.failAccess core a (a.faultOf .poisonConsumed LanePart.poisoned)
    else ((s.dropAccess core id).produce ⟨core, a.strand, a.slot⟩ (marksOf a.dst) a.result none).pump core

/-- A group instruction that has issued: its lanes are checked, and its packets leave, once R40 lets them, or it goes to the log or
fails. -/
def State.attemptGroup (s : State) (core : Nat) (a : Access) : State :=
  match s.party? core, a.op.bind groupForm with
  | some p, some g =>
    match p.flow? g.flow with
    | none => s
    | some f =>
      let older := (p.accesses.takeWhile (·.id != a.id)).filter fun b => b.strand == a.strand
      if (s.pkg (pkgOfCore core)).paused || older.any (fun b => b.step == .attempt || b.step == .logWait) then s
      else if p.inLogBefore a then s.logAccess core a none
      else
        let s0 := s.preWalk core p.root g.writes p.priv (a.parts.map LanePart.addr)
        if s0.lanesWait core p.root g.writes p.priv (a.parts.map LanePart.addr) then { s0 with walkFails := s.walkFails }
        else
        let vs := a.parts.map fun q => (q, s0.groupLane core p f g q)
        let s1 := { s0 with walkFails := s.walkFails }
        match worst vs with
        | some (n, c) =>
          let x := a.faultOf c fun q => vs.any fun v => v.1.lane == q.lane && v.2 == .bad n c
          if c = .pageNotPresent then s1.logAccess core a (some x) else s1.failAccess core a x
        | none =>
          let ok := vs.map fun v => match v.2 with | .ok q => q | _ => v.1
          let ks := s1.packetsFor core p a f g ok
          if ks.any (s1.packetBlocked core p) then s1
          else ((s1.setAccess core { a with step := .active }).addPackets ks).groupProgress core a.id
  | _, _ => s

/-- Group instructions of a core that wait to be tried, in issue order. -/
def State.retryGroups (s : State) (core : Nat) : State :=
  match s.party? core with
  | none => s
  | some p =>
    (p.accesses.filter fun a => a.kind == .group && a.step == .attempt && (a.op.bind groupForm).isSome).foldl
      (fun s a => s.attemptGroup core a) s

-- the instructions (R443, R449-R453)

/-- Two lanes of one packet carry different tags (R449, R453). -/
def tagsDiffer (f : Flow) (g : GroupForm) (ps : List LanePart) : Bool :=
  ps.any fun q => ps.any fun r => groupKey f g q == groupKey f g r && laneTag q != laneTag r

/-- The operands of a group instruction (R444): data, addresses, rank words, compare values, and its lanes. -/
structure GroupOps where
  data : Lanes (BitVec 128)
  addr : Addresses
  rank : Lanes Word
  parts : List LanePart

/-- The operands as issue reads them: `data` where a is read, in a register of a kind, `old` where d is read too. -/
def Party.groupOps (p : Party) (x : Ctx) (o : LL) (data : Bool) (kind : SrcKind) (old : Bool) : GroupOps × Party :=
  let (d, p1) := if data then p.dataSrc x.w kind o.a else (splat 0, p)
  let (a, p2) := p1.addresses x.w o.b o.o 0
  let (cs, p3) := p2.src32 x.w o.c
  let (y, p4) := if old then p3.dataSrc x.w kind o.d else (splat 0, p3)
  let parts := (laneParts (p.active x.w) fun k => (a.addr[k], (d[k]).toNat, (cs[k]).toNat)).map fun q =>
    { q with old := (y[q.lane]?.getD 0).toNat }
  (⟨d, a, cs, parts⟩, p4)

/-- R443, R449, R453: outside a transaction, on an open flow; tags that differ, and arrival counts that are too large, where the operands
hold values (R96). -/
def groupPre (i : Instr) (o : LL) (data : Bool) (kind : SrcKind) (old : Bool) (x : Ctx) (p : Party) : Option Cause :=
  if (p.strand x.w.strand).inTxn || !p.flowUsable o.x.toNat then some .illegalOperand
  else match groupForm i, p.flow? o.x.toNat with
  | some g, some f =>
    let ps := (p.groupOps x o data kind old).1.parts
    let named := if g.kind = .sig then [o.c] else [o.c, o.o]
    if g.signals && p.holdsAt x.w i named && tagsDiffer f g ps then some .illegalOperand
    else if g.kind == .sig && p.holdsAt x.w i [o.a] && ps.any fun q => decide (2 ^ 20 ≤ q.x) then some .illegalOperand
    else none
  | _, _ => none

/-- The shape of a lane group instruction: its operands are read, its packets leave. -/
def groupInstr (i : Instr) (o : LL) (data : Bool) (kind : SrcKind) (old : Bool) (s : State) : Out :=
  issue i (groupPre i o data kind old) (releaseReady o.ord o.scope) (fun x s =>
    match s.party? x.w.core, groupForm i with
    | some p, some g =>
      match p.flow? g.flow with
      | none => .stall
      | some _ =>
        let (v, p1) := p.groupOps x o data kind old
        let acc : Access := { x.access p .group (if g.size = 0 then 1 else g.size) with
          id := s.nextId
          form := wdForm o.wd
          fn := o.fn
          ord := o.ord
          op := some i
          dst := (roles i).dst
          base := v.addr.base
          pl1 := v.data
          pl2 := v.addr.off
          pl3 := tab fun k => (v.rank[k]).setWidth 128
          parts := v.parts }
        let s1 := (s.setParty x.w.core
          { p1.modStrand x.w.strand (·.setFulls false (marksOf acc.dst)) with accesses := p1.accesses ++ [acc] }).bump
        .ok ((s1.attemptGroup x.w.core acc).acquireAfter x.w o.ord o.scope) (some x.w)
    | _, _ => .stall) s

def execXput (o : LL) (s : State) : Out := groupInstr (.xput o) o true (wdSrc o.wd) false s
def execXget (o : LL) (s : State) : Out := groupInstr (.xget o) o false (wdSrc o.wd) false s
def execXred (o : LL) (s : State) : Out := groupInstr (.xred o) o true (wdSrc o.wd) false s
def execXamo (o : LL) (s : State) : Out := groupInstr (.xamo o) o (atomReadsA o.fn) (wdSrc o.wd) (atomReadsC o.fn) s
def execXsig (o : LL) (s : State) : Out := groupInstr (.xsig o) o true .l32 false s

end

end Sys2Proof.Machine
end

