-- ==== Sys2Proof/Machine/Exchange.lean ====
section
/-!
DEFINITION. Machine/Exchange.lean: collective packets from their acceptance to their outcome (R421-R429, R446-R455, R459).
-/

namespace Sys2Proof.Machine

noncomputable section

-- packets

def State.packet? (s : State) (id : Nat) : Option Packet := s.packets.find? (·.id == id)
def State.setPacket (s : State) (k : Packet) : State :=
  { s with packets := s.packets.map fun (j : Packet) => if j.id = k.id then k else j }
def State.dropPacket (s : State) (id : Nat) : State := { s with packets := s.packets.filter fun (j : Packet) => j.id != id }

def Packet.src (k : Packet) : Nat := dieOfCore k.core
/-- R418: its destination die. -/
def Packet.die (k : Packet) : Nat := dieOfCore k.mem.core
/-- R424: of one source party, flow and destination die. -/
def Packet.sameFlow (k j : Packet) : Bool := k.grid == j.grid && k.index == j.index && k.flow == j.flow && k.die == j.die
def Packet.ofParty (k : Packet) (p : Party) : Bool := k.grid == p.grid && k.index == p.index

/-- R427: the delivery bound between two dies, in core cycles. -/
def deliveryBound (a b : Nat) : Nat :=
  let d := (b % 8 + 8 - a % 8) % 8
  if pkgOfDie a = pkgOfDie b then (if d ≤ 1 ∨ d = 7 then 4000 else 8000)
  else if pkgOfDie a / 9 = pkgOfDie b / 9 then 24000
  else 48000
def Packet.bound (k : Packet) : Nat := deliveryBound k.src k.die

/-- R429: a collective notice; mailbox, signal and abort packets name no byte. -/
def Party.collectiveNotice (p : Party) (k : Packet) (c : Cause) : Party :=
  let first := if k.kind = .mbx ∨ k.kind = .sig ∨ k.kind = .abort then 0 else k.off
  p.notice (6#8 ++ BitVec.ofNat 56 first)
    (0#20 ++ BitVec.ofNat 12 k.mem.rank ++ BitVec.ofNat 16 (k.seq.getD 0) ++ 0#3 ++ BitVec.ofNat 5 k.flow ++ 0#1 ++ causeCode c)

-- what a destination die keeps (R426)

def State.flowRec (s : State) (k : Packet) : FlowRec :=
  (s.flowRecs.find? fun r => r.die == k.die && r.grid == k.grid && r.index == k.index && r.flow == k.flow).getD
    ⟨k.die, k.grid, k.index, k.flow, 0, [], []⟩
def State.setFlowRec (s : State) (r : FlowRec) : State :=
  { s with flowRecs := s.flowRecs.filter (fun (x : FlowRec) =>
      !(x.die == r.die && x.grid == r.grid && x.index == r.index && x.flow == r.flow)) ++ [r] }

/-- exp passes over the sequence numbers that have an outcome. -/
def FlowRec.pass : Nat → FlowRec → FlowRec
  | 0, r => r
  | n + 1, r =>
    if r.applied.any fun a => a.1 == r.exp then FlowRec.pass n { r with exp := (r.exp + 1) % 65536 } else r
def FlowRec.note (r : FlowRec) (seq : Nat) (o : Outcome) (c : Cause) : FlowRec :=
  let all := r.applied ++ [(seq, o, c)]
  FlowRec.pass 257 { r with applied := all.drop (all.length - 256) }

/-- A packet has its outcome: it is recorded, and the next packet of an ordered flow that is held goes on. -/
def State.recordOutcome (s : State) (k : Packet) (o : Outcome) (c : Cause) : State :=
  let r0 := (s.flowRec k).note (k.seq.getD 0) o c
  let r := { r0 with arrived := r0.arrived.filter (· != k.id) }
  let s1 := (s.setPacket { k with step := .judged, outcome := some (o, c) }).setFlowRec r
  if !k.ordered then s1
  else
    match s1.packets.find? fun j => j.sameFlow k && j.step == .held && j.seq == some r.exp with
    | none => s1
    | some j => (s1.setPacket { j with step := .ready }).post (.packetApply ⟨j.id⟩)

/-- R428: the destination sends the outcome to the sender. -/
def State.judge (s : State) (k : Packet) (o : Outcome) (c : Cause) : State :=
  (s.recordOutcome k o c).send k.die k.src (.packetOutcome ⟨k.id⟩)
/-- The sender finds the outcome itself: a fenced destination, or no route (R428, R439). -/
def State.judgeHere (s : State) (k : Packet) (o : Outcome) (c : Cause) : State :=
  (s.recordOutcome { k with wts := 0 } o c).post (.packetOutcome ⟨k.id⟩)

-- acceptance (R424)

/-- The sending party, while it is on its core. -/
def State.sender (s : State) (k : Packet) : Option Party := (s.party? k.core).bind fun p => if k.ofParty p then some p else none

/-- R424: fewer than W packets of its flow to its die are unresolved, and none of them waits before it. -/
def State.mayAccept (s : State) (k : Packet) (f : Flow) : Bool :=
  !(s.packets.takeWhile (·.id != k.id)).any (fun j => j.sameFlow k && j.step == .waiting)
    && decide ((s.packets.filter fun j => j.sameFlow k && j.step != .waiting).length < f.size)

/-- R428, R439: a packet under way to its die; the sender resolves it where the die is fenced or has no route. -/
def State.launchPacket (s : State) (k : Packet) : State :=
  if s.fenced.contains k.die then s.judgeHere k .failed .flowFailed
  else if (s.route k.src k.die).isNone then s.judgeHere k .noRoute .linkDown
  else s.send k.src k.die (.collectivePacket ⟨k.id⟩)

def State.acceptPacket (s : State) (k : Packet) (f : Flow) : State :=
  let n := (kget f.seqs k.die).getD 0
  let k1 := { k with seq := some n, time := s.rackTime (pkgOfDie k.src), step := .sent }
  let s1 := (s.modParty k.core (·.modFlow k.flow fun g => { g with seqs := kput g.seqs k.die ((n + 1) % 65536) })).setPacket k1
  let s2 := match k.faulted with
    | some c => if k.fn = 0 then s1.modParty k.core (·.collectiveNotice k1 c) else s1
    | none => s1
  ((s2.post (.outcomeQueryTimer ⟨k.id, false⟩)).launchPacket k1).groupProgress k.core k.owner

def execPacketAccept (o : PacketRef) (s : State) : Out :=
  match s.packet? o.id with
  | none => .next s
  | some k =>
    if k.step != .waiting then .next s
    else
      match (s.sender k).bind (·.flow? k.flow) with
      | none => .next (s.dropPacket o.id)
      | some f => if s.mayAccept k f then .next (s.acceptPacket k f) else .next (s.post (.packetAccept o))

-- arrival (R426)

def execCollectivePacket (o : PacketRef) (s : State) : Out :=
  match s.packet? o.id with
  | none => .next s
  | some k =>
    match k.step with
    | .judged => .next (s.send k.die k.src (.packetOutcome o))
    | .sent =>
      let r := s.flowRec k
      if !k.ordered then
        .next (((s.setPacket { k with step := .ready }).setFlowRec { r with arrived := r.arrived ++ [k.id] }).post (.packetApply o))
      else if k.seq == some r.exp then .next ((s.setPacket { k with step := .ready }).post (.packetApply o))
      else .next (s.setPacket { k with step := .held })
    | _ => .next s

-- application (R421, R447)

/-- R447: it must reach the party on the member's CORE. -/
def Packet.needsParty (k : Packet) : Bool := k.mem.inScratch || k.count.isSome || k.kind == .mbx || k.kind == .abort

/-- R314, R459: it acts on the member's anchor. -/
def Packet.atAnchor (k : Packet) : Bool := k.count.isSome || k.kind == .abort

/-- R421: the clock of a die's collective engine. -/
def State.clockOf (s : State) (die : Nat) : Nat := ((kget s.clocks die).map EngineClock.pts).getD 0
def State.foldClock (s : State) (die t : Nat) : State :=
  if s.clockOf die < t then { s with clocks := kput s.clocks die ⟨t, s.now⟩ } else s

/-- The home is in the die's package: a local request (R269). -/
def nearHome (die r : Nat) : Bool := resPkg r == die / 8

/-- R428: every line of a KIND 0 packet has a home that the die reaches; the bytes of a KIND 1 packet lie in scratchpad. -/
def State.fits (s : State) (k : Packet) (t? : Option Party) : Bool :=
  (if k.mem.inScratch then t?.any fun t => k.offsets.all fun o => k.mem.base + o < t.scratchSize
   else k.lines.all fun l => (s.homeOf k (128 * l)).any fun r => s.routeUp k.die (homeDie r))
    && (k.mem.anchor = 0 || !k.atAnchor || t?.any fun t => k.mem.anchor + 16 ≤ t.scratchSize)

/-- It waits: a line is held by a commit (R284), or q2 has no room for its entries (R449). -/
def State.mustWait (s : State) (k : Packet) (t? : Option Party) : Bool :=
  (!k.mem.inScratch && k.lines.any fun l => (s.homeOf k (128 * l)).any fun r => s.locked (lineOf r))
    || (k.kind == .mbx && t?.any fun t => 32 < t.q2.length + k.lanes.length)

/-- A packet with the wts of one of its lines, for the clock of its sender (R269, R455). -/
def Packet.stamped (k : Packet) (r t : Nat) : Packet := if resPkg r = pkgOfCore k.core then { k with wts := max k.wts t } else k

/-- The bytes of a packet written at the homes, line by line: the state, the packet, the largest wts of its local lines. -/
def State.putHomes (s : State) (k : Packet) : State × Packet × Nat :=
  k.lines.foldl (fun (acc : State × Packet × Nat) l =>
    match acc.1.homeOf k (128 * l) with
    | none => acc
    | some r =>
      let mine := k.bytes.filter fun b => b.1 / 128 == l
      let mask : BitVec 128 := mine.foldl (fun m b => m ||| 1#128 <<< (b.1 % 128)) 0
      let data : BitVec 1024 := mine.foldl (fun d b => d ||| atByte (b.1 % 128) b.2.toNat) 0
      let near := nearHome k.die r
      let lo := mine.foldl (fun n b => min n (b.1 % 128)) 127
      let hi := mine.foldl (fun n b => max n (b.1 % 128)) 0
      let s0 := acc.1.watchHome k.mem.core 0 k.core k.at_ .store true [(r + lo, hi + 1 - lo)]
      let (s1, t) := s0.applyStore (32 * k.die) (lineOf r) mask data 0 0 (if near then s.clockOf k.die else 0)
      let k1 := acc.2.1.stamped r t
      if near then (s1.foldClock k.die t, k1, max acc.2.2 t) else (s1, k1, acc.2.2)) (s, k, 0)

/-- A lane's read or atomic step at its home (R247, R450-R452): the old value, none where it is poisoned, and its home with its wts. -/
def State.laneHome (s : State) (k : Packet) (q : PktLane) : State × Option Nat × Nat × Nat :=
  match s.homeOf k q.off with
  | none => (s, none, 0, 0)
  | some r =>
    let near := nearHome k.die r
    let s0 := s.watchHome k.mem.core 0 k.core k.at_ (if k.kind = .get then .load else .atomic) true [(r, k.size)]
    let (s1, old, t) :=
      if k.kind = .get then
        let v := if !regWidthOk r k.size then 0 else if isMmioOff (resOff r) then s0.mmioRead r k.size else s0.readMem r k.size
        (s0, if sget false s0.poison (r / 32) then none else some v, (s0.stamps (lineOf r)).wts)
      else s0.atomicHome (32 * k.die) r (BitVec.ofNat 6 k.fn) k.wide q.x q.y (if near then s0.clockOf k.die else 0)
    (if near then s1.foldClock k.die t else s1, old, r, t)

/-- The same at the scratchpad port of CORE. -/
def Party.laneScratch (t : Party) (k : Packet) (q : PktLane) : Party × Option Nat :=
  let at_ := k.mem.base + q.off
  if t.scratchPoison at_ k.size then (t, none)
  else
    let old := t.readScratch at_ k.size
    let new := if k.kind = .get then none
      else atomStep (BitVec.ofNat 6 k.fn) k.wide old (q.x.toNat % 2 ^ (8 * k.size)) (q.y.toNat % 2 ^ (8 * k.size))
    (match new with | some v => t.writeScratch at_ k.size v | none => t, some old)

/-- R449: the entries of a mailbox packet enter q2 in lane order. -/
def Party.takeMail (t : Party) (k : Packet) : Party := { t with q2 := t.q2 ++ k.lanes.map PktLane.x }.wakeAll

/-- The lanes of a packet in order: the state, the packet with their values, the largest wts that it wrote in its local lines. -/
def State.doLanes (s : State) (k : Packet) : State × Packet × Nat :=
  k.lanes.foldl (fun (acc : State × Packet × Nat) q =>
    let (s, k, w) := acc
    let (s1, old, r, t) :=
      if k.mem.inScratch then
        match s.party? k.mem.core with
        | none => (s, none, 0, 0)
        | some t =>
          let (t1, old) := t.laneScratch k q
          (s.setParty k.mem.core t1, old, 0, 0)
      else s.laneHome k q
    (s1, { (k.stamped r t) with
      values := k.values ++ [(q.lane, old.getD 0)]
      bad := if old.isNone then k.bad ++ [q.lane] else k.bad }, if k.kind != .get && nearHome k.die r then max w t else w)) (s, k, 0)

/-- R459: the abort packet at its member's anchor. -/
def State.abortAt (s : State) (k : Packet) (t : Party) : State × Outcome :=
  let a := t.anchorAt k.mem.anchor
  if a.ph = (k.tag.toNat + 1) % 16 then (s, .complete)
  else
    let b := { a with er := true }
    let t1 := t.putAnchor k.mem.anchor (if a.ph = k.tag.toNat then b.advance else b)
    (s.setParty k.mem.core (t1.collectiveNotice k .collectiveAborted), .aborted)

/-- R454: an abort packet that comes too late: its event is applied at the anchor, with ER. -/
def State.lateAbort (s : State) (k : Packet) (t : Party) : State :=
  let a := { t.anchorAt k.mem.anchor with er := true }
  s.setParty k.mem.core (t.putAnchor k.mem.anchor (if a.ph = k.tag.toNat then a.advance else a))

/-- The bytes of a packet written at the member: the state, the packet, the largest wts. -/
def State.putMember (s : State) (k : Packet) : State × Packet × Nat :=
  if k.mem.inScratch then
    (s.modParty k.mem.core fun t =>
      t.engineWrite (k.bytes.map fun b => k.mem.base + b.1) (k.bytes.map fun b => (b.2, false)), k, 0)
  else s.putHomes k

/-- R447 step 1: the packet's writes, atomics or reads, with the largest wts, and the outcome of an abort. -/
def State.perform (s : State) (k : Packet) : State × Packet × Nat × Outcome :=
  match k.kind with
  | .mbx => (s.modParty k.mem.core (·.takeMail k), k, 0, .delivered)
  | .sig => (s, k, 0, .delivered)
  | .abort =>
    match s.party? k.mem.core with
    | none => (s, k, 0, .failed)
    | some t =>
      let (s1, o) := s.abortAt k t
      (s1, k, 0, o)
  | .put =>
    let (s1, k1, w) := s.putMember k
    (s1, k1, w, .delivered)
  | .txa =>
    let (s1, k1, w) := s.putMember k
    (s1, k1, w, .delivered)
  | _ =>
    let (s1, k1, w) := s.doLanes k
    (s1, k1, w, .delivered)

/-- R447 step 2: the count event, if it has one, and the member core's clock. -/
def State.countPacket (s : State) (k : Packet) (w : Nat) (err : Bool) : State :=
  let core := k.mem.core
  let s1 := match k.count with
    | none => s
    | some (na, ns) =>
      s.modParty core (·.applyCount ⟨core, k.mem.anchor, k.tag, na, ns, err || k.faulted.isSome, 0, true, false, 0⟩)
  s1.foldPts core w

/-- R448: the tag of a signalling packet that its member does not admit. -/
def Packet.refused (k : Packet) (t : Party) : Bool :=
  let ph := (t.anchorAt k.mem.anchor).ph
  k.count.isSome && k.tag.toNat != ph && k.tag.toNat != (ph + 1) % 16

/-- R448: a refused packet. -/
def State.refuse (s : State) (k : Packet) (t : Party) : State :=
  let a := t.anchorAt k.mem.anchor
  let t1 := (t.putAnchor k.mem.anchor { a with er := true }).collectiveNotice k .anchorPhase
  (s.setParty k.mem.core t1).judge k .failed (if a.er then .collectiveAborted else .flowFailed)

/-- R428, R447, R448, R454: a packet at its turn. -/
def State.applyPacket (s : State) (k : Packet) : State :=
  let again := s.post (.packetApply ⟨k.id⟩)
  let t? := (s.party? k.mem.core).bind fun t => if t.grid == k.grid then some t else none
  let parked := s.saved.any fun j => j.core == k.mem.core && j.party.grid == k.grid
  let now := s.rackTime (pkgOfDie k.die)
  let late := k.time + k.bound < now
  if s.fenced.contains k.die then s.judge k .failed .flowFailed
  else if k.needsParty && t?.isNone then (if parked then again else s.judge k .failed .flowFailed)
  else if k.time + 4 * k.bound < now then
    (match k.kind, t? with
      | .abort, some t => s.lateAbort k t
      | _, _ => s.countPacket k 0 true).judge k .failed .flowFailed
  else
    match t?.bind fun t => if k.refused t then some t else none with
    | some t => s.refuse k t
    | none =>
      if !s.fits k t? then s.judge k .failed .flowFailed
      else if s.mustWait k t? then again
      else
        let (s1, k1, w, o) := s.perform k
        (s1.countPacket k w false).judge k1 (if o = .delivered ∧ late = true then .late else o) (if late then .flowLate else .none)

def execPacketApply (o : PacketRef) (s : State) : Out :=
  match s.packet? o.id with
  | none => .next s
  | some k =>
    if k.step != .ready then .next s
    -- R426: an unordered flow applies packets in arrival order
    else if !k.ordered && (s.flowRec k).arrived.head? != some k.id then .next (s.post (.packetApply o))
    else .next (s.applyPacket k)

-- outcomes at the sender (R428, R429, R454, R460)

/-- The lanes of an XGET or XAMO whose packet is resolved. -/
def Access.takeValues (a : Access) (k : Packet) (failed : Bool) : Access :=
  { a with parts := a.parts.map fun q =>
      if k.lanes.any fun l => l.lane == q.lane then
        { q with
          step := .done
          old := if failed then 0 else (kget k.values q.lane).getD 0
          poisoned := !failed && k.bad.contains q.lane }
      else q }

/-- R460: the code of a member in the outcome vector. -/
def abortCode : Outcome → Nat
  | .complete => 0
  | .aborted => 1
  | _ => 2

/-- R460: byte `i` of an outcome vector. -/
def Abort.vectorByte (a : Abort) (i : Nat) : Byte :=
  BitVec.ofNat 8 ((List.range 4).foldl (fun n j => n + (kget a.codes (4 * i + j)).getD 0 * 4 ^ j) 0)

/-- R458, R460: every member has an outcome: the vector is written and the slot goes on. -/
def State.endAbort (s : State) (core : Nat) (a : Abort) : State :=
  if a.codes.length < a.count then s.modParty core fun p =>
    { p with aborts := p.aborts.map fun (x : Abort) => if x.id = a.id then a else x }
  else
    s.modParty core fun p =>
      let n := (a.count + 3) / 4
      let last := !p.aborts.any fun x => x.slot.strand == a.slot.strand && x.slot.slot == a.slot.slot && a.id < x.id
      let p1 := p.engineWrite ((List.range n).map (a.off + ·)) ((List.range n).map fun i => (a.vectorByte i, false))
      { p1 with aborts := p1.aborts.filter fun (x : Abort) => x.id != a.id }.modSlot a.slot fun l =>
        match l.wait with
        | .engine _ => if last then { l with wait := .none } else l
        | _ => l

/-- What an outcome does to the command that sent the packet. -/
def State.tellOwner (s : State) (k : Packet) (o : Outcome) : State :=
  let failed := o == .failed || o == .noRoute
  match k.kind with
  | .txa => s.modParty k.core fun p =>
      { p with txas := p.txas.map fun (t : Txa) => if t.id = k.owner then { t with err := t.err || failed } else t }
  | .abort =>
    match (s.party? k.core).bind fun p => p.aborts.find? (·.id == k.owner) with
    | none => s
    | some a => s.endAbort k.core { a with codes := kput a.codes k.mem.rank (abortCode o) }
  | _ =>
    if k.kind = .get ∨ k.kind = .amo then
      match s.access? k.core k.owner with
      | none => s
      | some a => (s.setAccess k.core (a.takeValues k failed)).groupProgress k.core k.owner
    else s

def execPacketOutcome (o : PacketRef) (s : State) : Out :=
  match s.packet? o.id with
  | none => .next s
  | some k =>
    match k.outcome with
    | none => .next s
    | some (r, c) =>
      let s1 := s.dropPacket o.id
      match s.sender k with
      | none => .next s1
      | some _ =>
        let s2 := if c = .none then s1 else s1.modParty k.core (·.collectiveNotice k c)
        -- R455: an outcome is the acknowledgement, or the response, of the strand's own access
        .next (((s2.foldPts k.core k.wts).tellOwner k r).pump k.core)

/-- R428: a sender that has no outcome after 8B asks the destination die, which answers with the outcome that it has recorded. -/
def execOutcomeQueryTimer (o : OutcomeQuery) (s : State) : Out :=
  match s.packet? o.id with
  | none => .next s
  | some k =>
    if o.sent then .next (if k.step = .judged then s.send k.die k.src (.packetOutcome ⟨o.id⟩) else s)
    else if s.rackTime (pkgOfDie k.src) < k.time + 8 * k.bound then .next (s.post (.outcomeQueryTimer o))
    else .next ((s.setPacket { k with asked := true }).send k.src k.die (.outcomeQueryTimer ⟨o.id, true⟩))

end

end Sys2Proof.Machine
end

