-- ==== Sys2Proof/Machine/FlowOps.lean ====
section
/-!
DEFINITION. Machine/FlowOps.lean: XFLOW (R425, R456, R457), XABORT (R458-R460), and what the collective engine looks at again: group
commands whose pages were served, closes that wait, records of parties that are gone.
-/

namespace Sys2Proof.Machine

noncomputable section

/-- What a group command's checks give: its effect, a fault with its address, a missing page; a home or a walk that is not ready. -/
inductive Tried where
  | ok (s : State)
  | bad (s : State) (c : Cause) (addr : Dword)
  | missing (s : State) (va : Nat)
  | again

/-- R416, R457, R463: the leaf of a window pointer, with check 5 of R235 where `reads` asks for it; none where its walk has to wait. -/
def State.windowLeaf (s : State) (core : Nat) (p : Party) (ptr : Dword) (reads : Bool := false) :
    Option (Except Cause (State × TlbEntry)) :=
  let va := ptr.toNat % 2 ^ 56
  if ptr.extractLsb' 60 4 ≠ 0 then some (.error .noncanonicalAddress)
  else if s.missWaits (clusterOfCore core) p.root va false p.priv then none
  else
    match s.leafAt (p.reader core) va false with
    | .error c => some (.error c)
    | .ok (s1, t) =>
      if reads && (!pteR t.pte || (pteP t.pte && !p.priv)) then some (.error .protectionRead)
      else if windowConflict t.pte then some (.error .attributeConflict)
      else some (.ok (s1, t))

/-- A failed translation. -/
def triedBad (s : State) (c : Cause) (ptr : Dword) : Tried :=
  if c = .pageNotPresent then .missing s (ptr.toNat % 2 ^ 56) else .bad s c ptr

-- XFLOW

def flowOp (o : UL) : Nat := w1 o 31 30
def flowArg (o : UL) : Nat := w1 o 28 24
def flowSize (o : UL) : Nat := w1 o 23 16 + 1

/-- Every party, on its core or suspended, with its core. -/
def State.allParties (s : State) : List (Nat × Party) := s.parties ++ s.saved.map fun k => (k.core, k.party)

/-- R425: reorder entries of a die that open flows have reserved. -/
def State.reserved (s : State) (die : Nat) : Nat :=
  s.allParties.foldl (fun n (_, p) => p.flows.foldl (fun n f => if f.ordered && f.dies.contains die then n + f.size else n) n) 0
/-- R425: credits of a die's injection budget that open flows have taken. -/
def State.credits (s : State) (die : Nat) : Nat :=
  s.allParties.foldl (fun n (c, p) =>
    if dieOfCore c = die then p.flows.foldl (fun n f => n + f.size * f.dies.length) n else n) 0

/-- R425: the destination dies of a group's members. -/
def State.groupDies (s : State) (desc : Nat) : List Nat :=
  ascending ((List.range (s.groupCount desc)).filterMap fun r => (s.memberAt desc r).map fun m => dieOfCore m.core)

/-- R457: the result of an open, with the party after it. -/
def State.openResult (s : State) (core : Nat) (p : Party) (o : UL) (ptr : Dword) (t : TlbEntry) : Nat × Party :=
  let n := flowArg o
  let w := flowSize o
  let ordered := flowOp o == 1
  let dies := s.groupDies (ptePa t.pte)
  if (p.flow? n).isSome then (1, p)
  else if ordered && dies.any fun d => decide (4096 < s.reserved d + w) then (2, p)
  else if 16384 < s.credits (dieOfCore core) + w * dies.length then (3, p)
  else
    let bit : Word := 1#32 <<< n
    (0, { p with
      flows := p.flows ++ [⟨n, ptr, t.level, w, ordered, [], dies, none⟩]
      flowOpen := p.flowOpen ||| bit
      flowOrd := if ordered then p.flowOrd ||| bit else p.flowOrd })

/-- The command is over: its access goes, its slot goes on. -/
def Party.endWait (p : Party) (w : SlotRef) (id : Nat) : Party :=
  (p.dropAccess id).modSlot w fun l => match l.wait with
    | .engine _ => { l with wait := .none }
    | _ => l

/-- R457: an open. -/
def State.tryOpen (s : State) (core : Nat) (p : Party) (a : Access) (o : UL) : Tried :=
  let ptr : Dword := (a.pl2[(0 : Fin 32)]).setWidth 64
  match s.windowLeaf core p ptr with
  | none => .again
  | some (.error c) => triedBad s c ptr
  | some (.ok (s1, t)) =>
    if (!pteR t.pte && !pteW t.pte) || (pteP t.pte && !p.priv) then .bad s1 .groupPermission ptr
    else
      let (v, p1) := s1.openResult core p o ptr t
      let w : SlotRef := ⟨core, a.strand, a.slot⟩
      .ok (s1.setParty core ((p1.endWait w a.id).dstU w o.d (BitVec.ofNat 64 v)))

-- XABORT

/-- R458: its packets leave, and its slot waits. -/
def State.sendAbort (s : State) (core : Nat) (p : Party) (a : Access) (f : Flow) (desc : Nat) (tag : BitVec 4) (off : Nat) : State :=
  let n := s.groupCount desc
  let w : SlotRef := ⟨core, a.strand, a.slot⟩
  let ab : Abort := ⟨a.id, w, off, n, []⟩
  let p1 := { (p.dropAccess a.id).modSlot w fun l => { l with wait := .engine a.pc } with aborts := p.aborts ++ [ab] }
  (s.setParty core p1).addPackets ((List.range n).filterMap fun r => (s.memberAt desc r).map fun m =>
    { packetBase p core a.strand f m .abort a.id a.id with tag := tag })

/-- R458: the checks, in their order. -/
def State.tryAbort (s : State) (core : Nat) (p : Party) (a : Access) (o : UL) : Tried :=
  let ptr : Dword := (a.pl2[(0 : Fin 32)]).setWidth 64
  let off : Dword := (a.pl3[(0 : Fin 32)]).setWidth 64
  match p.flow? (w1 o 27 23) with
  | none => .bad s .illegalOperand 0
  | some f =>
    if !f.inWindow (ptr.toNat % 2 ^ 56) then .bad s .groupPermission ptr
    else match s.windowLeaf core p ptr with
    | none => .again
    | some (.error c) => triedBad s c ptr
    | some (.ok (s1, t)) =>
      let desc := ptePa t.pte
      let n := s1.groupCount desc
      if !pteW t.pte || (pteP t.pte && !p.priv) then .bad s1 .groupPermission ptr
      else if p.movable then .bad s1 .attributeConflict ptr
      else if (List.range n).any fun r => (s1.memberAt desc r).any fun m => m.anchor == 0 then .bad s1 .peerRange ptr
      else if off.extractLsb' 32 32 ≠ 0 ∨ p.scratchSize < off.toNat + (n + 3) / 4 then .bad s1 .scratchRange off
      else .ok (s1.sendAbort core p a f desc (BitVec.ofNat 4 (w1 o 31 28)) off.toNat)

/-- The command of an access that holds its slot. -/
def State.tryHolder (s : State) (core : Nat) (a : Access) : Tried :=
  match s.party? core, a.op with
  | some p, some (.xflow o) => s.tryOpen core p a o
  | some p, some (.xabort o) => s.tryAbort core p a o
  | _, _ => .ok s

/-- The strand's log has a place (R145). -/
def Party.logRoom (p : Party) (i : Nat) : Bool := (p.accesses.filter fun b => b.strand == i && b.step == .logged).length < 4

/-- The issue of a group command: tried at once, or in the operand log (R144). `holds` makes its slot wait there. -/
def State.startTry (s : State) (x : Ctx) (a : Access) (holds : Bool) (attempt : State → Nat → Access → Tried) : Done :=
  let core := x.w.core
  match s.party? core with
  | none => .stall
  | some p =>
    let b := { a with id := s.nextId }
    let held := (s.setParty core { p with accesses := p.accesses ++ [b] }).bump
    let hold (s : State) : State := if holds then s.modSlot x.w fun l => { l with wait := .engine x.pc } else s
    if p.inLog a then (if holds && !p.logRoom a.strand then .stall else .ok ((hold held).logAccess core b none) (some x.w))
    else
      match attempt held core b with
      | .ok s1 => .ok s1 (some x.w)
      | .bad s1 c addr => x.execFault (s1.dropAccess core b.id) c addr
      | .missing s1 va =>
        if holds && !p.logRoom a.strand then .stall
        else .ok ((hold s1).logAccess core b (some (missingPage va))) (some x.w)
      | .again => .stall

/-- A logged command tried again. -/
def State.retryTry (s : State) (core : Nat) (a : Access) (attempt : State → Nat → Access → Tried) : State :=
  match attempt s core a with
  | .ok s1 => s1
  | .bad s1 c addr => s1.failAccess core a ⟨c, 0, none, addr⟩
  | .missing s1 va => s1.logAccess core a (some (missingPage va))
  | .again => s

/-- The pages of its pointers, for the log. -/
def pointerPart (v : Dword) (n : Nat) : List LanePart := ⟨0, v, 0, 0, 0, 0, .scratch 0, .waiting, 0, false, false⟩ :: laterPages 0 v n

/-- R457: a close of a flow that another close holds waits. -/
def closeReady (o : UL) (x : Ctx) (s : State) : Bool :=
  flowOp o != 2 || (s.party? x.w.core).all fun p => (p.flow? (flowArg o)).all fun f => f.closing.isNone

def execXflow (o : UL) (s : State) : Out :=
  issue (.xflow o) noTxn (closeReady o) (fun x s =>
    match s.party? x.w.core with
    | none => .stall
    | some p =>
      let (va, p1) := p.srcU x.w o.a
      if flowOp o = 2 then
        match p.flow? (flowArg o) with
        | none => .ok (s.setParty x.w.core (p1.dstU x.w o.d 1)) (some x.w)
        | some _ =>
          .ok (s.setParty x.w.core ((p1.modFlow (flowArg o) fun f => { f with closing := some (x.w, o.d) }).modSlot x.w
            fun l => { l with wait := .engine x.pc })) (some x.w)
      else
        (s.setParty x.w.core p1).startTry x { x.access p .group 1 with
          uniform := true
          op := some (.xflow o)
          pl2 := logUniform va
          parts := pointerPart va 1 } true State.tryHolder) s

/-- R458: the flow is open. -/
def abortPre (o : UL) (x : Ctx) (p : Party) : Option Cause :=
  if (p.strand x.w.strand).inTxn || !p.flowUsable (w1 o 27 23) then some .illegalOperand else none

def execXabort (o : UL) (s : State) : Out :=
  issue (.xabort o) (abortPre o) always (fun x s =>
    match s.party? x.w.core with
    | none => .stall
    | some p =>
      let (va, p1) := p.srcU x.w o.a
      let (vb, p2) := p1.srcU x.w o.b
      (s.setParty x.w.core p2).startTry x { x.access p .group 1 with
        uniform := true
        op := some (.xabort o)
        pl2 := logUniform va
        pl3 := logUniform vb
        parts := pointerPart va 1 } true State.tryHolder) s

-- what waits

/-- The group commands of a core whose pages were served, in issue order. -/
def State.retryHolders (s : State) (core : Nat) : State :=
  match s.party? core with
  | none => s
  | some p =>
    (p.accesses.filter fun a => a.step == .attempt && holdsSlot a.op).foldl (fun s a => s.retryTry core a State.tryHolder) s

/-- An access of a group instruction on a flow. -/
def Access.onFlow (a : Access) (n : Nat) : Bool :=
  a.step != .faulted && (match a.op with
    | some (.txa o) => w1 o 18 14 == n
    | some (.xabort o) => w1 o 27 23 == n
    | some i => (groupForm i).any fun g => g.flow == n
    | none => false)

/-- R457: every packet of the flow has resolved. -/
def State.flowQuiet (s : State) (p : Party) (n : Nat) : Bool :=
  !(p.accesses.any fun a => a.onFlow n) && !(p.txas.any fun t => t.flow == n) && !(s.packets.any fun k => k.ofParty p && k.flow == n)

/-- R457: a close that waits is done: the destinations' records and the reservations go, and d is written. -/
def State.closeFlow (s : State) (core : Nat) (p : Party) (f : Flow) (w : SlotRef) (d : BitVec 7) : State :=
  let keep : Word := ~~~(1#32 <<< f.num)
  let p1 := { p with
    flows := p.flows.filter fun (g : Flow) => g.num != f.num
    flowOpen := p.flowOpen &&& keep
    flowOrd := p.flowOrd &&& keep }
  let s1 := s.setParty core ((p1.dstU w d 0).modSlot w fun l => { l with wait := .none })
  { s1 with flowRecs := s1.flowRecs.filter fun (r : FlowRec) => !(r.grid == p.grid && r.index == p.index && r.flow == f.num) }

def State.tendCloses (s : State) (core : Nat) : State :=
  match s.party? core with
  | none => s
  | some p => p.flows.foldl (fun s f =>
    match s.party? core, f.closing with
    | some q, some (w, d) => if s.flowQuiet q f.num then s.closeFlow core q f w d else s
    | _, _ => s) s

/-- What is left of parties that are gone: resolved packets, and records of flows none of whose packets is under way. -/
def State.tendFlowRecs (s : State) : State :=
  let there (g : BitVec 32) (i : Nat) : Bool := s.allParties.any fun (_, p) => p.grid == g && p.index == i
  let ks := s.packets.filter fun k => there k.grid k.index || !(k.step == .waiting || k.step == .judged)
  { s with
    packets := ks
    flowRecs := s.flowRecs.filter fun (r : FlowRec) =>
      there r.grid r.index || ks.any fun k => k.grid == r.grid && k.index == r.index && k.flow == r.flow }

end

end Sys2Proof.Machine
end

