-- ==== Sys2Proof/Machine/Txa.lean ====
section
/-!
DEFINITION. Machine/Txa.lean: TXA (R461-R466): its layout map, its checks, its elements, its packets and its completion.
-/

namespace Sys2Proof.Machine

noncomputable section

-- the layout map (R462)

structure LayoutMap where
  ndim : Nat
  nax : Nat
  esz : Nat
  perm : List Nat
  sax : List Nat
  dax : List Nat
  p : List Nat
  n : List Nat
  sstr : List Int
  dstr : List Int
  zeros : Bool
  deriving DecidableEq, Repr

def LayoutMap.ofBytes (bs : List Byte) : LayoutMap :=
  let five (at_ size : Nat) : List Nat := (List.range 5).map fun k => fieldAt bs (at_ + size * k) size
  let signed (at_ : Nat) : List Int := (List.range 5).map fun k => (BitVec.ofNat 32 (fieldAt bs (at_ + 4 * k) 4)).toInt
  { ndim := fieldAt bs 0 1
    nax := fieldAt bs 1 1
    esz := fieldAt bs 2 1
    perm := five 4 1
    sax := five 9 1
    dax := five 0xE 1
    p := (List.range 3).map fun a => fieldAt bs (0x14 + 2 * a) 2
    n := five 0x20 4
    sstr := signed 0x40
    dstr := signed 0x54
    zeros := fieldAt bs 3 1 == 0 && fieldAt bs 0x13 1 == 0 && fieldAt bs 0x1A 6 == 0 && fieldAt bs 0x34 12 == 0
      && fieldAt bs 0x68 24 == 0 }

def LayoutMap.ranks (m : LayoutMap) : Nat := nth m.p 0 * nth m.p 1 * nth m.p 2

/-- How often an axis splits a dimension. -/
def axisUses (l : List Nat) (a : Nat) : Nat := (l.filter (· == a)).length

/-- R463: LAYOUT_MAP, for a group of `count` members, a destination offset and a source. -/
def LayoutMap.bad (m : LayoutMap) (count : Nat) (dest : Nat) (src : Nat) : Bool :=
  let e : Nat := 2 ^ m.esz
  let dims := List.range 5
  !m.zeros || m.ndim == 0 || 5 < m.ndim || m.nax == 0 || 3 < m.nax || 4 < m.esz
    || m.p.any (fun x => x == 0 || decide (4096 < x))
    || dims.any (fun k => if k < m.ndim then axisUses (m.perm.take m.ndim) k != 1 else nth m.perm k != k)
    || dims.any (fun k => m.ndim ≤ k && (nth m.n k != 1 || nth m.sax k != 0xFF || nth m.dax k != 0xFF
        || nthI m.sstr k != 0 || nthI m.dstr k != 0))
    || (m.sax ++ m.dax).any (fun x => x != 0xFF && decide (m.nax ≤ x))
    || (List.range 3).any (fun a => (m.nax ≤ a && nth m.p a != 1) || 1 < axisUses m.sax a || 1 < axisUses m.dax a
        || (nth m.p a != 1 && (axisUses m.sax a != 1 || axisUses m.dax a != 1)))
    || dims.any (fun k => (nth m.sax k != 0xFF && nth m.n k % nth m.p (nth m.sax k) != 0)
        || (nth m.dax k != 0xFF && nth m.n k % nth m.p (nth m.dax k) != 0))
    || count < m.ranks
    || (m.sstr ++ m.dstr).any (fun x => x % e != 0) || dest % e != 0 || src % e != 0

-- the elements (R464)

/-- Every point of a grid of the extents given. -/
def gridPoints : List Nat → List (List Nat)
  | [] => [[]]
  | n :: t => (gridPoints t).flatMap fun r => (List.range n).map fun i => i :: r

/-- The sum of some terms. -/
def sumInt (n : Nat) (f : Nat → Int) : Int := (List.range n).foldl (fun acc k => acc + f k) 0

/-- One element: source address, destination rank and offset. -/
def LayoutMap.element (m : LayoutMap) (q : Nat) (dest src : Nat) (i : List Nat) : Int × Nat × Int :=
  let p := nth m.p
  let s := [q % p 0, q / p 0 % p 1, q / (p 0 * p 1)]
  let lo (k : Nat) : Nat := if nth m.sax k = 0xFF then 0 else nth s (nth m.sax k) * (nth m.n k / p (nth m.sax k))
  let g (k : Nat) : Nat := lo k + nth i k
  let part (k : Nat) : Nat := nth m.n k / p (nth m.dax k)
  let u (a : Nat) : Nat :=
    match (List.range 5).find? fun k => nth m.dax k == a with
    | some k => g k / part k
    | none => 0
  let j (k : Nat) : Nat := if nth m.dax k = 0xFF then g k else g k - u (nth m.dax k) * part k
  (src + sumInt m.ndim (fun k => nth i k * nthI m.sstr k),
   u 0 + p 0 * (u 1 + p 1 * u 2),
   dest + sumInt m.ndim (fun e => j (nth m.perm e) * nthI m.dstr e))

/-- The extents of the sender's local array. -/
def LayoutMap.localDims (m : LayoutMap) : List Nat :=
  (List.range 5).map fun k => if nth m.sax k = 0xFF then nth m.n k else nth m.n k / nth m.p (nth m.sax k)

def LayoutMap.elements (m : LayoutMap) (q dest src : Nat) : List (Int × Nat × Int) :=
  (gridPoints m.localDims).map (m.element q dest src)

/-- R464: the map may send two elements to the same bytes; which one stays is a free choice. -/
def onePerUnit (fresh : Nat) (es : List (Nat × Nat × Nat)) : List (Nat × Nat × Nat) :=
  (es.zipIdx).filterMap fun (e, i) =>
    match es.filter fun d => d.2 == e.2 with
    | [_] => some e
    | same =>
      let first := (es.zipIdx.find? fun d => d.1.2 == e.2).map Prod.snd
      if first = some i then same[(Config.free64 (fresh + i)).toNat % same.length]? else none

-- the checks (R461, R463)

def txaSp (o : UL) : Bool := o.w1.getLsbD 31
def txaArv (o : UL) : Bool := o.w1.getLsbD 30
def txaTag (o : UL) : BitVec 4 := o.w1.extractLsb' 26 4
def txaOrd (o : UL) : BitVec 2 := o.w1.extractLsb' 24 2
def txaScope (o : UL) : BitVec 5 := o.w1.extractLsb' 19 5
def txaFlow (o : UL) : Nat := w1 o 18 14

/-- The members that receive bytes or an arrival. -/
def reached (arv : Bool) (ranks : Nat) (es : List (Int × Nat × Int)) : List Nat :=
  if arv then List.range ranks else ascending (es.map fun e => e.2.1)

/-- R463, class 8: the checks after the layout map has been read. -/
def txaFault (p : Party) (o : UL) (m : LayoutMap) (ms : List Member) (count q dest : Nat) (b : Dword) :
    Option (Cause × Dword) :=
  let src := if txaSp o then b.toNat % 2 ^ 32 else b.toNat
  if m.bad count dest src then some (.layoutMap, 0)
  else if m.ranks ≤ q then some (.peerRange, 0)
  else
    let es := m.elements q dest src
    let e : Nat := 2 ^ m.esz
    if (reached (txaArv o) m.ranks es).any fun r => (ms[r]?).any fun x => x.anchor == 0 then some (.peerRange, 0)
    else if es.any fun x => decide (x.2.2 < 0) || (ms[x.2.1]?).any fun y => decide ((y.limit : Int) < x.2.2 + e) then
      some (.peerRange, 0)
    else if txaSp o && es.any fun x => decide (x.1 < 0) || decide ((p.scratchSize : Int) < x.1 + e) then some (.scratchRange, b)
    else none

/-- R466: the segments of a source in global memory. -/
def sourceSegments (e : Nat) (srcs : List Nat) : List Segment :=
  segmentsOf false (byPtr ((ascending srcs).map fun sa => ⟨BitVec.ofNat 64 sa, sa, e, []⟩))

/-- R466: the TXA is accepted into its strand's open pitch, and its source is read. -/
def State.acceptTxa (s : State) (core : Nat) (p : Party) (a : Access) (o : UL) (f : Flow) (m : LayoutMap) (ms : List Member)
    (q dest : Nat) (b : Dword) : State :=
  let sp := txaSp o
  let src := if sp then b.toNat % 2 ^ 32 else b.toNat
  let raw := (m.elements q dest src).map fun x =>
    (if sp then x.1.toNat else (BitVec.ofInt 64 x.1).toNat, x.2.1, x.2.2.toNat)
  let es := onePerUnit s.fresh raw
  let e : Nat := 2 ^ m.esz
  let pitch := (p.strand a.strand).pitch.openN
  let id := a.id
  let c : EngineCmd := { EngineCmd.fresh .txa a.strand a.pc with
    id := id
    tag := txaTag o
    pitch := pitch
    rel := ordRel (txaOrd o)
    acqs := if ordAcq (txaOrd o) then some a.entry.covers else none
    cover := a.entry.covers
    arv := txaArv o
    serial := p.serial
    at_ := id
    segs := if sp then [] else sourceSegments e (es.map Prod.fst) }
  let t : Txa :=
    { id := id, strand := a.strand, pitch := pitch.toNat, flow := f.num, window := f.size, tag := txaTag o, arv := txaArv o,
      rel := ordRel (txaOrd o), cover := a.entry.covers, esz := m.esz, src := src, inScratch := sp, elems := es,
      members := ms.take m.ranks, stage := 0, err := false, causes := [], counts := [] }
  let p1 := (p.dropAccess a.id).modStrand a.strand fun st => { st with pitch := st.pitch.join false }
  let p2 := { p1 with
    cmds := p1.cmds ++ [c]
    serial := p.serial + 1
    txas := p1.txas ++ [t] }
  let s1 := { s with fresh := s.fresh + raw.length }
  c.segs.foldl (fun s g => s.post (.segmentLand ⟨core, id, g.id⟩)) (s1.setParty core p2)

/-- R463: the checks of a TXA, in their order. -/
def State.tryTxa (s : State) (core : Nat) (a : Access) : Tried :=
  match s.party? core, a.op with
  | some p, some (.txa o) =>
    let ptr : Dword := (a.pl1[(0 : Fin 32)]).setWidth 64
    let q : Nat := (a.pl1[(0 : Fin 32)] >>> 64).toNat
    let map : Dword := (a.pl2[(0 : Fin 32)]).setWidth 64
    let b : Dword := (a.pl3[(0 : Fin 32)]).setWidth 64
    match p.flow? (txaFlow o) with
    | none => .bad s .illegalOperand 0
    | some f =>
      match s.windowLeaf core p ptr true with
      | none => .again
      | some (.error c) => triedBad s c ptr
      | some (.ok (s1, t)) =>
        if p.movable then .bad s1 .attributeConflict ptr
        else if !f.inWindow (ptr.toNat % 2 ^ 56) || !pteW t.pte || (pteP t.pte && !p.priv) then .bad s1 .groupPermission ptr
        else if { p with accesses := p.accesses.takeWhile (·.id != a.id) }.storesLeft a.strand then .again
        else
          match s1.strandLoads core p a map 8 with
          | .again => .again
          | .bad s2 c at_ => triedBad s2 c at_
          | .got s2 bs =>
            let desc := ptePa t.pte
            let count := s2.groupCount desc
            let m := LayoutMap.ofBytes bs
            let dest := f.offset (ptr.toNat % 2 ^ 56)
            let ms := (List.range count).filterMap fun r => s2.memberAt desc r
            match txaFault p o m ms count q dest b with
            | some (c, addr) => .bad s2 c (if c = .layoutMap then map else if c = .peerRange then ptr else addr)
            | none => .ok (s2.acceptTxa core ((s2.party? core).getD p) a o f m ms q dest b)
  | _, _ => .ok s

/-- R466: a party holds at most four unfinished TXA commands. -/
def txaReady (x : Ctx) (s : State) : Bool :=
  (s.party? x.w.core).any fun p =>
    p.txas.length + (p.accesses.filter fun a => match a.op with | some (.txa _) => true | _ => false).length < 4

def txaPre (o : UL) (x : Ctx) (p : Party) : Option Cause :=
  if (p.strand x.w.strand).inTxn || !p.flowUsable (txaFlow o) then some .illegalOperand else none

def execTxa (o : UL) (s : State) : Out :=
  issue (.txa o) (txaPre o) txaReady (fun x s =>
    match s.party? x.w.core with
    | none => .stall
    | some p =>
      let (va, p1) := p.srcU x.w o.a
      let (vb, p2) := p1.srcU x.w o.b
      let (d0, p3) := p2.srcU x.w o.d
      let (d1, p4) := p3.srcU x.w (o.d + 1)
      if d1.extractLsb' 12 52 ≠ 0 then .fault .illegalOperand 0
      else
        (s.setParty x.w.core p4).startTry x { x.access p .group 16 with
          uniform := true
          op := some (.txa o)
          ord := txaOrd o
          entry := p.entryAt (txaScope o)
          pl1 := tab fun k => if k.val = 0 then d1 ++ d0 else 0
          pl2 := logUniform va
          pl3 := logUniform vb
          parts := pointerPart va 128 ++ pointerPart d0 1 } false State.tryTxa) s

/-- The TXAs of a core whose pages were served. -/
def State.retryTxas (s : State) (core : Nat) : State :=
  match s.party? core with
  | none => s
  | some p =>
    (p.accesses.filter fun a => a.step == .attempt && (match a.op with | some (.txa _) => true | _ => false)).foldl
      (fun s a => s.retryTry core a State.tryTxa) s

-- packets (R465, R466)

/-- The bytes of an element, or the cause that left it out. -/
def Party.elementBytes (p : Party) (t : Txa) (c : EngineCmd) (sa : Nat) : Except Cause (List Byte) :=
  let e : Nat := 2 ^ t.esz
  if t.inScratch then
    if p.scratchPoison sa e then .error .poisonConsumed else .ok (natBytes e (p.readScratch sa e))
  else
    let at_ (i : Nat) : Dword := BitVec.ofNat 64 (sa + i)
    match c.segs.find? fun g => g.runs.any fun r => (at_ 0 - r.1).toNat < r.2.2 with
    | none => .error .pageNotPresent
    | some g =>
      if g.step = .landed then .ok ((List.range e).map fun i => (runByte g.data (at_ i) g.runs).getD 0)
      else .error ((kget t.causes g.id).getD .pageNotPresent)

/-- The packet of one 512-byte block of a member. -/
def Party.blockPacket (p : Party) (core : Nat) (t : Txa) (c : EngineCmd) (f : Flow) (m : Member) (es : List (Nat × Nat × Nat)) :
    Packet :=
  let e : Nat := 2 ^ t.esz
  let got := es.map fun x => (x.2.2, p.elementBytes t c x.1)
  let bytes := got.flatMap fun x => match x.2 with
    | .ok bs => bs.zipIdx.map fun b => (x.1 + b.2, b.1)
    | .error _ => []
  let bad := got.findSome? fun x => match x.2 with | .error c => some c | .ok _ => none
  let units := ascending (es.flatMap fun x => (List.range e).map fun i => (x.2.2 + i) / 32)
  { packetBase p core t.strand f m .txa t.id t.id with
    off := es.foldl (fun n x => min n x.2.2) ((es.head?.map fun x => x.2.2).getD 0)
    bytes := bytes
    tag := t.tag
    count := some (0, units.length)
    faulted := bad }

/-- The data packets to a member, in block order. -/
def Party.memberPackets (p : Party) (core : Nat) (t : Txa) (c : EngineCmd) (f : Flow) (m : Member) : List Packet :=
  let es := t.elems.filter fun x => x.2.1 == m.rank
  (ascending (es.map fun x => x.2.2 / 512)).map fun blk => p.blockPacket core t c f m (es.filter fun x => x.2.2 / 512 == blk)

/-- R465: a count-only packet. -/
def countPacketOf (p : Party) (core : Nat) (t : Txa) (f : Flow) (m : Member) (na ns : Nat) (bad : Option Cause) : Packet :=
  { packetBase p core t.strand f m .txa t.id t.id with
    fn := 1
    tag := t.tag
    count := some (na, ns)
    faulted := bad }

/-- R465: what one member is sent: its packets, and the count that is still to come. -/
def Party.toMember (p : Party) (core : Nat) (t : Txa) (c : EngineCmd) (f : Flow) (m : Member) :
    List Packet × Option (Nat × Nat × Nat) :=
  let ks := p.memberPackets core t c f m
  let units := ks.foldl (fun n k => n + (k.count.getD (0, 0)).2) 0
  let arv := if t.arv then 1 else 0
  if t.rel then
    (ks.map fun k => { k with count := none }, if ks = [] ∧ t.arv = false then none else some (m.rank, arv, units))
  else if !t.arv then (ks, none)
  else
    match ks.getLast? with
    | none => ([countPacketOf p core t f m 1 0 none], none)
    | some k =>
      if f.ordered || ks.length == 1 then (ks.dropLast ++ [{ k with count := k.count.map fun n => (1, n.2) }], none)
      else (ks, some (m.rank, 1, 0))

/-- The source has been read: the packets leave in ascending rank. -/
def State.sendTxa (s : State) (core : Nat) (p : Party) (t : Txa) (c : EngineCmd) (f : Flow) : State :=
  let out := t.members.map (p.toMember core t c f)
  let ks := out.flatMap Prod.fst
  let t1 := { t with
    stage := 1
    err := t.err || c.err || ks.any fun k => k.faulted.isSome
    counts := out.filterMap Prod.snd }
  (s.setParty core { p with txas := p.txas.map fun (x : Txa) => if x.id = t.id then t1 else x }).addPackets ks

/-- R466: a segment of the member's data failed. -/
def Party.rankFault (p : Party) (t : Txa) (c : EngineCmd) (rank : Nat) : Option Cause :=
  (t.elems.filter fun x => x.2.1 == rank).findSome? fun x => match p.elementBytes t c x.1 with | .error c => some c | .ok _ => none

/-- R465: counts whose turn has come: after every packet to the member, or, under release, after every packet. -/
def State.sendCounts (s : State) (core : Nat) (p : Party) (t : Txa) (c : EngineCmd) (f : Flow) : State :=
  let mine := s.packets.filter fun k => k.kind == .txa && k.owner == t.id
  let due := t.counts.filter fun n => if t.rel then mine == [] else !mine.any fun k => k.mem.rank == n.1
  let ks := due.filterMap fun n => (t.members.find? (·.rank == n.1)).map fun m =>
    countPacketOf p core t f m n.2.1 n.2.2 (if t.rel then p.rankFault t c m.rank else none)
  if due = [] then s
  else
    let t1 := { t with counts := t.counts.filter fun n => !due.contains n }
    (s.setParty core { p with txas := p.txas.map fun (x : Txa) => if x.id = t.id then t1 else x }).addPackets ks

/-- R466: the TXA is complete in its pitch. -/
def State.endTxa (s : State) (core : Nat) (p : Party) (t : Txa) : State :=
  let p1 := { p with
    txas := p.txas.filter fun (x : Txa) => x.id != t.id
    cmds := p.cmds.filter fun (c : EngineCmd) => c.id != t.id }
  (s.setParty core (p1.modStrand t.strand fun st => { st with pitch := st.pitch.finish t.pitch t.err })).pump core

/-- R40: the strand's earlier stores to a source in scratchpad have been performed, by the window or through a core-backed page. -/
def State.portClear (s : State) (core : Nat) (p : Party) (t : Txa) : Bool :=
  let offs := t.elems.flatMap fun x => (List.range (2 ^ t.esz)).map (x.1 + ·)
  !p.accesses.any fun a => a.strand == t.strand && a.id < t.id && (if a.loc then a.step == .attempt
    else t.inScratch && a.kind.writes && a.kind != .command && a.kind != .group && s.backedMeets core p.root a offs)

/-- One TXA goes on as far as it can. -/
def State.tendTxa (s : State) (core : Nat) (t : Txa) : State :=
  match s.party? core with
  | none => s
  | some p =>
    match p.cmd? t.id, p.flow? t.flow with
    | some c, some f =>
      if t.stage = 0 then
        if !c.segs.all Segment.finished || !s.portClear core p t then s
        else
          match s.commandAcquire core c with
          | none => s
          | some s1 =>
            match s1.party? core with
            | none => s1
            | some p1 =>
              if (t.members.flatMap fun m => (p1.toMember core t c f m).1).any (s1.packetBlocked core p1) then s
              else s1.sendTxa core p1 t c f
      else if t.counts ≠ [] then s.sendCounts core p t c f
      else if s.packets.any fun k => k.kind == .txa && k.owner == t.id then s
      else s.endTxa core p t
    | _, _ => s

def State.tendTxas (s : State) (core : Nat) : State :=
  match s.party? core with
  | none => s
  | some p => p.txas.foldl (fun s t => s.tendTxa core t) s

end

end Sys2Proof.Machine
end

