-- ==== Sys2Proof/Machine/Links.lean ====
section
/-!
DEFINITION. Machine/Links.lean: flits on the links and the fabric ports, their retry, module states (R431-R434, R441), and links that
go down (R439).
-/

namespace Sys2Proof.Machine

noncomputable section

-- sending flits (R431-R433)

/-- R433, R441: flits of the replay buffer. -/
def replayMax (l : Nat) : Nat := if isPort l then 256 else 512

/-- R432: the modules that carry flits, in ascending number. -/
def Link.active (x : Link) : List Nat :=
  (x.modules.zipIdx.filter fun m => m.1.alive && m.1.check.isNone).map Prod.snd
/-- R432: the next module in rotation. -/
def Link.nextModule (x : Link) : Option Nat := (x.active.find? (x.last < ·)).or x.active.head?

/-- R431: the message slots that a flit takes, seven at most: the messages that end in it, and the queue after it. -/
def takeSlots : Nat → List (Message × Nat) → List Message × List (Message × Nat)
  | _, [] => ([], [])
  | room, (m, n) :: t =>
    if n ≤ room then
      let (ms, rest) := takeSlots (room - n) t
      (m :: ms, rest)
    else ([], (m, n - room) :: t)

/-- The header of a flit sent on `l`: the acknowledgements for the other direction. -/
def State.header (s : State) (l : Nat) : Nat × Option (Nat × Nat) :=
  match kget s.links (revLink l) with
  | none => (1023, none)
  | some r => ((r.rx + 1023) % 1024, if r.nakDue then r.asked else none)

/-- R442: the flits of one hop are dealt over its active ports in rotation: it is the turn of `l`. A link that serves its hop alone
always has the turn. -/
def State.hasTurn (s : State) (l : Nat) (x : Link) : Bool :=
  let ports := (hopPorts l).filter fun k => s.linkUp k && (kget s.links k).any fun y => y.active != []
  ((ports.find? (x.dealt < ·)).or ports.head?) == some l

/-- The link whose waiting messages the next flit of `l` carries: messages wait at the port that led their hop when they came (R442). -/
def State.feed (s : State) (l : Nat) (x : Link) : Option Nat :=
  if x.buffer.length < replayMax l ∧ s.hasTurn l x = true then (hopPorts l).find? fun k => (kget s.links k).any fun y => y.queue != []
  else none

/-- What the sender of `l` has to send. -/
def State.hasWork (s : State) (l : Nat) (x : Link) : Bool :=
  x.due != [] || (s.feed l x).isSome || (kget s.links (revLink l)).any fun r => r.ackDue

/-- R432, R441: the time of a flit on a module, in 1/21 core cycles: 256 bytes at 64 or 32 lanes of 48 Gb/s, on a port at 8 or 4 lanes of
224 Gb/s. -/
def flitTime (l : Nat) (m : Module) : Nat :=
  let n := if isPort l then 96 else 56
  if m.low && m.high then n else 2 * n

/-- R432: the module is free in this cycle. -/
def Module.free (m : Module) (now : Nat) : Bool := decide (m.busy < 21 * (now + 1))

/-- A flit put on the wire; its module is busy with it. -/
def State.putFlit (s : State) (l : Nat) (x : Link) (f : Flit) : State :=
  let sends (m : Module) : Module := { m with busy := max m.busy (21 * s.now) + flitTime l m }
  let s1 := { s with links := kput s.links l { x with
    wire := x.wire ++ [f]
    last := f.module
    modules := x.modules.zipIdx.map fun (m, i) => if i = f.module then sends m else m } }
  (s1.modLink (revLink l) fun r => { r with ackDue := false, nakDue := false }).post (.flitReceive ⟨l, true⟩)

/-- R432: one flit starts: a replayed one first, then waiting messages, else acknowledgements alone. -/
def State.startFlit (s : State) (l : Nat) (x : Link) (m : Nat) : State :=
  let (ack, nak) := s.header l
  match x.due with
  | f :: rest =>
    let g := { f with module := m, ack := ack, nak := nak }
    s.putFlit l { x with
      due := rest
      buffer := x.buffer.map fun b => if b.seq = g.seq then g else b } g
  | [] =>
    match s.feed l x with
    | some k =>
      let (ms, rest) := takeSlots 7 (((kget s.links k).map Link.queue).getD [])
      let f : Flit := ⟨some x.seq, ms, m, ack, nak⟩
      let s1 := s.modLink k fun y => { y with queue := rest }
      let x0 := (kget s1.links l).getD x
      let x1 := { x0 with
        seq := (x.seq + 1) % 1024
        buffer := x.buffer ++ [f]
        since := if x.buffer = [] then s.now else x.since }
      let s2 := (s1.putFlit l x1 f).postOnce (.ackTimeout ⟨l⟩)
      (hopPorts l).foldl (fun s k => s.modLink k fun y => { y with dealt := l }) s2
    | none => s.putFlit l x ⟨none, [], m, ack, nak⟩

def execFlitStart (o : LinkRef) (s : State) : Out :=
  match kget s.links o.link with
  | none => .next s
  | some x =>
    if !s.linkUp o.link || !s.hasWork o.link x then .next s
    else
      match x.nextModule with
      | none => .next (s.postOnce (.flitStart o))
      | some m =>
        if !(x.modules[m]?).any fun k => k.free s.now then .next (s.postOnce (.flitStart o))
        else .next ((s.startFlit o.link x m).wakeLinks o.link)

-- a link goes down (R434, R439)

/-- A direction without traffic, whose numbers start again. -/
def Link.cleared (x : Link) : Link :=
  { x with queue := [], seq := 0, buffer := [], due := [], wire := [], rx := 0, asked := none, ackDue := false, nakDue := false,
           fails := 0 }

/-- A path uses a link, in either direction, or a hop that it serves. -/
def usesLink (path : List Nat) (l : Nat) : Bool := path.any fun k => (hopPorts k).contains l || (hopPorts k).contains (revLink l)

/-- A path between two dies in either direction crosses a link. -/
def State.crosses (s : State) (a b l : Nat) : Bool := (s.route a b).any (usesLink · l) || (s.route b a).any (usesLink · l)

/-- The messages on their way whose path uses a link. -/
def State.messagesOn (s : State) (l : Nat) : List Message :=
  (s.links.flatMap fun (_, x) =>
    x.queue.map Prod.fst ++ (x.buffer ++ x.due ++ x.wire).flatMap Flit.msgs).filter fun m => usesLink m.path l

/-- R439: a request sent again on the route there is now. -/
def State.resend (s : State) (r : Request) : State :=
  s.transmit (dieOfCore r.core) r.die r.ev (r.id.map fun i => (r.core, i))

/-- R439: an unresolved packet sent again. -/
def State.resendPacket (s : State) (k : Packet) : State :=
  let s1 := if k.step = .sent ∨ k.step = .judged then s.send k.src k.die (.collectivePacket ⟨k.id⟩) else s
  if k.asked then s1.send k.src k.die (.outcomeQueryTimer ⟨k.id, true⟩) else s1

/-- R434, R439: a link is DOWN: what was on it is lost. Requests and packets whose route used it are sent again, in id order, and those
whose message, response or outcome was on its way over it. -/
def State.linkDown (s : State) (l : Nat) : State :=
  let down (x : Link) : Link := { x.cleared with down := true }
  let s1 := (s.modLink l down).modLink (revLink l) down
  let lost := s.messagesOn l
  let onPacket (id : Nat) (m : Message) : Bool := match m.ev with
    | .collectivePacket k => k.id == id
    | .packetOutcome k => k.id == id
    | .outcomeQueryTimer k => k.id == id
    | _ => false
  let rs := s.requests.filter fun r => !r.held &&
    (s.crosses (dieOfCore r.core) r.die l || lost.any fun m => m.ev == r.ev || answers m.ev r.ev)
  let ks := s.packets.filter fun k => k.step != .waiting && (s.crosses k.src k.die l || lost.any (onPacket k.id))
  ks.foldl State.resendPacket (rs.foldl State.resend s1)

/-- R433: the oldest flit of a direction has failed once more: it is replayed from a sequence number, or after eight failures the
link is DOWN. -/
def State.replayFrom (s : State) (l : Nat) (x : Link) (q : Nat) : State :=
  if 8 ≤ x.fails + 1 then s.linkDown l
  else
    let x1 := { x with
      due := x.buffer.dropWhile fun f => f.seq != some q
      fails := x.fails + 1
      since := s.now }
    { s with links := kput s.links l x1 }.postOnce (.flitStart ⟨l⟩)

-- receiving (R433, R434)

/-- R433: a cumulative acknowledgement reaches the sender of `l`. -/
def Link.acked (x : Link) (now a : Nat) : Link :=
  if x.buffer.any fun f => f.seq == some a then
    let rest := (x.buffer.dropWhile fun f => f.seq != some a).drop 1
    { x with
      buffer := rest
      due := x.due.filter fun f => rest.any fun g => g.seq == f.seq
      fails := 0
      since := now }
  else x

/-- R433, R434: a negative acknowledgement reaches the sender of `l`: the module is checked, and the flits are replayed. -/
def State.takeNak (s : State) (l q m : Nat) : State :=
  match kget s.links l with
  | none => s
  | some x =>
    let checks := (x.modules[m]?).any fun k => k.alive && k.check.isNone
    let x1 := { x with modules := x.modules.zipIdx.map fun (k, i) =>
      if i = m ∧ checks = true then { k with check := some s.now, checks := k.checks + 1, changes := k.changes + 1 } else k }
    let s1 := { s with links := kput s.links l x1 }
    let s2 := if checks then s1.post (.moduleCheckEnd ⟨l, m, false, false⟩) else s1
    if x1.buffer.any fun f => f.seq == some q then s2.replayFrom l x1 q else s2

/-- The header of a flit that arrived on `l`; room in the replay buffer lets the sender go on. -/
def State.takeHeader (s : State) (l : Nat) (f : Flit) : State :=
  let back := revLink l
  let s0 := s.modLink back (·.acked s.now f.ack)
  let s1 := if (kget s0.links back).any (s0.hasWork back) then s0.wakeLinks back else s0
  match f.nak with
  | none => s1
  | some (q, m) => s1.takeNak back q m

/-- The receiver of `l` owes an acknowledgement. -/
def State.owesAck (s : State) (l : Nat) (f : Link → Link) : State :=
  (s.modLink l fun x => { f x with ackDue := true }).postOnce (.flitStart ⟨revLink l⟩)

/-- R433: a flit whose CRC passes. -/
def State.takeFlit (s : State) (l : Nat) (f : Flit) : State :=
  let s1 := s.takeHeader l f
  match kget s1.links l, f.seq with
  | some x, some q =>
    if !s1.linkUp l then s1
    else if q = x.rx then
      f.msgs.foldl State.onward (s1.owesAck l fun x => { x with rx := (x.rx + 1) % 1024, asked := none })
    else if (x.rx + 1024 - q) % 1024 ≤ 512 then s1.owesAck l id
    else s1
  | _, _ => s1

def execFlitReceive (o : FlitRecv) (s : State) : Out :=
  match kget s.links o.link with
  | none => .next s
  | some x =>
    match x.wire with
    | [] => .next s
    | f :: rest =>
      let s1 := { s with links := kput s.links o.link { x with wire := rest } }
      if !s.linkUp o.link then .next s1
      else if o.ok then .next (s1.takeFlit o.link f)
      else
        let s2 := s1.modLink o.link fun x => { x with modules := x.modules.zipIdx.map fun (m, i) =>
          if i = f.module then { m with crcs := m.crcs + 1 } else m }
        if x.asked.isSome && f.seq != some x.rx then .next s2
        else .next (s2.owesAck o.link fun x => { x with asked := some (f.seq.getD x.rx, f.module), nakDue := true })

/-- R433: 2,048 cycles without an acknowledgement of the oldest flit. -/
def execAckTimeout (o : LinkRef) (s : State) : Out :=
  match kget s.links o.link with
  | none => .next s
  | some x =>
    match x.buffer with
    | [] => .next s
    | f :: _ =>
      if s.now < x.since + 2048 then .next (s.postOnce (.ackTimeout o))
      else .next ((s.replayFrom o.link x (f.seq.getD 0)).postOnce (.ackTimeout o))

/-- R434: a module after a check that found failing lanes in its low half, in its high half. -/
def Module.checked (m : Module) (low high : Bool) : Module :=
  { m with low := m.low && !low, high := m.high && !high, check := none, changes := m.changes + 1 }

def execModuleCheckEnd (o : ModuleCheck) (s : State) : Out :=
  match kget s.links o.link with
  | none => .next s
  | some x =>
    match (x.modules[o.module]?).bind Module.check with
    | none => .next s
    | some t =>
      if s.now < t + 4096 then .next (s.post (.moduleCheckEnd o))
      else
        let x1 := { x with modules := x.modules.zipIdx.map fun (m, i) => if i = o.module then m.checked o.low o.high else m }
        let s1 := { s with links := kput s.links o.link x1 }
        if x1.alive then .next (s1.wakeLinks o.link)
        else if x.down then .next s1
        else .next (s1.linkDown o.link)

-- requests and packets without a route (R18, R237, R439)

/-- R439: a request that no route can carry fails. -/
def State.failRequest (s : State) (r : Request) : State :=
  let s1 := { s with requests := s.requests.erase r }
  let lost (core acc : Nat) (f : Access → LanePart → Bool) : State :=
    match s1.access? core acc with
    | none => s1
    | some a => s1.failAccess core a (a.faultOf (if a.fixed then .machineCheck else .homeUnreachable) (f a))
  let failSeg (core id seg : Nat) : State :=
    match (s1.party? core).bind (·.cmd? id) with
    | none => s1
    | some c => match c.seg? seg with
      | none => s1
      | some g => s1.stopSegment core id { g with out := none } .homeUnreachable g.ptr.toNat
  match r.ev with
  | .addDrainLine o => failSeg o.core o.op ((o.home.map Prod.fst).getD 0)
  | .transactionCommitStep o => s1.commitLost ⟨o.core, o.strand⟩ (o.line.getD 0)
  | .homeStore o =>
    match o.seg with
    | some (id, seg) => failSeg o.core id seg
    | none =>
    match kget (s1.core o.core).sb o.sb, s1.party? o.core with
    | some e, some p =>
      let s2 := s1.modCore o.core fun k => { k with sb := serase o.sb k.sb }
      let x := (p.strand e.strand).receiver
      s2.takeTrap ⟨o.core, e.strand, x⟩
        (receivedInfo .machineCheck (p.resumePc ((p.strand e.strand).slot x)) ⟨0, 0⟩ (BitVec.ofNat 64 (lineAddr o.line)) false)
    | some _, none => s1.modCore o.core fun k => { k with sb := serase o.sb k.sb }
    | none, _ => s1
  | .atomicRequest o => lost o.core o.acc fun _ q => q.lane == o.lane
  | .readRequest o => lost o.core o.acc fun _ q => q.step == .sent && q.place == .global o.line
  | .coreBackedAccess o => lost o.core o.acc fun _ q => q.lane == o.lane
  | _ => s1

/-- The window of a pair all of whose requests have failed takes up at the next id. -/
def State.skipIds (s : State) (core die : Nat) : State :=
  match s.txIds.find? fun x => x.1 == (core, die) with
  | none => s
  | some (_, i) =>
    let w := s.window die core
    s.setWindow { w with nx := i, held := [], given := [] }

/-- Requests whose die no route reaches fail. -/
def State.tendRequests (s : State) : State :=
  let dead := s.requests.filter fun r => (s.route (dieOfCore r.core) r.die).isNone || (s.route r.die (dieOfCore r.core)).isNone
  let s1 := dead.foldl State.failRequest s
  dead.foldl (fun s r => s.skipIds r.core r.die) s1

/-- R428: packets that no route serves any more are resolved by their sender. -/
def State.tendPackets (s : State) : State :=
  s.packets.foldl (fun s k =>
    if k.step = .waiting ∨ s.agenda.contains (.packetOutcome ⟨k.id⟩) = true then s
    else if s.fenced.contains k.die then (if k.step = .judged then s.post (.packetOutcome ⟨k.id⟩) else s.judgeHere k .failed .flowFailed)
    else if (s.route k.src k.die).isNone || (s.route k.die k.src).isNone then s.judgeHere k .noRoute .linkDown
    else s) s

end

end Sys2Proof.Machine
end

