-- ==== Sys2Proof/Machine/Bringup.lean ====
section
/-!
DEFINITION. Machine/Bringup.lean: package cold reset and bring-up (R497), LOADFW (R492), RETRAIN (R490), heartbeats and adoption
(R486, R487), the rack and tray roles (R468), sensors (R498), the power cap (R499), host accesses to the second tier (R495).
-/

namespace Sys2Proof.Machine

noncomputable section

-- roles (R468)

/-- A package whose host die answers. -/
def State.answering (s : State) (p : Nat) : Bool := (s.pkg p).ready && !s.fenced.contains (hostDie p)

/-- The packages that may hold a role: the rack's, or those of tray role - 1. -/
def roleScope (role : Nat) : List Nat :=
  if role = 0 then List.range 72 else (List.range 9).map fun k => 9 * (role - 1) + k

/-- The lowest-numbered package that may hold a role now. -/
def State.roleHolder (s : State) (role : Nat) : Option Nat := (roleScope role).find? s.answering

def State.setRole (s : State) (role : Nat) : State :=
  s.modBc fun b => { b with roles := match s.roleHolder role with
    | some p => kput b.roles role p
    | none => serase role b.roles }

/-- Every role is given to the lowest-numbered package that answers. -/
def State.electRoles (s : State) : State := (List.range 9).foldl State.setRole s

/-- The running items of a grid are reported failed with MACHINE_CHECK. -/
def State.failItems (s : State) (tag : BitVec 32) : State :=
  s.parties.foldl (fun s (c, p) =>
    if p.grid = tag then
      let s1 := p.batches.foldl (fun (s : State) b => s.retireBatch p.grid b) (s.failParty p c .machineCheck)
      s1.modParty c fun q => { q with items := [], batches := [] }
    else s) s

/-- R495: MSI-X vector 3. -/
def State.machineCheck (s : State) : State := { s with msix := s.msix ++ [3] }

/-- A command that has ended and whose record is not written: it had started if nothing refused it. -/
def lostRecord (r : CmdResult) : CmdResult := if r.cause = .none then { r with cause := .machineCheck } else r

/-- R468: the role state of a role holder, as its mirror in the next package's HBM holds it: the mirror is written before a change takes
effect, so that at each step it is the state itself (DEDUCED, log entry 127). -/
structure RoleMirror where
  bc : BaseCamp
  own : Ownership
  poolmap : Sparse Byte
  grids : List (Nat × Grid)
def State.roleMirror (s : State) : RoleMirror := ⟨s.bc, s.own, s.poolmap, s.grids⟩
/-- The next holder takes the role state from the mirror. -/
def State.fromMirror (s : State) (m : RoleMirror) : State := { s with bc := m.bc, own := m.own, poolmap := m.poolmap, grids := m.grids }

/-- Started commands without a record complete with MACHINE_CHECK, also those whose record waits. -/
def State.failCommands (s : State) : State :=
  let lost := s.bc.done.map fun (r, t) => (lostRecord r, t)
  let s1 := s.modBc fun b => { b with done := lost }
  let s2 := lost.foldl (fun s (r, _) => s.postOnce (.commandCompletion r)) s1
  let s3 := (s2.bc.active.filter fun a => a.wait != .record).foldl (fun s a =>
    let n := ((s.grid? a.grid).map Grid.failed).getD 0
    let s1 := if a.wait = .launch then s.failItems a.grid else s
    let m := ((s1.grid? a.grid).map Grid.failed).getD n
    s1.finishActive a .machineCheck (if a.wait = .launch then m else 0)) s2
  if s3.bc.done = [] then s3 else s3.machineCheck

/-- ROLE_TAKEOVER: the holder has stopped answering. -/
def execRoleTakeover (o : RoleRef) (s : State) : Out :=
  match kget s.bc.roles o.role with
  | none => .next s
  | some p =>
    if s.answering p then .next s
    else
      let s1 := (s.fromMirror s.roleMirror).setRole o.role
      .next (if o.role = 0 then s1.failCommands.dispatch else s1)

/-- The roles that a package holds are taken over. -/
def State.dropRoles (s : State) (p : Nat) : State :=
  (s.bc.roles.filter fun r => r.2 == p).foldl (fun s r => s.post (.roleTakeover ⟨r.1⟩)) s

-- bring-up (R492, R497)

/-- R37: the smallest granule of one fold that does not fit, when every package has `q` pooled granules, `c` entries of POOLMAP
name the fold's home and `n` of them lie below the fold. -/
def firstUnfit (q c n h : Nat) : Nat :=
  let k := if q ≤ n then 0 else (q - n + c - 1) / c
  1024 * k + (h ^^^ poolFold (1024 * k))

/-- R37: POOLLIM in granules under the bring-up POOLMAP. -/
def poolLimit (hbmEnd : Nat) : Nat :=
  (List.range 1024).foldl (fun m h =>
    min m (firstUnfit (hbmBytes / 65536 - hbmEnd) (if h % 72 < 16 then 15 else 14) (h / 72) h)) (2 ^ 32)

/-- The links of a package that train at bring-up: those between its dies. -/
def innerLinks (p : Nat) : List Nat := (List.range 32).map fun k => p * 64 + k

/-- R434: the modules of a direction of a link; whether each trains is a free value. -/
def State.newLink (s : State) (l : Nat) : Link :=
  Link.ofModules ((List.range (if isPort l then 1 else 16)).map fun m => Module.fresh (Config.trains s.fresh l m))

/-- Both directions of a link trained. -/
def State.trainLink (s : State) (l : Nat) : State :=
  { s with links := kput (kput s.links l (s.newLink l)) (revLink l) (s.newLink (revLink l)), fresh := s.fresh + 1 }

/-- R497 steps 4 to 7 for a package, and READY. -/
def State.bringUp (s : State) (p : Nat) (images : List (Nat × Image)) (direct : Nat) : State :=
  let s1 := (innerLinks p).foldl State.trainLink s
  let s2 := (List.range 18).foldl (fun s j =>
    if s.answering (portPeer p j).1 then s.trainLink (p * 64 + 32 + j) else s) s1
  let s3 := s2.modPkg p fun k => { k with
    images := images
    hbmEnd := direct / 65536
    poolLim := poolLimit (direct / 65536)
    ready := true }
  let map := (List.range 1024).foldl (fun m h => sput 0 m h (BitVec.ofNat 8 (h % 72))) s3.poolmap
  (State.electRoles { s3 with poolmap := map }).dispatch

/-- R492: the nine images of a bundle. -/
def bundleImages (bs : List Byte) : List (Nat × List Byte) := (List.range 9).map fun d => (d, Config.bundleImage d bs)

def execLoadFw (o : MailReq) (s : State) : Out :=
  serveMail o.host false (fun p s => !(s.pkg p).ready) (.loadFw o) (fun p s =>
    let d := s.mailData o.host 0 24
    let direct := fieldAt d 16 8
    let imgs := bundleImages (s.hostBytes o.host (fieldAt d 0 8) (fieldAt d 8 8))
    if direct % 65536 ≠ 0 ∨ hbmBytes < direct then s.mailDone o.host 5 []
    else if !imgs.all fun x => Config.imageOk x.2 then s.mailDone o.host 4 []
    else
      let olds := (s.pkg p).images
      (s.bringUp p (imgs.map fun (d, bs) => (d, imageOf (kget olds d) bs)) direct).mailDone o.host 0 []) s

-- RETRAIN (R490, R491)

/-- The direction of a link that a RETRAIN names, outward from its die. -/
def namedLink (p die link port : Nat) : Option Nat :=
  if link = 3 then (if port < 18 then some (p * 64 + 32 + port) else none)
  else if 8 ≤ die ∨ 16 ≤ port then none
  else
    match link with
    | 0 => some (p * 64 + 8 + die)
    | 1 => some (p * 64 + die)
    | 2 => some (p * 64 + 16 + die)
    | _ => none

/-- A link to a fenced die, or a port to a package that is not up, stays OFF. -/
def State.trainable (s : State) (p die l : Nat) : Bool :=
  if isPort l then s.answering (portPeer p (l % 64 - 32)).1
  else
    let k := l % 64
    let other := if k < 8 then p * 8 + (k + 1) % 8 else if k < 16 then p * 8 + (k + 7) % 8 else hostDie p
    !s.fenced.contains (p * 8 + die) && !s.fenced.contains other

/-- A module trained again, or OFF where it does not train; a change of state is counted. -/
def Module.retrained (k : Module) (on : Bool) : Module :=
  { k with
    low := on
    high := on
    check := none
    changes := if k.check = none ∧ k.low = on ∧ k.high = on then k.changes else k.changes + 1 }

/-- One module trained again, and the link up. -/
def Link.retrained (x : Link) (m : Nat) (on : Bool) : Link :=
  { x with modules := x.modules.zipIdx.map fun (k, i) => if i = m then k.retrained on else k, down := false }

/-- R434: the code of a module's state. -/
def Module.code (m : Module) : Nat :=
  if m.check.isSome then 2 else if m.low && m.high then 0 else if m.low || m.high then 1 else 3

/-- A module of a direction retrained; whether it trains is a free value. -/
def State.retrainModule (s : State) (l m : Nat) : State :=
  { s with links := kput s.links l (((kget s.links l).getD (s.newLink l)).retrained m (Config.trains s.fresh l m)) }

/-- Both directions of a module or port retrained; a link that was up and whose last module stays OFF goes down (R434). -/
def State.retrainLink (s : State) (l m : Nat) : State :=
  let both (s : State) : State := (s.retrainModule l m).retrainModule (revLink l) m
  let s1 := if s.linkUp l && !(both s).linkUp l then s.linkDown l else s
  (({ both s1 with fresh := s.fresh + 1 }).wakeLinks l).wakeLinks (revLink l)

def execRetrain (o : MailReq) (s : State) : Out :=
  serveMail o.host true whenReady (.retrain o) (fun p s =>
    let d := s.mailData o.host 0 3
    let die := fieldAt d 0 1
    match namedLink p die (fieldAt d 1 1) (fieldAt d 2 1) with
    | none => s.mailDone o.host 5 []
    | some l =>
      let m := if isPort l then 0 else fieldAt d 2 1
      let s1 := if s.trainable p die l then s.retrainLink l m else s
      let code := if s.trainable p die l then (((kget s1.links l).bind fun x => x.modules[m]?).map Module.code).getD 3 else 3
      s1.mailDone o.host 0 [BitVec.ofNat 8 code]) s

-- cold reset (R497)

/-- A die of a package, its host die among them. -/
def dieOfPkg (p d : Nat) : Bool := pkgOfDie d == p

/-- The parties of some cores vanish, their items reported failed (R487). -/
def State.loseParties (s : State) (lost : Nat → Bool) : State :=
  let gone := s.parties.filter fun x => lost x.1
  let s1 := gone.foldl (fun s (c, p) => State.removeParty (s.failParty p c .machineCheck) c) s
  if gone = [] then s1 else s1.machineCheck

/-- What a set of cores held. -/
def State.clearCores (s : State) (lost : Nat → Bool) : State :=
  { s with
    cores := s.cores.filter fun x => !lost x.1
    holds := s.holds.filter fun (h : CoreHold) => !lost h.core
    droops := s.droops.filter fun x => !lost x.1
    requests := s.requests.filter fun (r : Request) => !lost r.core
    windows := s.windows.filter fun (w : Window) => !lost w.core
    txIds := s.txIds.filter fun x => !lost x.1.1
    tlb := s.tlb.filter fun (t : TlbEntry) => !lost (4 * t.cluster)
    walks := s.walks.filter fun (t : WalkReq) => !lost (4 * t.cluster)
    walkFails := s.walkFails.filter fun (t : WalkFail) => !lost (4 * t.cluster) }

/-- What the dies of a package held. -/
def State.clearPkg (s : State) (p : Nat) : State :=
  let s1 := (List.range 50).foldl (fun s k => s.linkDown (p * 64 + k)) s
  { s1 with
    l2 := s1.l2.filter fun x => resPkg (lineAddr x.1) != p
    mts := s1.mts.filter fun x => !dieOfPkg p (x.1 / 16)
    plogs := s1.plogs.filter fun x => !dieOfPkg p (x.1 / 16)
    remotes := s1.remotes.filter fun (r : RemoteCopy) => r.pkg != p
    links := s1.links.filter fun x => x.1 / 64 != p
    windows := s1.windows.filter fun (w : Window) => !dieOfPkg p w.die
    txIds := s1.txIds.filter fun x => !dieOfPkg p x.1.2
    clocks := s1.clocks.filter fun x => !dieOfPkg p x.1
    flowRecs := s1.flowRecs.filter fun (f : FlowRec) => !dieOfPkg p f.die
    fenced := s1.fenced.filter fun d => !dieOfPkg p d
    misses := s1.misses.filter fun x => !dieOfPkg p x.1
    mailboxes := s1.mailboxes.filter fun x => hostPkg x.1 != some p
    mailQ := s1.mailQ.filter fun h => hostPkg h != some p }

/-- PACKAGE_COLD_RESET: every register takes its reset value. The rack's queue and ownership live while some package does. -/
def execPackageColdReset (o : PkgRef) (s : State) : Out :=
  let lost (c : Nat) : Bool := pkgOfCore c == o.pkg
  let s0 := s.modPkg o.pkg fun k => { k with ready := false }
  let s1 := ((s0.loseParties lost).clearCores lost).clearPkg o.pkg
  let s2 := s1.setPkg o.pkg { Pkg.reset with resetAt := s.now }
  if s2.pkgs.any fun x => x.2.ready then .next (s2.dropRoles o.pkg)
  else .next { s2 with
    bc := BaseCamp.reset
    own := ⟨none, [], none, []⟩ }

-- heartbeats (R486, R487)

/-- R486: the state of a die that its complex keeps mirrored in its clockwise neighbour's HBM, and the package controller's own copy of
its party table: at each step the state itself, as every change is written there before it takes effect (DEDUCED, log entry 127). -/
structure DieMirror where
  parties : List (Nat × Party)
  ranges : List (BitVec 32 × Nat × Nat)
  edges : List (BitVec 32 × List Nat)
  rings : List (BitVec 32 × Ring)
def State.dieMirror (s : State) (d : Nat) : DieMirror :=
  ⟨s.parties.filter fun x => dieOfCore x.1 == d, s.grids.map fun (_, g) => (g.tag, g.range d), s.grids.map fun (_, g) => (g.tag, g.edgeList d),
    s.grids.flatMap fun (_, g) => (g.rings.filter fun r => r.die == d).map fun r => (g.tag, r)⟩

def execHeartbeat (o : Heartbeat) (s : State) : Out :=
  if s.fenced.contains o.die || !(s.pkg (pkgOfDie o.die)).ready then .next s
  else if o.heard then .next { s with misses := serase o.die s.misses }
  else
    let n := (kget s.misses o.die).getD 0 + 1
    let s1 := { s with misses := kput s.misses o.die n }
    .next (if n = 3 then s1.post (.dieAdoption ⟨o.die⟩) else s1)

/-- The links of a die. -/
def linksOf (d : Nat) : List Nat :=
  if 576 ≤ d then (List.range 16).map (fun k => (d - 576) * 64 + 16 + k) ++ (List.range 18).map fun j => (d - 576) * 64 + 32 + j
  else
    let p := d / 8
    let k := d % 8
    [p * 64 + k, p * 64 + 8 + k, p * 64 + 16 + k]

/-- A compute die is fenced: its links go down, the parties that its mirror lists are lost, its ranges return (R391). -/
def State.fenceDie (s : State) (d : Nat) : State :=
  let table := (s.dieMirror d).parties.map Prod.fst
  let lost (c : Nat) : Bool := dieOfCore c == d || table.contains c
  let s1 := (linksOf d).foldl State.linkDown { s with fenced := (s.fenced ++ [d]).eraseDups }
  let s2 := (s1.loseParties lost).clearCores lost
  s2.grids.foldl (fun (s : State) g => s.returnRange (BitVec.ofNat 32 g.1) d) s2

/-- A failed host die takes its package out. -/
def State.fencePkg (s : State) (p : Nat) : State :=
  let h := hostDie p
  let s1 := (linksOf h).foldl State.linkDown
    { s with fenced := (s.fenced ++ h :: (List.range 8).map (p * 8 + ·)).eraseDups }
  ((List.range 8).foldl (fun s k => s.fenceDie (p * 8 + k)) s1).dropRoles p

/-- DIE_ADOPTION. -/
def execDieAdoption (o : DieRef) (s : State) : Out :=
  if s.fenced.contains o.die || decide ((kget s.misses o.die).getD 0 < 3) then .next s
  else
    let s1 := { s with misses := serase o.die s.misses }
    .next (if 576 ≤ o.die then s1.fencePkg (o.die - 576) else s1.fenceDie o.die)

-- sensors and power (R498, R499)

/-- R498: where a value of the sensor block lies and its bytes. -/
def sensorPlace (kind index : Nat) : Option (Nat × Nat) :=
  match kind with
  | 0 => if index < 256 then some (2 * index, 2) else none
  | 2 => if index < 16 then some (0x240 + 2 * index, 2) else none
  | 3 => if index < 9 then some (0x280 + 4 * index, 4) else none
  | 4 => some (0x2C0, 4)
  | _ => none

/-- R395: a new temperature of a core is looked at by its dispenser. -/
def State.newTemp (s : State) (core temp : Nat) : State :=
  if s.onHold core then
    { s with agenda := s.agenda.map fun i => match i with
        | .thermalHoldEnd r => if r.core = core then .thermalHoldEnd ⟨core, temp⟩ else i
        | i => i }
  else s.post (.thermalHoldEnter ⟨core, temp⟩)

def execSensorRefresh (o : SensorSample) (s : State) : Out :=
  match sensorPlace o.kind o.index with
  | none => .next s
  | some (at_, n) =>
    let s1 := s.modPkg o.pkg fun k => { k with sensors := scratchWrite k.sensors at_ (natBytes n o.value) }
    .next (if o.kind = 0 then s1.newTemp (o.pkg * 256 + o.index) (o.value % 65536) else s1)

/-- POWER_CAP_CHECK: matrix issue is gated from a power above PWRCAP until one below it. -/
def execPowerCapCheck (o : PowerSample) (s : State) : Out :=
  .next (s.modPkg o.pkg fun k => { k with
    gated := if k.pwrCap < o.watts then true else if o.watts < k.pwrCap then false else k.gated })

-- host accesses to memory (R495, R496)

/-- Where a byte of a host access lies: in the second tier of the package, or for the application cores at a physical address of HBM,
the pool or a second tier. -/
def State.hostPlace (s : State) (pkg : Nat) (app : Bool) (off : Nat) : Option Nat :=
  if app then (s.resolve off).filter fun r => !isMmioOff (resOff r)
  else if off < 2 ^ 40 then some (resolved pkg (0x80000000000 + off)) else none

/-- The bytes of a host's store from offset `off`, line by line, at their homes as never-cached stores at scope system; a line that a
commit holds keeps the rest waiting. -/
def hostStore (pkg : Nat) (app : Bool) : Nat → Nat → List Byte → State → State
  | 0, _, _, s => s
  | k + 1, off, bs, s =>
    if bs = [] then s
    else
      match s.hostPlace pkg app off with
      | none => s
      | some r =>
        let m := min bs.length (128 - off % 128)
        if s.locked (lineOf r) then s.post (.hostMemoryAccess ⟨pkg, off, bs.length, some (bytesNat bs), app⟩)
        else hostStore pkg app k (off + m) (bs.drop m) (if s.fenced.contains (homeDie r) then s else s.campStore r (bs.take m))

/-- The bytes that a host's read returns: the homes' bytes as they are. -/
def State.hostLoad (s : State) (o : HostAccess) : List Byte :=
  (List.range o.len).map fun i => ((s.hostPlace o.pkg o.app (o.off + i)).map s.readByte).getD 0

/-- HOST_MEMORY_ACCESS: a write is performed at its home; a read changes nothing (State.hostLoad). -/
def execHostMemoryAccess (o : HostAccess) (s : State) : Out :=
  if !(s.pkg o.pkg).ready then .next s
  else
    match o.data with
    | none => .next s
    | some v => .next (hostStore o.pkg o.app (o.len / 128 + 2) o.off (natBytes o.len v) s)

end

end Sys2Proof.Machine
end

