-- ==== Sys2Proof/Machine/Dispenser.lean ====
section
/-!
DEFINITION. Machine/Dispenser.lean: FETCH, WDONE, EMIT and FETCHB (R397-R407), bin timers (R406), steals in HASHED mode
(R394).
-/

namespace Sys2Proof.Machine

noncomputable section

/-- R387, R395, R399: what holds a FETCH. -/
def fetchReady (x : Ctx) (s : State) : Bool :=
  (s.party? x.w.core).all fun p => !p.bound x.w || s.fetchFree x.w.core p.grid 1

/-- R134: a producer whose write-back sets EX, or leaves it as it is. -/
def State.produceEx (s : State) (w : SlotRef) (marks : List Nat) (r : Result) : State :=
  (s.modSlot w fun l => { l with exPending := true }).produce w marks r none

/-- R398. -/
def execFetch (o : UR) (s : State) : Out :=
  issue (.fetch o) (fun x p => if p.bound x.w then p.itemLimit 1 (noTxn x p) else noTxn x p) fetchReady (fun x s =>
    if !((s.party? x.w.core).any fun p => p.bound x.w) then x.execFault s .fetchNotBound 0
    else
      let (it, s1) := s.obtain x.w
      .ok (s1.produceEx x.w (marksOf (roles (.fetch o)).dst) (.fetched o.d (.live x.w.slot) (it.getD 0) it.isNone)) (some x.w)) s

/-- R400: the party without an open item or batch of this id; none when nothing matches. -/
def Party.retire (p : Party) (v : Dword) : Option (Party × Option OpenBatch) :=
  match p.batches.find? (·.handle == v) with
  | some b => some ({ p with batches := p.batches.erase b }, some b)
  | none =>
    match p.items.find? (·.wid == v) with
    | some i => some ({ p with items := p.items.erase i }, none)
    | none => none

def execWdone (o : UR) (s : State) : Out :=
  issue (.wdone o) noPre always (fun x s =>
    match s.party? x.w.core with
    | none => .stall
    | some p =>
      let (v, p1) := p.srcU x.w o.a
      match p1.retire v with
      | none => x.execFault (s.setParty x.w.core p1) .wdoneNoitem v
      | some (p2, b) =>
        let s1 := s.setParty x.w.core p2
        .ok (match b with | some b => s1.retireBatch p.grid b | none => s1) (some x.w)) s

-- FETCHB (R407)

/-- Batches open or asked for. -/
def Party.batchCount (p : Party) : Nat :=
  p.batches.length + (p.producers.filter fun (_, q) => match q.res with | .batch _ _ _ => true | _ => false).length

/-- R387: a strand that a bin serves. -/
def State.binBound (s : State) (p : Party) (w : SlotRef) : Bool := p.bound w && (s.grid? p.grid).any fun g => g.hdr.bins != []

def execFetchb (o : UR) (s : State) : Out :=
  issue (.fetchb o) (fun x p => if p.bound x.w && 16 ≤ p.batchCount then some .illegalOperand else noTxn x p) always
    (fun x s =>
      match s.party? x.w.core with
      | none => .stall
      | some p =>
        let (v, p1) := p.srcU x.w o.a
        let s1 := s.setParty x.w.core p1
        if v.extractLsb' 32 32 ≠ 0 ∨ p.scratchSize < v.toNat + 32 then x.execFault s1 .scratchRange v
        else if v.toNat % 32 ≠ 0 then x.execFault s1 .misalignedAccess v
        else if !s.binBound p x.w then x.execFault s1 .fetchNotBound 0
        else .ok (s1.produceEx x.w (marksOf (roles (.fetchb o)).dst) (.batch o.d (.live x.w.slot) v.toNat)) (some x.w)) s

-- EMIT (R404, R405)

/-- The lanes of an EMIT with their record numbers, in ascending lane order: `y` is the bin. -/
def Grid.numberRecords (g : Grid) (die : Nat) : List LanePart → List (Nat × Nat) → List (LanePart × BinEntry × Nat)
  | [], _ => []
  | q :: t, used =>
    match g.bin? q.y with
    | none => Grid.numberRecords g die t used
    | some b =>
      let k := (kget used q.y).getD 0
      (q, b, (g.ring die q.y).tail + k) :: Grid.numberRecords g die t (kput used q.y (k + 1))

/-- R405: every ring has room. -/
def Grid.roomFor (g : Grid) (die : Nat) (rs : List (LanePart × BinEntry × Nat)) : Bool :=
  rs.all fun (q, b, n) => (g.ring die q.y).free b.cap n

/-- The words of the records, as parts of one store; `y` is the position in the list of records. -/
def recordWords (die : Nat) (rs : List (LanePart × BinEntry × Nat)) : List LanePart :=
  rs.zipIdx.flatMap fun ((q, b, n), i) => (List.range (b.recSz / 4)).map fun k =>
    { q with addr := b.slotAt die n + BitVec.ofNat 64 (4 * k), x := q.x / 2 ^ (32 * k) % 2 ^ 32, y := i }

/-- R402: a record store that reaches a page that is not TS. -/
def State.recordVerdict (s : State) (core : Nat) (p : Party) (a : Access) (q : LanePart) : Verdict :=
  let v := s.laneChecks core p { a with kind := .store, size := 4 } q
  let ts := (s.translate core p.root (q.addr.toNat % 2 ^ 56)).any fun t => pteCoh t.2.2 == 0 && pteHome t.2.2 != 3
  match v with
  | .ok _ => if ts then v else .bad 7 .attributeConflict
  | .bad n _ => if 7 < n && !ts then .bad 7 .attributeConflict else v
  | .wait _ => v

/-- The records of an EMIT appended: their stores enter the store buffer, one entry a line. -/
def State.appendRecords (s : State) (core : Nat) (p : Party) (a : Access) (rs : List (LanePart × BinEntry × Nat))
    (words : List LanePart) : State :=
  let die := dieOfCore core
  let s1 := s.watchLanes core { a with kind := .store, size := 4 } words
  let entries := Access.storeLines { a with kind := .store, size := 4, parts := words } fun _ => true
  let recsOf (line : Nat) : List (BitVec 32 × Nat × Nat) :=
    rs.zipIdx.filterMap fun ((q, _, n), i) =>
      if words.any fun w => w.y == i && w.place == .global line then some (p.grid, q.y, n) else none
  let s2 := rs.foldl (fun s (q, _, n) => s.modGrid p.grid fun g =>
    let r := g.ring die q.y
    g.putRing { r with tail := max r.tail (n + 1) }) s1
  entries.foldl (fun s (line, e) =>
    let recs := recsOf line
    let s := recs.foldl (fun s x => s.modGrid p.grid fun g =>
      let r := g.ring die x.2.1
      g.putRing { r with waits := r.waits ++ [x.2.2] }) s
    s.bufferStore core { e with recs := recs, root := p.root, remote := remoteTo core (lineAddr line) }) s2

/-- R405: two EMITs append to one ring. -/
def Access.sharesRing (a b : Access) : Bool :=
  (match a.op with | some (.emit _) => true | _ => false) && a.parts.any fun q => b.parts.any fun r => q.y == r.y

/-- R405: an EMIT that has issued appends its records, waits, goes to the operand log or fails. -/
def State.attemptEmit (s : State) (core : Nat) (a : Access) : State :=
  match s.party? core with
  | none => s
  | some p =>
    match s.grid? p.grid with
    | none => s
    | some g =>
      let die := dieOfCore core
      let rs := g.numberRecords die a.parts []
      let b : Access := { a with parts := rs.map fun (q, e, n) => { q with addr := e.slotAt die n } }
      let older := p.accesses.takeWhile (·.id != a.id)
      if (s.pkg (pkgOfCore core)).paused
          || older.any (fun c => c.strand == a.strand && (c.step == .attempt || c.step == .logWait)) then s
      else if older.any (fun c => c.strand == a.strand && c.step == .logged && c.sharesRing a && !c.samePage b) then s
      else if p.inLogBefore b then s.logAccess core b none
      else if !g.roomFor die rs then s
      else
        let words := recordWords die rs
        let s0 := s.preWalk core p.root true p.priv (words.map LanePart.addr)
        if s0.lanesWait core p.root true p.priv (words.map LanePart.addr) then { s0 with walkFails := s.walkFails }
        else
        let vs := words.map fun q => (q, s0.recordVerdict core p a q)
        let s1 := { s0 with walkFails := s.walkFails }
        match worst vs with
        | some (n, c) =>
          let isBad (q : LanePart) : Bool := vs.any fun v => v.1 == q && v.2 == .bad n c
          let f := Access.faultOf { a with parts := words } c isBad
          if c = .pageNotPresent then s1.logAccess core b (some f) else s1.failAccess core b f
        | none =>
          let ok := vs.map fun v => match v.2 with | .ok q => q | _ => v.1
          (s1.appendRecords core p a rs ok).dropAccess core a.id

/-- EMITs of a core that wait to append, in issue order. -/
def State.retryEmits (s : State) (core : Nat) : State :=
  match s.party? core with
  | none => s
  | some p =>
    (p.accesses.filter fun a => a.step == .attempt && (match a.op with | some (.emit _) => true | _ => false)).foldl
      (fun s a => s.attemptEmit core a) s

/-- The record of a lane: registers a upward. -/
def Strand.record256 (st : Strand) (a n : Nat) (i : Fin 32) : Nat :=
  bytesNat ((List.range n).flatMap fun k => natBytes 4 ((st.vreg (a + k))[i]).toNat)

def execEmit (o : LL) (s : State) : Out :=
  issue (.emit o) noTxn always (fun x s =>
    match s.party? x.w.core with
    | none => .stall
    | some p =>
      let (cs, p1) := p.src32 x.w o.c
      let st := p1.strand x.w.strand
      let act := p1.active x.w
      let g? := s.grid? p.grid
      let bin (i : Fin 32) : Option BinEntry := if (cs[i]).toNat < 256 then g?.bind (·.bin? (cs[i]).toNat) else none
      let lanes := laneList.filter (inMask act)
      let regs (i : Fin 32) : List Nat := (List.range (((bin i).map BinEntry.recSz).getD 4 / 4)).map (o.a.toNat + ·)
      let all := o.a.toNat :: lanes.flatMap regs
      let beside := p.shadows && x.w.strand < 8
      let bad := maskOf fun i => inMask act i && (bin i).isNone
      if all.any fun r => 87 < r || (beside && 72 ≤ r) then .fault .illegalOperand 0
      else if all.any fun r => !st.isFull r then (if o.ea then .fault .feEmpty 0 else .stall)
      else if bad != 0 then
        let first := (lanes.find? (inMask bad)).getD 0
        .trap { x.info { s.slotOf x.w with pc := x.pc } .binRange ((cs[first]).setWidth 64) with
          lane := lowLane bad, mask := bad } (s.setParty x.w.core p1)
      else
        match g? with
        | none => .stall
        | some g =>
          let parts := laneParts act fun i => (0, st.record256 o.a.toNat (((bin i).map BinEntry.recSz).getD 4 / 4) i,
            (cs[i]).toNat)
          if !g.roomFor (dieOfCore x.w.core) (g.numberRecords (dieOfCore x.w.core) parts []) then .stall
          else
            let a : Access := { x.access p1 .group 4 with
              id := s.nextId
              op := some (.emit o)
              pl1 := tab fun i => (st.vreg o.a.toNat)[i].setWidth 128
              pl3 := tab fun i => (cs[i]).setWidth 128
              parts := parts }
            let s1 := (s.setParty x.w.core { p1 with accesses := p1.accesses ++ [a] }).bump
            .ok (s1.attemptEmit x.w.core a) (some x.w)) s

-- events

/-- R406. While a whole grid is suspended its bins do not change (R410). -/
def execBinTimerExpiry (o : BinRef) (s : State) : Out :=
  match s.grid? o.grid with
  | none => .next s
  | some g =>
    let r := g.ring o.die o.bin
    match r.timer, g.bin? o.bin with
    | some t, some b =>
      if s.now < t ∨ g.whole = true then .next (s.post (.binTimerExpiry o))
      else .next (s.refreshRing o.grid b { r with timer := none, expired := true } r.pending false)
    | _, _ => .next s

/-- R394: the queue that an idle package takes from: the tray sibling with the most indices, else the fullest of the
rack. -/
def Grid.hashVictim (g : Grid) (pkg : Nat) : Option (Nat × List Nat) :=
  let best (f : Nat → Bool) : Option (Nat × List Nat) :=
    g.queues.foldl (fun acc q =>
      if q.1 != pkg && f q.1 && 2 ≤ q.2.length then
        match acc with
        | none => some q
        | some b => if b.2.length < q.2.length then some q else acc
      else acc) none
  match best fun q => q / 9 == pkg / 9 with
  | some q => some q
  | none => best fun _ => true

def execHashedSteal (o : GridPkg) (s : State) : Out :=
  match s.grid? o.grid with
  | none => .next s
  | some g =>
    match kget g.idle o.pkg with
    | none => .next s
    | some t =>
      if (kget g.queues o.pkg).getD [] != [] then .next (s.setGrid { g with idle := serase o.pkg g.idle })
      else if g.whole || s.now < t + g.hdr.stealIdle * 256 then .next (s.post (.hashedSteal o))
      else
        match g.hashVictim o.pkg with
        | none => .next (s.post (.hashedSteal o))
        | some (v, q) =>
          let keep := q.length - q.length / 2
          .next (s.setGrid { g with
            queues := kput (kput g.queues v (q.take keep)) o.pkg (q.drop keep)
            idle := serase o.pkg g.idle })

end

end Sys2Proof.Machine
end

