-- ==== Sys2Proof/Machine/Transcend.lean ====
section
/-!
DEFINITION. Machine/Transcend.lean: the F32 transcendentals (R213, R214) within the error that R68 allows. The value of a
function is computed in fixed point far past the precision of any result; a result that is not exact is one of the encodings
within the bound, by an open choice for each input (log entry 7).
-/

namespace Sys2Proof.Machine

def w32 (n : Nat) : Word := BitVec.ofNat 32 n
def canon32 : Word := 0x7FC00000

-- the results that R68 admits

/-- R66, R68: a result within `k` ulp of a value. -/
def within (k : Nat) (v r : Val) : Bool :=
  match v, vAdd r (vNeg v) with
  | .fin _ m e, some (.fin _ dm de) => !exceeds dm de k (f32.quantum m e)
  | _, _ => false

/-- The encoding `i` steps from zero on the side of a sign, below zero on the other side. -/
def stepEnc (neg : Bool) (i : Int) : Nat := f32.signBit (if i < 0 then !neg else neg) + i.natAbs

/-- The finite results within `k` ulp of a value, k at most 2: they lie within 4 steps of the value rounded toward zero. -/
def admitted (k : Nat) (v : Val) : List Nat :=
  let base : Int := (roundTo f32 .rtz v % 2 ^ 31 : Nat)
  ((List.range 9).map fun (i : Nat) => stepEnc (vSign v) (base + i - 4)).filter fun r => within k v (decodeF f32 r)

/-- An exact result is returned, and one beyond the range of F32, above or below, rounds as RNE does (R214); another is one of those
admitted. -/
def nearOf (k pick : Nat) (v : Val) : Word :=
  let r := roundTo f32 .rne v
  if decodeF f32 r = .inf (vSign v) ∨ roundTo f32 .rdn v = roundTo f32 .rup v ∨ roundTo f32 .rtz v % 2 ^ 31 = 0 then w32 r
  else
    let rs := admitted k v
    w32 (rs.getD (pick % rs.length) r)

-- fixed point: a value x is held as x * 2^512, rounded down

def fixBits : Nat := 512
def fixOne : Nat := 2 ^ fixBits

/-- A number that is not representable, close above n units of the fixed point scaled by 2^e; the sums below err by far less
than its distance from any F32 value. -/
def between (neg : Bool) (n : Nat) (e : Int) : Val := .fin neg (2 * n + 1) (e - fixBits - 1)

/-- e^x - 1 for x below 20: the sum of x^i / i! from the term `t` of number `i` on. -/
def expTail (x : Nat) : Nat → Nat → Nat → Nat
  | 0, _, _ => 0
  | k + 1, i, t => t + expTail x k (i + 1) (t * x / (fixOne * (i + 1)))
def fixExpm1 (x : Nat) : Nat := expTail x 240 1 x

/-- artanh z for z at most 1/3: the sum of z^i / i over odd i, from the power `p` on. -/
def artanhTail (zz : Nat) : Nat → Nat → Nat → Nat
  | 0, _, _ => 0
  | k + 1, i, p => p / i + artanhTail zz k (i + 2) (p * zz / fixOne)
def fixLn (num den : Nat) : Nat :=
  let z := (num - den) * fixOne / (num + den)
  2 * artanhTail (z * z / fixOne) 180 1 z
def fixLn2 : Nat := fixLn 2 1

/-- arctan (1 / n) from the term of odd number `i` on, 64 bits past the fixed point. -/
def arctanTail (nn : Nat) : Nat → Nat → Int → Int
  | 0, _, _ => 0
  | k + 1, i, p => p / i + arctanTail nn k (i + 2) (-p / nn)
def arctanInv (n : Nat) : Int := arctanTail (n * n) 130 1 ((2 ^ (fixBits + 64) : Nat) / n : Nat)
/-- π / 2 = 8 arctan (1/5) - 2 arctan (1/239). -/
def fixHalfPi : Nat := ((8 * arctanInv 5 - 2 * arctanInv 239) / 2 ^ 64).toNat

/-- The alternating sum of x^i / i! over every second i, from the term `t` of number `i` on. -/
def waveTail (x : Nat) : Nat → Nat → Nat → Int
  | 0, _, _ => 0
  | k + 1, i, t => (t : Int) - waveTail x k (i + 2) (t * x * x / (fixOne * fixOne * ((i + 1) * (i + 2))))
def fixSin (x : Nat) : Nat := (waveTail x 60 1 x).toNat
def fixCos (x : Nat) : Nat := (waveTail x 60 0 fixOne).toNat

-- the functions on a finite input m * 2^e

/-- The magnitude of an F32 value in fixed point: none of its bits is lost. -/
def fixOf (m : Nat) (e : Int) : Nat := m * 2 ^ (e + fixBits).toNat

/-- 2^x. -/
def exp2Val (neg : Bool) (m : Nat) (e : Int) : Val :=
  let x : Int := if neg then -(fixOf m e : Int) else fixOf m e
  let f := (x % fixOne).toNat
  if f = 0 then .fin false 1 (x / fixOne)
  else between false (fixOne + fixExpm1 (f * fixLn2 / fixOne)) (x / fixOne)

/-- log2 of a positive value. -/
def log2Val (m : Nat) (e : Int) : Val :=
  let b := m.log2
  let whole : Int := b + e
  if 2 ^ b = m then .fin (decide (whole < 0)) whole.natAbs 0
  else
    let y : Int := whole * fixOne + (fixLn m (2 ^ b) * fixOne / fixLn2 : Nat)
    between (decide (y < 0)) (if y < 0 then y.natAbs - 1 else y.natAbs) 0

/-- sin x for `turn` = 0, cos x for `turn` = 1, of x above 0: by the quarter turn that x falls into. -/
def waveVal (neg : Bool) (turn : Nat) (m : Nat) (e : Int) : Val :=
  let x := fixOf m e
  let q := x / fixHalfPi + turn
  let r := x % fixHalfPi
  between ((q / 2 % 2 == 1) != neg) (if q % 2 = 0 then fixSin r else fixCos r) 0

/-- tanh x = (e^2x - 1) / (e^2x + 1). -/
def tanhVal (neg : Bool) (m : Nat) (e : Int) : Val :=
  let y := fixExpm1 (2 * fixOf m e)
  between neg (y * fixOne / (y + 2 * fixOne)) 0

-- the instructions (R213, R214)

def frcp (a : Word) : Word :=
  match decodeF f32 a.toNat with
  | .nan => w32 (f32.quiet a.toNat)
  | .inf neg => w32 (f32.signBit neg)
  | .fin neg m e =>
    if m = 0 then w32 (f32.infinity neg)
    else
      let (n, q) := stickyDiv 1 m (-e)
      nearOf 1 (Config.frcp a) (.fin neg n q)

def frsq (a : Word) : Word :=
  match decodeF f32 a.toNat with
  | .nan => w32 (f32.quiet a.toNat)
  | .inf neg => if neg then canon32 else 0
  | .fin neg m e =>
    if m = 0 then w32 (f32.infinity neg)
    else if neg then canon32
    else
      -- 1 / √(m 2^e) = √(2^k / m) 2^(-(e + k) / 2), with a sticky bit of the whole quotient
      let k : Nat := 300 + (e % 2).toNat
      let n := 2 ^ k / m
      let r := isqrt n
      let sticky := if r * r * m = 2 ^ k then 0 else 1
      nearOf 1 (Config.frsq a) (.fin false (2 * r + sticky) (-((e + k) / 2) - 1))

/-- A magnitude m * 2^e is at least h / 2. -/
def atLeastHalves (m : Nat) (e : Int) (h : Nat) : Bool := !exceeds h (-1) m e

def fexp2 (a : Word) : Word :=
  match decodeF f32 a.toNat with
  | .nan => w32 (f32.quiet a.toNat)
  | .inf neg => if neg then 0 else w32 (f32.infinity false)
  | .fin neg m e =>
    if !neg && atLeastHalves m e 256 then w32 (f32.infinity false)
    else if neg && exceeds m e 150 0 then 0
    else nearOf 1 (Config.fexp2 a) (exp2Val neg m e)

def flog2 (a : Word) : Word :=
  match decodeF f32 a.toNat with
  | .nan => w32 (f32.quiet a.toNat)
  | .inf neg => if neg then canon32 else w32 (f32.infinity false)
  | .fin neg m e =>
    if m = 0 then w32 (f32.infinity true)
    else if neg then canon32
    else nearOf 1 (Config.flog2 a) (log2Val m e)

def fsin (a : Word) : Word :=
  match decodeF f32 a.toNat with
  | .nan => w32 (f32.quiet a.toNat)
  | .inf _ => canon32
  | .fin neg m e => if m = 0 then a else nearOf 1 (Config.fsin a) (waveVal neg 0 m e)

def fcos (a : Word) : Word :=
  match decodeF f32 a.toNat with
  | .nan => w32 (f32.quiet a.toNat)
  | .inf _ => canon32
  | .fin _ m e => if m = 0 then 0x3F800000 else nearOf 1 (Config.fcos a) (waveVal false 1 m e)

def ftanh (a : Word) : Word :=
  match decodeF f32 a.toNat with
  | .nan => w32 (f32.quiet a.toNat)
  | .inf neg => w32 (f32.signBit neg + 0x3F800000)
  | .fin neg m e =>
    if m = 0 then a
    else if atLeastHalves m e 19 then w32 (f32.signBit neg + 0x3F800000)
    else nearOf 2 (Config.ftanh a) (tanhVal neg m e)

end Sys2Proof.Machine
end

