-- ==== Sys2Proof/Machine/LaneFloat.lean ====
section
/-!
DEFINITION. Machine/LaneFloat.lean: the floating-point and conversion instructions of the lane engine (R203-R222).
-/

namespace Sys2Proof.Machine

noncomputable section

/-- A 32-bit lane operation on encodings of a format of at most 32 bits; the result is zero-extended (R203). -/
def wordOp2 (g : Nat → Nat → Nat) (x y : Word) : Word := w32 (g x.toNat y.toNat)
def wordOp3 (g : Nat → Nat → Nat → Nat) (x y d : Word) : Word := w32 (g x.toNat y.toNat d.toNat)
def pairOp2 (g : Nat → Nat → Nat) (x y : Dword) : Dword := BitVec.ofNat 64 (g x.toNat y.toNat)
def pairOp3 (g : Nat → Nat → Nat → Nat) (x y d : Dword) : Dword := BitVec.ofNat 64 (g x.toNat y.toNat d.toNat)

/-- R216: both elements of a packed pair, each on its own. -/
def packed2 (g : Nat → Nat → Nat) (x y : Word) : Word :=
  w32 (g (x.toNat % 65536) (y.toNat % 65536) + 65536 * g (x.toNat / 65536) (y.toNat / 65536))
def packed3 (g : Nat → Nat → Nat → Nat) (x y d : Word) : Word :=
  w32 (g (x.toNat % 65536) (y.toNat % 65536) (d.toNat % 65536)
    + 65536 * g (x.toNat / 65536) (y.toNat / 65536) (d.toNat / 65536))

-- R206-R208: the arithmetic families
def execFaddF64 (o : LR) (s : State) : Out := pair2 (.faddF64 o) o (pairOp2 (fAdd f64)) s
def execFaddF32 (o : LR) (s : State) : Out := lane2 (.faddF32 o) o (wordOp2 (fAdd f32)) s
def execFaddF16 (o : LR) (s : State) : Out := lane2 (.faddF16 o) o (wordOp2 (fAdd f16)) s
def execFaddB16 (o : LR) (s : State) : Out := lane2 (.faddB16 o) o (wordOp2 (fAdd b16)) s
def execFsubF64 (o : LR) (s : State) : Out := pair2 (.fsubF64 o) o (pairOp2 (fSub f64)) s
def execFsubF32 (o : LR) (s : State) : Out := lane2 (.fsubF32 o) o (wordOp2 (fSub f32)) s
def execFsubF16 (o : LR) (s : State) : Out := lane2 (.fsubF16 o) o (wordOp2 (fSub f16)) s
def execFsubB16 (o : LR) (s : State) : Out := lane2 (.fsubB16 o) o (wordOp2 (fSub b16)) s
def execFmulF64 (o : LR) (s : State) : Out := pair2 (.fmulF64 o) o (pairOp2 (fMul f64)) s
def execFmulF32 (o : LR) (s : State) : Out := lane2 (.fmulF32 o) o (wordOp2 (fMul f32)) s
def execFmulF16 (o : LR) (s : State) : Out := lane2 (.fmulF16 o) o (wordOp2 (fMul f16)) s
def execFmulB16 (o : LR) (s : State) : Out := lane2 (.fmulB16 o) o (wordOp2 (fMul b16)) s
def execFfmaF64 (o : LR) (s : State) : Out := pair3 (.ffmaF64 o) o (pairOp3 (fFma f64)) s
def execFfmaF32 (o : LR) (s : State) : Out := lane3 (.ffmaF32 o) o (wordOp3 (fFma f32)) s
def execFfmaF16 (o : LR) (s : State) : Out := lane3 (.ffmaF16 o) o (wordOp3 (fFma f16)) s
def execFfmaB16 (o : LR) (s : State) : Out := lane3 (.ffmaB16 o) o (wordOp3 (fFma b16)) s
def execFnmaF64 (o : LR) (s : State) : Out := pair3 (.fnmaF64 o) o (pairOp3 (fFnma f64)) s
def execFnmaF32 (o : LR) (s : State) : Out := lane3 (.fnmaF32 o) o (wordOp3 (fFnma f32)) s
def execFnmaF16 (o : LR) (s : State) : Out := lane3 (.fnmaF16 o) o (wordOp3 (fFnma f16)) s
def execFnmaB16 (o : LR) (s : State) : Out := lane3 (.fnmaB16 o) o (wordOp3 (fFnma b16)) s
def execFminF64 (o : LR) (s : State) : Out := pair2 (.fminF64 o) o (pairOp2 (fMin f64)) s
def execFminF32 (o : LR) (s : State) : Out := lane2 (.fminF32 o) o (wordOp2 (fMin f32)) s
def execFminF16 (o : LR) (s : State) : Out := lane2 (.fminF16 o) o (wordOp2 (fMin f16)) s
def execFminB16 (o : LR) (s : State) : Out := lane2 (.fminB16 o) o (wordOp2 (fMin b16)) s
def execFmaxF64 (o : LR) (s : State) : Out := pair2 (.fmaxF64 o) o (pairOp2 (fMax f64)) s
def execFmaxF32 (o : LR) (s : State) : Out := lane2 (.fmaxF32 o) o (wordOp2 (fMax f32)) s
def execFmaxF16 (o : LR) (s : State) : Out := lane2 (.fmaxF16 o) o (wordOp2 (fMax f16)) s
def execFmaxB16 (o : LR) (s : State) : Out := lane2 (.fmaxB16 o) o (wordOp2 (fMax b16)) s
/-- R208: producers. -/
def execFdivF64 (o : LR) (s : State) : Out :=
  pairProducer (.fdivF64 o) o.d (fun w p => tab fun k => pairOp2 (fDiv f64) (p.src64 w o.a)[k] (p.src64 w o.b)[k]) s
def execFdivF32 (o : LR) (s : State) : Out := laneProd2 (.fdivF32 o) o (wordOp2 (fDiv f32)) s
def execFdivF16 (o : LR) (s : State) : Out := laneProd2 (.fdivF16 o) o (wordOp2 (fDiv f16)) s
def execFdivB16 (o : LR) (s : State) : Out := laneProd2 (.fdivB16 o) o (wordOp2 (fDiv b16)) s
def execFsqrtF64 (o : LR) (s : State) : Out :=
  pairProducer (.fsqrtF64 o) o.d (fun w p => tab fun k => BitVec.ofNat 64 (fSqrt f64 (p.src64 w o.a)[k].toNat)) s
def execFsqrtF32 (o : LR) (s : State) : Out := laneProd1 (.fsqrtF32 o) o (fun x => w32 (fSqrt f32 x.toNat)) s
def execFsqrtF16 (o : LR) (s : State) : Out := laneProd1 (.fsqrtF16 o) o (fun x => w32 (fSqrt f16 x.toNat)) s
def execFsqrtB16 (o : LR) (s : State) : Out := laneProd1 (.fsqrtB16 o) o (fun x => w32 (fSqrt b16 x.toNat)) s

-- R209-R211: compares and classes
def execFcmpF64 (o : LC) (s : State) : Out :=
  comparePair (.fcmpF64 o) o (fun x y => fcmpHolds f64 o.cc.toNat x.toNat y.toNat) s
def execFcmpF32 (o : LC) (s : State) : Out :=
  compare2 (.fcmpF32 o) o (fun x y => fcmpHolds f32 o.cc.toNat x.toNat y.toNat) s
def execFcmpF16 (o : LC) (s : State) : Out :=
  compare2 (.fcmpF16 o) o (fun x y => fcmpHolds f16 o.cc.toNat x.toNat y.toNat) s
def execFcmpB16 (o : LC) (s : State) : Out :=
  compare2 (.fcmpB16 o) o (fun x y => fcmpHolds b16 o.cc.toNat x.toNat y.toNat) s
/-- R211: the type of FCLASS. -/
def classFmt (t : Nat) : Fmt := match t with | 0 => f64 | 1 => f32 | 2 => f16 | _ => b16
def execFclass (o : LCI) (s : State) : Out :=
  issueParty (.fclass o) (fun x p =>
    if o.cc = 0 then
      let a := p.src64 x.w o.a
      p.dstMask x.w o.md.toNat fun k => o.imm.getLsbD (classOf f64 a[k].toNat)
    else
      let (a, p1) := p.src32 x.w o.a
      let f := classFmt o.cc.toNat
      p1.dstMask x.w o.md.toNat fun k => o.imm.getLsbD (classOf f (a[k].toNat % 2 ^ f.width))) s

/-- R212: one level of the tree: each sum at a multiple of 2h takes its right neighbour at distance h. -/
def treeLevel (h : Nat) (u : List Nat) : List Nat :=
  (List.range 32).map fun k => if k % (2 * h) = 0 then fAdd f32 (u.getD k 0) (u.getD (k + h) 0) else u.getD k 0
/-- R212: the fixed tree over the lanes; inactive lanes give -0. -/
def treeSum (m : Word) (a : Lanes Word) : Word :=
  let u := laneList.map fun j => if inMask m j then a[j].toNat else 0x80000000
  w32 (([1, 2, 4, 8, 16].foldl (fun u h => treeLevel h u) u).getD 0 0)
def execFredadd (o : LR) (s : State) : Out := cross1 (.fredadd o) o.d o.a (fun m a => splat (treeSum m a)) s

-- R213-R215: the F32 transcendentals
def execFrcp (o : LR) (s : State) : Out := laneProd1 (.frcp o) o frcp s
def execFrsq (o : LR) (s : State) : Out := laneProd1 (.frsq o) o frsq s
def execFexp2 (o : LR) (s : State) : Out := laneProd1 (.fexp2 o) o fexp2 s
def execFlog2 (o : LR) (s : State) : Out := laneProd1 (.flog2 o) o flog2 s
def execFsin (o : LR) (s : State) : Out := laneProd1 (.fsin o) o fsin s
def execFcos (o : LR) (s : State) : Out := laneProd1 (.fcos o) o fcos s
def execFtanh (o : LR) (s : State) : Out := laneProd1 (.ftanh o) o ftanh s
def execFsincos (o : LR) (s : State) : Out :=
  issue (.fsincos o) noPre always (fun x s =>
    match s.party? x.w.core with
    | none => .stall
    | some p =>
      let (a, p1) := p.src32 x.w o.a
      .ok ((s.setParty x.w.core p1).produceTimed (.fsincos o) x.w [o.d.toNat, o.d.toNat + 1]
        (.pairs o.d.toNat (p.active x.w) (tab fun k => fcos a[k] ++ fsin a[k]))) (some x.w)) s

-- R216, R217: packed pairs
def execHadd2 (o : LR) (s : State) : Out := lane2 (.hadd2 o) o (packed2 (fAdd f16)) s
def execHmul2 (o : LR) (s : State) : Out := lane2 (.hmul2 o) o (packed2 (fMul f16)) s
def execHfma2 (o : LR) (s : State) : Out := lane3 (.hfma2 o) o (packed3 (fFma f16)) s
def execBadd2 (o : LR) (s : State) : Out := lane2 (.badd2 o) o (packed2 (fAdd b16)) s
def execBmul2 (o : LR) (s : State) : Out := lane2 (.bmul2 o) o (packed2 (fMul b16)) s
def execBfma2 (o : LR) (s : State) : Out := lane3 (.bfma2 o) o (packed3 (fFma b16)) s
def packTo (g : Fmt) (x y : Word) : Word :=
  w32 (fConv f32 g .rne x.toNat + 65536 * fConv f32 g .rne y.toNat)
def execB2pack (o : LR) (s : State) : Out := lane2 (.b2pack o) o (packTo b16) s
def execH2pack (o : LR) (s : State) : Out := lane2 (.h2pack o) o (packTo f16) s

-- R218-R220: FCVT
/-- The float types of FCVT. -/
def cvtFmt (t : Nat) : Fmt := match t with | 0 => f64 | 1 => f32 | 2 => f16 | _ => b16
/-- The integer types: signed, width. -/
def cvtIntType (t : Nat) : Bool × Nat := match t with | 4 => (true, 32) | 5 => (false, 32) | 6 => (true, 64) | _ => (false, 64)
def cvtMode (r : Nat) : Mode := match r with | 0 => .rne | 1 => .rtz | 2 => .rdn | _ => .rup
/-- R219: the conversion of one lane's bits. -/
def convert (src dst rnd : Nat) (a : Dword) : Dword :=
  if src < 4 then
    let f := cvtFmt src
    let n := a.toNat % 2 ^ f.width
    if dst < 4 then BitVec.ofNat 64 (fConv f (cvtFmt dst) (cvtMode rnd) n)
    else BitVec.ofInt 64 (fToInt f (cvtIntType dst).1 (cvtIntType dst).2 (cvtMode rnd) n)
  else
    let (sg, w) := cvtIntType src
    let v : Int :=
      if w = 32 then (if sg then (a.setWidth 32).toInt else (a.setWidth 32).toNat) else (if sg then a.toInt else a.toNat)
    if dst < 4 then BitVec.ofNat 64 (intToF (cvtFmt dst) (cvtMode rnd) v)
    else BitVec.ofInt 64 (saturate (cvtIntType dst).1 (cvtIntType dst).2 v)
def execFcvt (o : LI) (s : State) : Out :=
  issueParty (.fcvt o) (fun x p =>
    let src := (cvtFrom o).toNat
    let dst := (cvtTo o).toNat
    let f := convert src dst (o.imm.toNat % 4)
    let (a, p1) :=
      if cvtWide (cvtFrom o) then (p.src64 x.w o.a, p)
      else
        let (v, p1) := p.src32 x.w o.a
        (tab fun k => v[k].setWidth 64, p1)
    if cvtWide (cvtTo o) then p1.dst64 x.w o.d (tab fun k => f a[k])
    else p1.dst32 x.w o.d (tab fun k => (f a[k]).setWidth 32)) s

-- R221, R222: narrow formats
/-- The FMT register that imm8[7:5] names. -/
def Party.narrowFmt (p : Party) (w : SlotRef) (o : LI) : Fmt :=
  fmtOfCode ((p.strand w.strand).fmt[(o.imm.extractLsb' 5 3).toNat]?.getD 0)
/-- The position field imm8[4:2]. -/
def narrowPos (o : LI) : Nat := (o.imm.extractLsb' 2 3).toNat
/-- R221: an invalid code, or a byte position above 3. -/
def narrowPre (o : LI) (x : Ctx) (p : Party) : Option Cause :=
  let f := p.narrowFmt x.w o
  if !f.valid || (5 ≤ f.width && 4 ≤ narrowPos o) then some .illegalOperand else none
/-- The container's low bit and width (R51). -/
def narrowAt (f : Fmt) (pos : Nat) : Nat × Nat := if f.width ≤ 4 then (4 * pos, 4) else (8 * pos, 8)
def execNcvt (o : LI) (s : State) : Out :=
  issueParty? (.ncvt o) (narrowPre o) (fun x p =>
    let f := p.narrowFmt x.w o
    let (lo, w) := narrowAt f (narrowPos o)
    let act := p.active x.w
    let rs := o.imm.toNat % 4 = 2
    let old := (p.strand x.w.strand).rng
    let rng := tab fun k => if rs && inMask act k then stochasticStep old[k] else old[k]
    let (a, p1) := p.src32 x.w o.a
    let (d, p2) := p1.src32 x.w o.d
    let mode (k : Fin 32) : Mode := match o.imm.toNat % 4 with
      | 0 => .rne | 1 => .rtz | 2 => .rs rng[k].toNat | _ => .rneSat
    let p3 := p2.modStrand x.w.strand fun st => { st with rng := rng }
    p3.dst32 x.w o.d (tab fun k => insertField d[k] (w32 (roundTo f (mode k) (decodeF f32 a[k].toNat))) lo w)) s
def execNexp (o : LI) (s : State) : Out :=
  issueParty? (.nexp o) (narrowPre o) (fun x p =>
    let f := p.narrowFmt x.w o
    let (lo, w) := narrowAt f (narrowPos o)
    let (a, p1) := p.src32 x.w o.a
    p1.dst32 x.w o.d (tab fun k =>
      w32 (roundTo f32 .rne (decodeF f ((fieldOf a[k] lo w).toNat % 2 ^ f.width))))) s

end

end Sys2Proof.Machine
end

