-- ==== Sys2Proof/Machine/LaneInt.lean ====
section
/-!
DEFINITION. Machine/LaneInt.lean: the integer, compare and cross-lane instructions of the lane engine (R189-R201).
-/

namespace Sys2Proof.Machine

noncomputable section

-- R189: the 32-bit register forms
def execVadd (o : LR) (s : State) : Out := lane2 (.vadd o) o (fun x y => x + y) s
def execVsub (o : LR) (s : State) : Out := lane2 (.vsub o) o (fun x y => x - y) s
/-- R191. -/
def execVadds (o : LR) (s : State) : Out := lane2 (.vadds o) o (fun x y => satS32 (x.toInt + y.toInt)) s
def execVsubs (o : LR) (s : State) : Out := lane2 (.vsubs o) o (fun x y => satS32 (x.toInt - y.toInt)) s
def execVaddsn (o : LR) (s : State) : Out := lane2 (.vaddsn o) o (fun x y => satN32 (x.toNat + y.toNat)) s
def execVsubsn (o : LR) (s : State) : Out :=
  lane2 (.vsubsn o) o (fun x y => satN32 ((x.toNat : Int) - (y.toNat : Int))) s
def execVmul (o : LR) (s : State) : Out := lane2 (.vmul o) o (fun x y => x * y) s
def execVmulh (o : LR) (s : State) : Out := lane2 (.vmulh o) o (fun x y => mulHigh x.toInt y.toInt) s
def execVmulhn (o : LR) (s : State) : Out := lane2 (.vmulhn o) o (fun x y => mulHigh x.toNat y.toNat) s
def execVmad (o : LR) (s : State) : Out := lane3 (.vmad o) o (fun x y d => x * y + d) s
/-- R190. -/
def execVdiv (o : LR) (s : State) : Out := laneProd2 (.vdiv o) o sdivide s
def execVdivn (o : LR) (s : State) : Out := laneProd2 (.vdivn o) o udivide s
def execVrem (o : LR) (s : State) : Out := laneProd2 (.vrem o) o sremain s
def execVremn (o : LR) (s : State) : Out := laneProd2 (.vremn o) o uremain s
def execVmin (o : LR) (s : State) : Out := lane2 (.vmin o) o minS s
def execVmax (o : LR) (s : State) : Out := lane2 (.vmax o) o maxS s
def execVminn (o : LR) (s : State) : Out := lane2 (.vminn o) o minU s
def execVmaxn (o : LR) (s : State) : Out := lane2 (.vmaxn o) o maxU s
def execVand (o : LR) (s : State) : Out := lane2 (.vand o) o (fun x y => x &&& y) s
def execVor (o : LR) (s : State) : Out := lane2 (.vor o) o (fun x y => x ||| y) s
def execVxor (o : LR) (s : State) : Out := lane2 (.vxor o) o (fun x y => x ^^^ y) s
def execVandn (o : LR) (s : State) : Out := lane2 (.vandn o) o (fun x y => x &&& ~~~y) s
def execVshl (o : LR) (s : State) : Out := lane2 (.vshl o) o (fun x y => x <<< (y.toNat % 32)) s
def execVshr (o : LR) (s : State) : Out := lane2 (.vshr o) o (fun x y => x >>> (y.toNat % 32)) s
def execVsar (o : LR) (s : State) : Out := lane2 (.vsar o) o (fun x y => x.sshiftRight (y.toNat % 32)) s
def execVrot (o : LR) (s : State) : Out := lane2 (.vrot o) o (fun x y => x.rotateLeft (y.toNat % 32)) s
def execVabs (o : LR) (s : State) : Out := lane1 (.vabs o) o (fun x => if x.toInt < 0 then -x else x) s
def execVneg (o : LR) (s : State) : Out := lane1 (.vneg o) o (fun x => -x) s
def execVclz (o : LR) (s : State) : Out := lane1 (.vclz o) o (fun x => BitVec.ofNat 32 (clz x)) s
def execVpop (o : LR) (s : State) : Out := lane1 (.vpop o) o (fun x => BitVec.ofNat 32 (popCount x)) s
def execVbrev (o : LR) (s : State) : Out := lane1 (.vbrev o) o reverseBits s
/-- VSEL reads all of m7 (R185, R189). -/
def execVsel (o : LR) (s : State) : Out :=
  issueParty (.vsel o) (fun x p =>
    let (a, p1) := p.src32 x.w o.a
    let (b, p2) := p1.src32 x.w o.b
    p2.dst32 x.w o.d (tab fun k => if inMask ((p.strand x.w.strand).mreg 7) k then a[k] else b[k])) s
/-- R192. -/
def execVbfxn (o : LR) (s : State) : Out :=
  lane2 (.vbfxn o) o (fun x y => fieldOf x (field32 y).1 (field32 y).2) s
def execVbfxs (o : LR) (s : State) : Out :=
  lane2 (.vbfxs o) o (fun x y => signField (fieldOf x (field32 y).1 (field32 y).2) (field32 y).2) s
def execVbfi (o : LR) (s : State) : Out :=
  lane3 (.vbfi o) o (fun x y d => insertField d x (field32 y).1 (field32 y).2) s
def execVmov (o : LR) (s : State) : Out := lane1 (.vmov o) o (fun x => x) s
/-- R193. -/
def execVmrank (o : LR) (s : State) : Out := cross1 (.vmrank o) o.d o.a (fun m a => tab fun i => rankOf m a i) s

-- R194: the 64-bit pair forms
def execVadd64 (o : LR) (s : State) : Out := pair2 (.vadd64 o) o (fun x y => x + y) s
def execVsub64 (o : LR) (s : State) : Out := pair2 (.vsub64 o) o (fun x y => x - y) s
def execVmul64 (o : LR) (s : State) : Out := pair2 (.vmul64 o) o (fun x y => x * y) s
def execVmulw (o : LR) (s : State) : Out := widen2 (.vmulw o) o (fun x y => BitVec.ofInt 64 (x.toInt * y.toInt)) s
def execVmulwn (o : LR) (s : State) : Out := widen2 (.vmulwn o) o (fun x y => BitVec.ofNat 64 (x.toNat * y.toNat)) s
def execVshl64 (o : LR) (s : State) : Out := pairShift (.vshl64 o) o (fun x n => x <<< n) s
def execVshr64 (o : LR) (s : State) : Out := pairShift (.vshr64 o) o (fun x n => x >>> n) s
def execVsar64 (o : LR) (s : State) : Out := pairShift (.vsar64 o) o (fun x n => x.sshiftRight n) s

-- R195: the immediate forms
def execVaddi (o : LI) (s : State) : Out := laneI (.vaddi o) o (fun x y => x + y) (imm32 o) s
def execVandi (o : LI) (s : State) : Out := laneI (.vandi o) o (fun x y => x &&& y) (imm32 o) s
def execVori (o : LI) (s : State) : Out := laneI (.vori o) o (fun x y => x ||| y) (imm32 o) s
def execVxori (o : LI) (s : State) : Out := laneI (.vxori o) o (fun x y => x ^^^ y) (imm32 o) s
def execVshli (o : LI) (s : State) : Out := laneI (.vshli o) o (fun x _ => x <<< immCount o) (imm32 o) s
def execVshri (o : LI) (s : State) : Out := laneI (.vshri o) o (fun x _ => x >>> immCount o) (imm32 o) s
def execVsari (o : LI) (s : State) : Out := laneI (.vsari o) o (fun x _ => x.sshiftRight (immCount o)) (imm32 o) s
def execVmuli (o : LI) (s : State) : Out := laneI (.vmuli o) o (fun x y => x * y) (imm32 o) s
def execVroti (o : LI) (s : State) : Out := laneI (.vroti o) o (fun x _ => x.rotateLeft (immCount o)) (imm32 o) s
def execVmovi (o : LI) (s : State) : Out :=
  issueParty (.vmovi o) (fun x p => p.dst32 x.w o.d (splat (imm32 o))) s

-- R196, R197: compares into masks
def execVcmp (o : LC) (s : State) : Out := compare2 (.vcmp o) o (fun x y => ccHolds o.cc.toNat x y) s
def execVcmpi (o : LCI) (s : State) : Out :=
  issueParty (.vcmpi o) (fun x p =>
    let (a, p1) := p.src32 x.w o.a
    p1.dstMask x.w o.md.toNat fun k => ccHolds o.cc.toNat a[k] (o.imm.signExtend 32)) s
def execVcmp64 (o : LC) (s : State) : Out := comparePair (.vcmp64 o) o (fun x y => ccHolds o.cc.toNat x y) s

-- R198-R201: cross-lane instructions
def execVshfl (o : LR) (s : State) : Out :=
  cross2 (.vshfl o) o (fun _ a b => tab fun i => a[b[i].toNat % 32]'(Nat.mod_lt _ (by decide))) s
def execVxch (o : LI) (s : State) : Out :=
  cross1 (.vxch o) o.d o.a (fun _ a => tab fun i => a[(i.val ^^^ immCount o) % 32]'(Nat.mod_lt _ (by decide))) s
def execVrotl (o : LI) (s : State) : Out :=
  cross1 (.vrotl o) o.d o.a (fun _ a => tab fun i => a[(i.val + 32 - immCount o) % 32]'(Nat.mod_lt _ (by decide))) s
def execVbcast (o : LI) (s : State) : Out :=
  cross1 (.vbcast o) o.d o.a (fun _ a => tab fun _ => a[immCount o]'(Nat.mod_lt _ (by decide))) s
def execVscan (o : LR) (s : State) : Out := cross2 (.vscan o) o (scanSums false) s
def execVscanx (o : LR) (s : State) : Out := cross2 (.vscanx o) o (scanSums true) s
def execVredadd (o : LR) (s : State) : Out := cross1 (.vredadd o) o.d o.a (reduceLanes fun x y => x + y) s
def execVredmin (o : LR) (s : State) : Out := cross1 (.vredmin o) o.d o.a (reduceLanes minS) s
def execVredmax (o : LR) (s : State) : Out := cross1 (.vredmax o) o.d o.a (reduceLanes maxS) s
def execVredminn (o : LR) (s : State) : Out := cross1 (.vredminn o) o.d o.a (reduceLanes minU) s
def execVredmaxn (o : LR) (s : State) : Out := cross1 (.vredmaxn o) o.d o.a (reduceLanes maxU) s
def execVredand (o : LR) (s : State) : Out := cross1 (.vredand o) o.d o.a (reduceLanes fun x y => x &&& y) s
def execVredor (o : LR) (s : State) : Out := cross1 (.vredor o) o.d o.a (reduceLanes fun x y => x ||| y) s
def execVredxor (o : LR) (s : State) : Out := cross1 (.vredxor o) o.d o.a (reduceLanes fun x y => x ^^^ y) s

end

end Sys2Proof.Machine
end

