-- ==== Sys2Proof/Machine/Thermal.lean ====
section
/-!
DEFINITION. Machine/Thermal.lean: thermal and droop holds (R395, R396).
-/

namespace Sys2Proof.Machine

noncomputable section

/-- A slot stands at an instruction that asks for work and that only a hold keeps from issuing. -/
def State.asksAt (s : State) (core : Nat) (p : Party) (w : SlotRef) : Bool :=
  p.bound w && p.slotReady w &&
    match s.instrAt core p.root p.priv (p.slot w).pc with
    | none => false
    | some i =>
      let n := match i with
        | .fetch _ => 1
        | i => fetchCount i
      n != 0 && p.operandsReady w i && (p.issueFault w i (p.itemLimit n none)).isNone

/-- R395: a FETCH, or a pop of q3 (R398), of the core waits. -/
def State.asksForItem (s : State) (core : Nat) : Bool :=
  (s.party? core).any fun p =>
    p.status == .running && (List.range 16).any fun i => s.asksAt core p ⟨core, i, .a⟩ || s.asksAt core p ⟨core, i, .b⟩

/-- R395: a FETCH, FETCHB or pop of q3 of the core waits. -/
def State.asksForWork (s : State) (core : Nat) : Bool :=
  s.asksForItem core || (s.party? core).any fun p =>
    p.status == .running && p.producers.any fun (_, q) => match q.res with | .batch _ _ _ => true | _ => false

/-- R396: one notice for each hold, when work is first asked for on it. -/
def State.noticeHold (s : State) (core : Nat) : State :=
  match s.holds.find? fun h => h.core == core && !h.noticed with
  | none => s
  | some _ =>
    if s.asksForWork core then
      { s.modParty core (·.dispenserNotice (s.cyc core) .thermalHold) with
        holds := s.holds.map fun h => if h.core = core then { h with noticed := true } else h }
    else s

/-- R498: the temperature of a core in the sensor block, in units of 0.25 degrees. -/
def State.coreTemp (s : State) (core : Nat) : Nat :=
  let m := (s.pkg (pkgOfCore core)).sensors
  scratchRead m (2 * (core % 256)) 2

/-- R395: the coolest core of a set, the lowest among equals. -/
def State.coolest (s : State) (cores : List Nat) : Option Nat :=
  cores.foldl (fun acc c => match acc with
    | none => some c
    | some b => if s.coreTemp c < s.coreTemp b || (s.coreTemp c == s.coreTemp b && c < b) then some c else acc) none

/-- R395: one die of a grid all of whose compute cores have a FETCH waiting on hold releases its coolest core. -/
def State.releaseCoolest (s : State) (g : Grid) (die : Nat) : State :=
  let mine := g.compute.filter fun c => dieOfCore c == die && (s.party? c).any fun p => p.grid == g.tag
  if mine != [] && mine.all fun c => s.onHold c && s.asksForItem c then
    match s.coolest mine with
    | some c => { s with holds := s.holds.filter fun h => h.core != c }
    | none => s
  else s

/-- What the die dispensers do about holds at the end of a cycle. -/
def State.tendHolds (s : State) : State :=
  let s1 := s.holds.foldl (fun s h => s.noticeHold h.core) s
  let dies := (s1.holds.map fun h => dieOfCore h.core).eraseDups
  s1.grids.foldl (fun s g => dies.foldl (fun s d => s.releaseCoolest g.2 d) s) s1

/-- Droop events of a core within the window. -/
def State.droopsOf (s : State) (core : Nat) : Nat :=
  let w := (s.pkg (pkgOfCore core)).droopWin
  (((kget s.droops core).getD []).filter fun t => s.now < t + w).length
def State.droopExcess (s : State) (core : Nat) : Bool := (s.pkg (pkgOfCore core)).droopMax < s.droopsOf core

/-- R395: a core enters thermal hold; the hold's end is looked for from then on. -/
def State.enterHold (s : State) (core temp : Nat) : State :=
  if s.onHold core then s
  else (State.post { s with holds := s.holds ++ [CoreHold.mk core s.now false] } (.thermalHoldEnd ⟨core, temp⟩)).noticeHold core

def execThermalHoldEnter (o : ThermalRef) (s : State) : Out :=
  if (s.pkg (pkgOfCore o.core)).tHi * 4 < o.temp ∨ s.droopExcess o.core = true then .next (s.enterHold o.core o.temp)
  else .next s

/-- R395: the hold ends when the temperature is low and no droop is in excess, or after HOLDMAX cycles; else it is looked for
again. -/
def execThermalHoldEnd (o : ThermalRef) (s : State) : Out :=
  match s.holds.find? (·.core == o.core) with
  | none => .next s
  | some h =>
    let k := s.pkg (pkgOfCore o.core)
    if (o.temp < k.tLo * 4 ∧ s.droopExcess o.core = false) ∨ h.since + k.holdMax ≤ s.now then
      .next { s with holds := s.holds.filter fun h => h.core != o.core }
    else .next (s.post (.thermalHoldEnd o))

/-- R498: the droop count of the core's die rises; R395: it may put the core on hold. -/
def execDroopEvent (o : CoreRef) (s : State) : Out :=
  let w := (s.pkg (pkgOfCore o.core)).droopWin
  let old := ((kget s.droops o.core).getD []).filter fun t => s.now < t + w
  let off := 0x200 + 4 * (o.core % 256 / 32)
  let s1 := { s with droops := kput s.droops o.core (old ++ [s.now]) }.modPkg (pkgOfCore o.core) fun k =>
    { k with sensors := scratchWrite k.sensors off (natBytes 4 (scratchRead k.sensors off 4 + 1)) }
  if s1.droopExcess o.core then .next (s1.enterHold o.core (s1.coreTemp o.core)) else .next s1

end

end Sys2Proof.Machine
end

