-- ==== Sys2Proof/Machine/Dispatch.lean ====
section
/-!
DEFINITION. Machine/Dispatch.lean: exec, one arm for each constructor of Instr.
-/

namespace Sys2Proof.Machine

open Host in noncomputable def exec (i : Instr) (s : State) : Host.Outcome State Fault Refusal :=
  match i with
  | .packageColdReset o => Sys2Proof.Machine.execPackageColdReset o s
  | .illegalOpcode o => Sys2Proof.Machine.execIllegalOpcode o s
  | .sleepExpiry o => Sys2Proof.Machine.execSleepExpiry o s
  | .rngseedWrite o => Sys2Proof.Machine.execRngseedWrite o s
  | .barcfgWrite o => Sys2Proof.Machine.execBarcfgWrite o s
  | .scopeWrite o => Sys2Proof.Machine.execScopeWrite o s
  | .wpctlWrite o => Sys2Proof.Machine.execWpctlWrite o s
  | .matrixOpComplete o => Sys2Proof.Machine.execMatrixOpComplete o s
  | .producerWriteback o => Sys2Proof.Machine.execProducerWriteback o s
  | .trapDelivery o => Sys2Proof.Machine.execTrapDelivery o s
  | .partyHalt o => Sys2Proof.Machine.execPartyHalt o s
  | .debugHalt o => Sys2Proof.Machine.execDebugHalt o s
  | .partyEnd o => Sys2Proof.Machine.execPartyEnd o s
  | .partySave o => Sys2Proof.Machine.execPartySave o s
  | .pageWalk o => Sys2Proof.Machine.execPageWalk o s
  | .faultService o => Sys2Proof.Machine.execFaultService o s
  | .faultTimeout o => Sys2Proof.Machine.execFaultTimeout o s
  | .readRequest o => Sys2Proof.Machine.execReadRequest o s
  | .readResponse o => Sys2Proof.Machine.execReadResponse o s
  | .storeDrain o => Sys2Proof.Machine.execStoreDrain o s
  | .homeStore o => Sys2Proof.Machine.execHomeStore o s
  | .storeAcknowledgement o => Sys2Proof.Machine.execStoreAcknowledgement o s
  | .atomicRequest o => Sys2Proof.Machine.execAtomicRequest o s
  | .atomicResponse o => Sys2Proof.Machine.execAtomicResponse o s
  | .addDrainLine o => Sys2Proof.Machine.execAddDrainLine o s
  | .transactionCommitStep o => Sys2Proof.Machine.execTransactionCommitStep o s
  | .coreBackedAccess o => Sys2Proof.Machine.execCoreBackedAccess o s
  | .poisonDetect o => Sys2Proof.Machine.execPoisonDetect o s
  | .driftTick o => Sys2Proof.Machine.execDriftTick o s
  | .rebase o => Sys2Proof.Machine.execRebase o s
  | .rebaseSweep o => Sys2Proof.Machine.execRebaseSweep o s
  | .segmentLand o => Sys2Proof.Machine.execSegmentLand o s
  | .segmentFail o => Sys2Proof.Machine.execSegmentFail o s
  | .copyCompletion o => Sys2Proof.Machine.execCopyCompletion o s
  | .anchorCountEvent o => Sys2Proof.Machine.execAnchorCountEvent o s
  | .thermalHoldEnter o => Sys2Proof.Machine.execThermalHoldEnter o s
  | .thermalHoldEnd o => Sys2Proof.Machine.execThermalHoldEnd o s
  | .droopEvent o => Sys2Proof.Machine.execDroopEvent o s
  | .binTimerExpiry o => Sys2Proof.Machine.execBinTimerExpiry o s
  | .hashedSteal o => Sys2Proof.Machine.execHashedSteal o s
  | .packetAccept o => Sys2Proof.Machine.execPacketAccept o s
  | .collectivePacket o => Sys2Proof.Machine.execCollectivePacket o s
  | .packetApply o => Sys2Proof.Machine.execPacketApply o s
  | .packetOutcome o => Sys2Proof.Machine.execPacketOutcome o s
  | .outcomeQueryTimer o => Sys2Proof.Machine.execOutcomeQueryTimer o s
  | .flitReceive o => Sys2Proof.Machine.execFlitReceive o s
  | .ackTimeout o => Sys2Proof.Machine.execAckTimeout o s
  | .moduleCheckEnd o => Sys2Proof.Machine.execModuleCheckEnd o s
  | .heartbeat o => Sys2Proof.Machine.execHeartbeat o s
  | .dieAdoption o => Sys2Proof.Machine.execDieAdoption o s
  | .roleTakeover o => Sys2Proof.Machine.execRoleTakeover o s
  | .powerCapCheck o => Sys2Proof.Machine.execPowerCapCheck o s
  | .nopCommand o => Sys2Proof.Machine.execNopCommand o s
  | .launch o => Sys2Proof.Machine.execLaunch o s
  | .preempt o => Sys2Proof.Machine.execPreempt o s
  | .resume o => Sys2Proof.Machine.execResume o s
  | .semsig o => Sys2Proof.Machine.execSemsig o s
  | .semwait o => Sys2Proof.Machine.execSemwait o s
  | .ibuf o => Sys2Proof.Machine.execIbuf o s
  | .mapupdate o => Sys2Proof.Machine.execMapupdate o s
  | .hostcopy o => Sys2Proof.Machine.execHostcopy o s
  | .timestamp o => Sys2Proof.Machine.execTimestamp o s
  | .debugCmd o => Sys2Proof.Machine.execDebugCmd o s
  | .commandCompletion o => Sys2Proof.Machine.execCommandCompletion o s
  | .qtailWrite o => Sys2Proof.Machine.execQtailWrite o s
  | .qbaseWrite o => Sys2Proof.Machine.execQbaseWrite o s
  | .qctlEn o => Sys2Proof.Machine.execQctlEn o s
  | .qctlSkip o => Sys2Proof.Machine.execQctlSkip o s
  | .cqheadWrite o => Sys2Proof.Machine.execCqheadWrite o s
  | .fqheadWrite o => Sys2Proof.Machine.execFqheadWrite o s
  | .cohparamWrite o => Sys2Proof.Machine.execCohparamWrite o s
  | .holdWrite o => Sys2Proof.Machine.execHoldWrite o s
  | .registerWrite o => Sys2Proof.Machine.execRegisterWrite o s
  | .claim o => Sys2Proof.Machine.execClaim o s
  | .claimWindowExpiry => Sys2Proof.Machine.execClaimWindowExpiry s
  | .ownerLinkTimeout => Sys2Proof.Machine.execOwnerLinkTimeout s
  | .handover o => Sys2Proof.Machine.execHandover o s
  | .releaseOwner o => Sys2Proof.Machine.execReleaseOwner o s
  | .loadFw o => Sys2Proof.Machine.execLoadFw o s
  | .stageFw o => Sys2Proof.Machine.execStageFw o s
  | .switchFw o => Sys2Proof.Machine.execSwitchFw o s
  | .attest o => Sys2Proof.Machine.execAttest o s
  | .retrain o => Sys2Proof.Machine.execRetrain o s
  | .hostMemoryAccess o => Sys2Proof.Machine.execHostMemoryAccess o s
  | .instructionFetchFault o => Sys2Proof.Machine.execInstructionFetchFault o s
  | .reservedField o => Sys2Proof.Machine.execReservedField o s
  | .flitStart o => Sys2Proof.Machine.execFlitStart o s
  | .hostLinkChange o => Sys2Proof.Machine.execHostLinkChange o s
  | .sensorRefresh o => Sys2Proof.Machine.execSensorRefresh o s
  | .ldb o => Sys2Proof.Machine.execLdb o s
  | .ldbs o => Sys2Proof.Machine.execLdbs o s
  | .ldh o => Sys2Proof.Machine.execLdh o s
  | .ldhs o => Sys2Proof.Machine.execLdhs o s
  | .ldw o => Sys2Proof.Machine.execLdw o s
  | .ldd o => Sys2Proof.Machine.execLdd o s
  | .ldq o => Sys2Proof.Machine.execLdq o s
  | .stb o => Sys2Proof.Machine.execStb o s
  | .sth o => Sys2Proof.Machine.execSth o s
  | .stw o => Sys2Proof.Machine.execStw o s
  | .std o => Sys2Proof.Machine.execStd o s
  | .stq o => Sys2Proof.Machine.execStq o s
  | .tagst o => Sys2Proof.Machine.execTagst o s
  | .tagld o => Sys2Proof.Machine.execTagld o s
  | .cpw o => Sys2Proof.Machine.execCpw o s
  | .cpd o => Sys2Proof.Machine.execCpd o s
  | .cpq o => Sys2Proof.Machine.execCpq o s
  | .cpws o => Sys2Proof.Machine.execCpws o s
  | .cpds o => Sys2Proof.Machine.execCpds o s
  | .cpqs o => Sys2Proof.Machine.execCpqs o s
  | .tbegin o => Sys2Proof.Machine.execTbegin o s
  | .tcommit o => Sys2Proof.Machine.execTcommit o s
  | .tcancel o => Sys2Proof.Machine.execTcancel o s
  | .atom o => Sys2Proof.Machine.execAtom o s
  | .ldo o => Sys2Proof.Machine.execLdo o s
  | .sto o => Sys2Proof.Machine.execSto o s
  | .cprow o => Sys2Proof.Machine.execCprow o s
  | .xput o => Sys2Proof.Machine.execXput o s
  | .xget o => Sys2Proof.Machine.execXget o s
  | .xred o => Sys2Proof.Machine.execXred o s
  | .xamo o => Sys2Proof.Machine.execXamo o s
  | .xsig o => Sys2Proof.Machine.execXsig o s
  | .emit o => Sys2Proof.Machine.execEmit o s
  | .sadd o => Sys2Proof.Machine.execSadd o s
  | .ssub o => Sys2Proof.Machine.execSsub o s
  | .smul o => Sys2Proof.Machine.execSmul o s
  | .smulh o => Sys2Proof.Machine.execSmulh o s
  | .smulhn o => Sys2Proof.Machine.execSmulhn o s
  | .sdiv o => Sys2Proof.Machine.execSdiv o s
  | .sdivn o => Sys2Proof.Machine.execSdivn o s
  | .srem o => Sys2Proof.Machine.execSrem o s
  | .sremn o => Sys2Proof.Machine.execSremn o s
  | .sand o => Sys2Proof.Machine.execSand o s
  | .sor o => Sys2Proof.Machine.execSor o s
  | .sxor o => Sys2Proof.Machine.execSxor o s
  | .sandn o => Sys2Proof.Machine.execSandn o s
  | .sshl o => Sys2Proof.Machine.execSshl o s
  | .sshr o => Sys2Proof.Machine.execSshr o s
  | .ssar o => Sys2Proof.Machine.execSsar o s
  | .smin o => Sys2Proof.Machine.execSmin o s
  | .smax o => Sys2Proof.Machine.execSmax o s
  | .sminn o => Sys2Proof.Machine.execSminn o s
  | .smaxn o => Sys2Proof.Machine.execSmaxn o s
  | .sclz o => Sys2Proof.Machine.execSclz o s
  | .spop o => Sys2Proof.Machine.execSpop o s
  | .sbfx o => Sys2Proof.Machine.execSbfx o s
  | .sbfi o => Sys2Proof.Machine.execSbfi o s
  | .scmp o => Sys2Proof.Machine.execScmp o s
  | .ssel o => Sys2Proof.Machine.execSsel o s
  | .smov o => Sys2Proof.Machine.execSmov o s
  | .srot o => Sys2Proof.Machine.execSrot o s
  | .saddi o => Sys2Proof.Machine.execSaddi o s
  | .sandi o => Sys2Proof.Machine.execSandi o s
  | .sori o => Sys2Proof.Machine.execSori o s
  | .sxori o => Sys2Proof.Machine.execSxori o s
  | .sshli o => Sys2Proof.Machine.execSshli o s
  | .sshri o => Sys2Proof.Machine.execSshri o s
  | .ssari o => Sys2Proof.Machine.execSsari o s
  | .scmpi o => Sys2Proof.Machine.execScmpi o s
  | .smuli o => Sys2Proof.Machine.execSmuli o s
  | .scset o => Sys2Proof.Machine.execScset o s
  | .slimz o => Sys2Proof.Machine.execSlimz o s
  | .slimk o => Sys2Proof.Machine.execSlimk o s
  | .sldw o => Sys2Proof.Machine.execSldw o s
  | .sldd o => Sys2Proof.Machine.execSldd o s
  | .sstw o => Sys2Proof.Machine.execSstw o s
  | .sstd o => Sys2Proof.Machine.execSstd o s
  | .mand o => Sys2Proof.Machine.execMand o s
  | .mor o => Sys2Proof.Machine.execMor o s
  | .mxor o => Sys2Proof.Machine.execMxor o s
  | .mandn o => Sys2Proof.Machine.execMandn o s
  | .mnot o => Sys2Proof.Machine.execMnot o s
  | .mpop o => Sys2Proof.Machine.execMpop o s
  | .mffs o => Sys2Proof.Machine.execMffs o s
  | .mtest o => Sys2Proof.Machine.execMtest o s
  | .br o => Sys2Proof.Machine.execBr o s
  | .jmp o => Sys2Proof.Machine.execJmp o s
  | .call o => Sys2Proof.Machine.execCall o s
  | .jmpr o => Sys2Proof.Machine.execJmpr o s
  | .callr o => Sys2Proof.Machine.execCallr o s
  | .ret o => Sys2Proof.Machine.execRet o s
  | .split o => Sys2Proof.Machine.execSplit o s
  | .join o => Sys2Proof.Machine.execJoin o s
  | .bar o => Sys2Proof.Machine.execBar o s
  | .waitp o => Sys2Proof.Machine.execWaitp o s
  | .pclose o => Sys2Proof.Machine.execPclose o s
  | .anset o => Sys2Proof.Machine.execAnset o s
  | .anwait o => Sys2Proof.Machine.execAnwait o s
  | .anarr o => Sys2Proof.Machine.execAnarr o s
  | .aninit o => Sys2Proof.Machine.execAninit o s
  | .anexp o => Sys2Proof.Machine.execAnexp o s
  | .fence o => Sys2Proof.Machine.execFence o s
  | .sleep o => Sys2Proof.Machine.execSleep o s
  | .yield o => Sys2Proof.Machine.execYield o s
  | .nop o => Sys2Proof.Machine.execNop o s
  | .waitf o => Sys2Proof.Machine.execWaitf o s
  | .fetch o => Sys2Proof.Machine.execFetch o s
  | .fetchb o => Sys2Proof.Machine.execFetchb o s
  | .wdone o => Sys2Proof.Machine.execWdone o s
  | .sysrd o => Sys2Proof.Machine.execSysrd o s
  | .syswr o => Sys2Proof.Machine.execSyswr o s
  | .trap o => Sys2Proof.Machine.execTrap o s
  | .eret o => Sys2Proof.Machine.execEret o s
  | .brk o => Sys2Proof.Machine.execBrk o s
  | .clkrd o => Sys2Proof.Machine.execClkrd o s
  | .endStrand o => Sys2Proof.Machine.execEndStrand o s
  | .kadd o => Sys2Proof.Machine.execKadd o s
  | .kaddi o => Sys2Proof.Machine.execKaddi o s
  | .klim o => Sys2Proof.Machine.execKlim o s
  | .kloop o => Sys2Proof.Machine.execKloop o s
  | .kbar o => Sys2Proof.Machine.execKbar o s
  | .tzero o => Sys2Proof.Machine.execTzero o s
  | .mfence o => Sys2Proof.Machine.execMfence o s
  | .mend o => Sys2Proof.Machine.execMend o s
  | .cpbox o => Sys2Proof.Machine.execCpbox o s
  | .txa o => Sys2Proof.Machine.execTxa o s
  | .xflow o => Sys2Proof.Machine.execXflow o s
  | .mstart o => Sys2Proof.Machine.execMstart o s
  | .xabort o => Sys2Proof.Machine.execXabort o s
  | .tagfill o => Sys2Proof.Machine.execTagfill o s
  | .tcfg o => Sys2Proof.Machine.execTcfg o s
  | .wload o => Sys2Proof.Machine.execWload o s
  | .mma o => Sys2Proof.Machine.execMma o s
  | .mmar o => Sys2Proof.Machine.execMmar o s
  | .drain o => Sys2Proof.Machine.execDrain o s
  | .tload o => Sys2Proof.Machine.execTload o s
  | .vadd o => Sys2Proof.Machine.execVadd o s
  | .vsub o => Sys2Proof.Machine.execVsub o s
  | .vadds o => Sys2Proof.Machine.execVadds o s
  | .vsubs o => Sys2Proof.Machine.execVsubs o s
  | .vaddsn o => Sys2Proof.Machine.execVaddsn o s
  | .vsubsn o => Sys2Proof.Machine.execVsubsn o s
  | .vmul o => Sys2Proof.Machine.execVmul o s
  | .vmulh o => Sys2Proof.Machine.execVmulh o s
  | .vmulhn o => Sys2Proof.Machine.execVmulhn o s
  | .vmad o => Sys2Proof.Machine.execVmad o s
  | .vdiv o => Sys2Proof.Machine.execVdiv o s
  | .vdivn o => Sys2Proof.Machine.execVdivn o s
  | .vrem o => Sys2Proof.Machine.execVrem o s
  | .vremn o => Sys2Proof.Machine.execVremn o s
  | .vmin o => Sys2Proof.Machine.execVmin o s
  | .vmax o => Sys2Proof.Machine.execVmax o s
  | .vminn o => Sys2Proof.Machine.execVminn o s
  | .vmaxn o => Sys2Proof.Machine.execVmaxn o s
  | .vand o => Sys2Proof.Machine.execVand o s
  | .vor o => Sys2Proof.Machine.execVor o s
  | .vxor o => Sys2Proof.Machine.execVxor o s
  | .vandn o => Sys2Proof.Machine.execVandn o s
  | .vshl o => Sys2Proof.Machine.execVshl o s
  | .vshr o => Sys2Proof.Machine.execVshr o s
  | .vsar o => Sys2Proof.Machine.execVsar o s
  | .vrot o => Sys2Proof.Machine.execVrot o s
  | .vabs o => Sys2Proof.Machine.execVabs o s
  | .vneg o => Sys2Proof.Machine.execVneg o s
  | .vclz o => Sys2Proof.Machine.execVclz o s
  | .vpop o => Sys2Proof.Machine.execVpop o s
  | .vbrev o => Sys2Proof.Machine.execVbrev o s
  | .vsel o => Sys2Proof.Machine.execVsel o s
  | .vbfxn o => Sys2Proof.Machine.execVbfxn o s
  | .vbfxs o => Sys2Proof.Machine.execVbfxs o s
  | .vbfi o => Sys2Proof.Machine.execVbfi o s
  | .vmov o => Sys2Proof.Machine.execVmov o s
  | .vmrank o => Sys2Proof.Machine.execVmrank o s
  | .vadd64 o => Sys2Proof.Machine.execVadd64 o s
  | .vsub64 o => Sys2Proof.Machine.execVsub64 o s
  | .vmul64 o => Sys2Proof.Machine.execVmul64 o s
  | .vmulw o => Sys2Proof.Machine.execVmulw o s
  | .vmulwn o => Sys2Proof.Machine.execVmulwn o s
  | .vshl64 o => Sys2Proof.Machine.execVshl64 o s
  | .vshr64 o => Sys2Proof.Machine.execVshr64 o s
  | .vsar64 o => Sys2Proof.Machine.execVsar64 o s
  | .vaddi o => Sys2Proof.Machine.execVaddi o s
  | .vandi o => Sys2Proof.Machine.execVandi o s
  | .vori o => Sys2Proof.Machine.execVori o s
  | .vxori o => Sys2Proof.Machine.execVxori o s
  | .vshli o => Sys2Proof.Machine.execVshli o s
  | .vshri o => Sys2Proof.Machine.execVshri o s
  | .vsari o => Sys2Proof.Machine.execVsari o s
  | .vmuli o => Sys2Proof.Machine.execVmuli o s
  | .vroti o => Sys2Proof.Machine.execVroti o s
  | .vmovi o => Sys2Proof.Machine.execVmovi o s
  | .vcmp o => Sys2Proof.Machine.execVcmp o s
  | .vcmpi o => Sys2Proof.Machine.execVcmpi o s
  | .vcmp64 o => Sys2Proof.Machine.execVcmp64 o s
  | .fcmpF64 o => Sys2Proof.Machine.execFcmpF64 o s
  | .fcmpF32 o => Sys2Proof.Machine.execFcmpF32 o s
  | .fcmpF16 o => Sys2Proof.Machine.execFcmpF16 o s
  | .fcmpB16 o => Sys2Proof.Machine.execFcmpB16 o s
  | .fclass o => Sys2Proof.Machine.execFclass o s
  | .vshfl o => Sys2Proof.Machine.execVshfl o s
  | .vxch o => Sys2Proof.Machine.execVxch o s
  | .vrotl o => Sys2Proof.Machine.execVrotl o s
  | .vbcast o => Sys2Proof.Machine.execVbcast o s
  | .vscan o => Sys2Proof.Machine.execVscan o s
  | .vscanx o => Sys2Proof.Machine.execVscanx o s
  | .vredadd o => Sys2Proof.Machine.execVredadd o s
  | .vredmin o => Sys2Proof.Machine.execVredmin o s
  | .vredmax o => Sys2Proof.Machine.execVredmax o s
  | .vredminn o => Sys2Proof.Machine.execVredminn o s
  | .vredmaxn o => Sys2Proof.Machine.execVredmaxn o s
  | .vredand o => Sys2Proof.Machine.execVredand o s
  | .vredor o => Sys2Proof.Machine.execVredor o s
  | .vredxor o => Sys2Proof.Machine.execVredxor o s
  | .fredadd o => Sys2Proof.Machine.execFredadd o s
  | .faddF64 o => Sys2Proof.Machine.execFaddF64 o s
  | .faddF32 o => Sys2Proof.Machine.execFaddF32 o s
  | .faddF16 o => Sys2Proof.Machine.execFaddF16 o s
  | .faddB16 o => Sys2Proof.Machine.execFaddB16 o s
  | .fsubF64 o => Sys2Proof.Machine.execFsubF64 o s
  | .fsubF32 o => Sys2Proof.Machine.execFsubF32 o s
  | .fsubF16 o => Sys2Proof.Machine.execFsubF16 o s
  | .fsubB16 o => Sys2Proof.Machine.execFsubB16 o s
  | .fmulF64 o => Sys2Proof.Machine.execFmulF64 o s
  | .fmulF32 o => Sys2Proof.Machine.execFmulF32 o s
  | .fmulF16 o => Sys2Proof.Machine.execFmulF16 o s
  | .fmulB16 o => Sys2Proof.Machine.execFmulB16 o s
  | .ffmaF64 o => Sys2Proof.Machine.execFfmaF64 o s
  | .ffmaF32 o => Sys2Proof.Machine.execFfmaF32 o s
  | .ffmaF16 o => Sys2Proof.Machine.execFfmaF16 o s
  | .ffmaB16 o => Sys2Proof.Machine.execFfmaB16 o s
  | .fnmaF64 o => Sys2Proof.Machine.execFnmaF64 o s
  | .fnmaF32 o => Sys2Proof.Machine.execFnmaF32 o s
  | .fnmaF16 o => Sys2Proof.Machine.execFnmaF16 o s
  | .fnmaB16 o => Sys2Proof.Machine.execFnmaB16 o s
  | .fminF64 o => Sys2Proof.Machine.execFminF64 o s
  | .fminF32 o => Sys2Proof.Machine.execFminF32 o s
  | .fminF16 o => Sys2Proof.Machine.execFminF16 o s
  | .fminB16 o => Sys2Proof.Machine.execFminB16 o s
  | .fmaxF64 o => Sys2Proof.Machine.execFmaxF64 o s
  | .fmaxF32 o => Sys2Proof.Machine.execFmaxF32 o s
  | .fmaxF16 o => Sys2Proof.Machine.execFmaxF16 o s
  | .fmaxB16 o => Sys2Proof.Machine.execFmaxB16 o s
  | .fdivF64 o => Sys2Proof.Machine.execFdivF64 o s
  | .fdivF32 o => Sys2Proof.Machine.execFdivF32 o s
  | .fdivF16 o => Sys2Proof.Machine.execFdivF16 o s
  | .fdivB16 o => Sys2Proof.Machine.execFdivB16 o s
  | .fsqrtF64 o => Sys2Proof.Machine.execFsqrtF64 o s
  | .fsqrtF32 o => Sys2Proof.Machine.execFsqrtF32 o s
  | .fsqrtF16 o => Sys2Proof.Machine.execFsqrtF16 o s
  | .fsqrtB16 o => Sys2Proof.Machine.execFsqrtB16 o s
  | .frcp o => Sys2Proof.Machine.execFrcp o s
  | .frsq o => Sys2Proof.Machine.execFrsq o s
  | .fexp2 o => Sys2Proof.Machine.execFexp2 o s
  | .flog2 o => Sys2Proof.Machine.execFlog2 o s
  | .fsin o => Sys2Proof.Machine.execFsin o s
  | .fcos o => Sys2Proof.Machine.execFcos o s
  | .fsincos o => Sys2Proof.Machine.execFsincos o s
  | .ftanh o => Sys2Proof.Machine.execFtanh o s
  | .hadd2 o => Sys2Proof.Machine.execHadd2 o s
  | .hmul2 o => Sys2Proof.Machine.execHmul2 o s
  | .hfma2 o => Sys2Proof.Machine.execHfma2 o s
  | .badd2 o => Sys2Proof.Machine.execBadd2 o s
  | .bmul2 o => Sys2Proof.Machine.execBmul2 o s
  | .bfma2 o => Sys2Proof.Machine.execBfma2 o s
  | .b2pack o => Sys2Proof.Machine.execB2pack o s
  | .h2pack o => Sys2Proof.Machine.execH2pack o s
  | .fcvt o => Sys2Proof.Machine.execFcvt o s
  | .ncvt o => Sys2Proof.Machine.execNcvt o s
  | .nexp o => Sys2Proof.Machine.execNexp o s

end Sys2Proof.Machine
end

