-- ==== Sys2Proof/Machine/Schedule.lean ====
section
/-!
DEFINITION. Machine/Schedule.lean: what a step of the model does: the events of a cycle, the issue selector
(R125, R128, R129), the end of a cycle.
-/

namespace Sys2Proof.Machine

noncomputable section

/-- The four issue places of a core, and its sequencer (R125, R332). -/
inductive Phase where
  | lane0 | lane1 | uniform | access | sequencer
  deriving DecidableEq, Repr

def phaseOf (n : Nat) : Phase :=
  match n with
  | 0 => .lane0
  | 1 => .lane1
  | 2 => .uniform
  | 3 => .access
  | _ => .sequencer

/-- The pipe of what a slot would issue (R92); a word without an opcode takes the place of its half, a fetch that failed the
uniform place. -/
def pipeOf (i : Instr) : Pipe :=
  match i with
  | .illegalOpcode o => if halfBit o.w0 then .uniform else .lane
  | .reservedField o =>
    match decodeFields o.w0 o.w1 with
    | some j => (roles j).pipe
    | none => .uniform
  | i =>
    match (roles i).pipe with
    | .event => .uniform
    | p => p

/-- A place takes the instructions of its pipe; a stream instruction in a strand takes the uniform place to its
ILLEGAL_OPCODE (R93). -/
def Phase.takes : Phase → Pipe → Bool
  | .lane0, p => p == .lane
  | .lane1, p => p == .lane
  | .uniform, p => p == .uniform || p == .sequencer
  | .access, p => p == .access
  | .sequencer, _ => false

/-- The slot's last issue to a place's class (R128). -/
def Slot.history (l : Slot) : Phase → Option Nat
  | .lane0 => l.laneAt
  | .lane1 => l.laneAt
  | .uniform => l.uniAt
  | _ => l.accAt

/-- R128: never issued ranks oldest. -/
def older : Option Nat → Option Nat → Bool
  | none, some _ => true
  | some a, some b => a < b
  | _, none => false

/-- The slots of a party in the order of ties (R128). -/
def slotRefs (core : Nat) : List SlotRef := (List.range 16).flatMap fun i => [⟨core, i, .a⟩, ⟨core, i, .b⟩]

/-- The instruction that a slot would issue to a place in this cycle. -/
def State.candidate (s : State) (p : Party) (ph : Phase) (w : SlotRef) : Option Instr :=
  let l := p.slot w
  if (p.strand w.strand).live && l.st == .running && l.lastAt != some s.now then
    match s.instrAt w.core p.root p.priv l.pc with
    | some i => if ph.takes (pipeOf i) then some i else none
    | none => none
  else none

/-- R188, R205: the cycles for which an instruction occupies its lane pipe. -/
def laneCycles (i : Instr) : Nat :=
  match i with
  | .vmul64 _ => 4
  | .fredadd _ => 5
  | .vadd64 _ | .vsub64 _ | .vmulw _ | .vmulwn _ | .vshl64 _ | .vshr64 _ | .vsar64 _ | .vcmp64 _ => 2
  | .vscan _ | .vscanx _ | .vredadd _ | .vredmin _ | .vredmax _ | .vredminn _ | .vredmaxn _ | .vredand _ | .vredor _
  | .vredxor _ => 2
  | .faddF64 _ | .fsubF64 _ | .fmulF64 _ | .ffmaF64 _ | .fnmaF64 _ | .fminF64 _ | .fmaxF64 _ | .fcmpF64 _ | .fdivF64 _
  | .fsqrtF64 _ | .fsincos _ => 2
  | .fclass o => if o.cc = 0 then 2 else 1
  | .fcvt o => if cvtWide (cvtFrom o) || cvtWide (cvtTo o) then 2 else 1
  | _ => 1

/-- R126: the lane pipe of a place is free. -/
def State.pipeFree (s : State) (core : Nat) (ph : Phase) : Bool :=
  match ph with
  | .lane0 => (s.core core).pipe0 ≤ s.now
  | .lane1 => (s.core core).pipe1 ≤ s.now
  | _ => true

/-- R127: the lane pipe of a place taken for more than this cycle. -/
def State.usePipe (s : State) (core : Nat) (ph : Phase) (n : Nat) : State :=
  if n ≤ 1 then s else
  match ph with
  | .lane0 => s.modCore core fun k => { k with pipe0 := s.now + n }
  | .lane1 => s.modCore core fun k => { k with pipe1 := s.now + n }
  | _ => s

/-- A place of the lane pipes. -/
def Phase.isLane (ph : Phase) : Bool := ph == .lane0 || ph == .lane1

/-- R187: what the lane instruction of a slot reads when the strand's other slot has issued one in this cycle. -/
def State.laneOld (s : State) (w : SlotRef) (ph : Phase) : Option LaneRegs :=
  s.laneRegs.filter fun r => ph.isLane && r.core == w.core && r.strand == w.strand && r.cycle == s.now

/-- A strand with the registers of a record. -/
def Strand.withRegs (st : Strand) (r : LaneRegs) : Strand := { st with v := r.v, s := r.s, m := r.m, full := r.full }

/-- R187: the registers that two lane instructions of a cycle leave: `before` those that the first left, `after` those of the second,
which read `r`; it writes the lanes of its slot, and its uniform destinations. -/
def Strand.joinRegs (before after : Strand) (r : LaneRegs) (em : Word) (writes : Nat → Bool) : Strand :=
  -- two divisions to one d both mark it empty; the first write-back marks it full (R131; DEDUCED, log entry 118)
  let changed := after.full ^^^ r.full
  { after with
    v := Vector.ofFn fun n => tab fun l => if inMask em l then after.v[n][l] else before.v[n][l]
    m := Vector.ofFn fun n => (after.m[n] &&& em) ||| (before.m[n] &&& ~~~em)
    s := Vector.ofFn fun n => if writes n.val then after.s[n] else before.s[n]
    full := (before.full &&& ~~~changed) ||| (after.full &&& changed) }

/-- exec of an instruction by a slot in a place, as the cycle's issues stand. -/
def State.execAt (s : State) (w : SlotRef) (i : Instr) (ph : Phase) : Out :=
  let s0 := { s with focus := .slot w, issued := false }
  match s.laneOld w ph with
  | none => exec i s0
  | some r =>
    match exec i (s0.modParty w.core (·.modStrand w.strand (·.withRegs r))) with
    | .next t =>
      let before := s.strandOf w
      let writes (n : Nat) : Bool := (roles i).dst.any fun d => d.spec.toNat == 88 + n
      .next (t.modParty w.core (·.modStrand w.strand fun st => before.joinRegs st r (before.slot w.slot).em writes))
    | r => r

/-- R187: the registers that the strand's other slot reads if it too issues a lane instruction in this cycle. -/
def State.keepRegs (s t : State) (w : SlotRef) (ph : Phase) : State :=
  let st := s.strandOf w
  if ph.isLane && (st.slot (otherSlot w.slot)).st == .running then
    { t with laneRegs := some ⟨w.core, w.strand, s.now, st.v, st.s, st.m, st.full⟩ }
  else t

/-- The issue of an instruction by a slot: its outcome, or none when it is not ready. A lane instruction that faults at its issue holds
its pipe as one that does not (DESIGN CHOICE, log entry 117). -/
def State.tryIssue (s : State) (w : SlotRef) (i : Instr) (ph : Phase) : Option Out :=
  match s.execAt w i ph with
  | .next t =>
    if t.issued then some (.next (s.keepRegs (State.usePipe { t with focus := .none, issued := false } w.core ph (laneCycles i)) w ph))
    else none
  | r => some r

/-- The issue of an instruction by the sequencer of a core. -/
def State.trySequencer (s : State) (core : Nat) (i : Instr) : Option Out :=
  match exec i { s with focus := .sequencer core, issued := false } with
  | .next t => if t.issued then some (.next { t with focus := .none, issued := false }) else none
  | r => some r

/-- R128: the least recent ready slot of a place. -/
def State.pick (s : State) (p : Party) (core : Nat) (ph : Phase) (only : SlotRef → Bool) : Option (SlotRef × Out) :=
  (slotRefs core).foldl (fun best w =>
    if !only w then best
    else
      let better := match best with
        | none => true
        | some (b, _) => older ((p.slot w).history ph) ((p.slot b).history ph)
      if better then
        match s.candidate p ph w with
        | none => best
        | some i =>
          match s.tryIssue w i ph with
          | none => best
          | some r => some (w, r)
      else best) none

/-- R129: the shadow that takes the access place of the picked slot. -/
def Party.shadowFirst (p : Party) (w : SlotRef) : Bool :=
  p.shadows && w.strand < 8 && (p.window w.strand).length < 4

/-- What a place of a core issues: a slot and its outcome (R128, R129). -/
def State.placePick (s : State) (p : Party) (core : Nat) (ph : Phase) (only : SlotRef → Bool) : Option (SlotRef × Out) :=
  if !s.pipeFree core ph then none
  else
    match s.pick p core ph only with
    | none => none
    | some (w, r) =>
      if ph = .access ∧ p.shadowFirst w then
        match (s.modSlot w fun l => { l with accAt := some s.now }).pick p core ph fun u => u.strand == w.strand + 8 && only u with
        | none => some (w, r)
        | some x => some x
      else some (w, r)

/-- One issue of a cycle: its place, its slot, its outcome. -/
structure Pick where
  place : Nat
  w : SlotRef
  out : Out

/-- What the places that have not issued would issue, each from another slot. -/
def State.picks (s : State) (p : Party) (core done : Nat) : List Pick :=
  (List.range 4).foldl (fun acc k =>
    if done.testBit k then acc
    else match s.placePick p core (phaseOf k) fun u => !acc.any fun x => x.w == u with
      | none => acc
      | some (w, r) => acc ++ [⟨k, w, r⟩]) []

/-- R26: the order of the issues of a cycle: lower strands first, slot A before slot B. -/
def Pick.key (x : Pick) : Nat := 2 * x.w.strand + slotIdx x.w.slot
def firstPick (xs : List Pick) : Option Pick :=
  xs.foldl (fun best x => if best.any fun b => b.key ≤ x.key then best else some x) none

/-- The issue raises a fault or a trap of its strand: it is delivered, or it stops the party. -/
def Pick.raises (p : Party) (x : Pick) : Bool :=
  match x.out with
  | .next t => (t.party? x.w.core).any fun q =>
      (!(p.strand x.w.strand).inh && (q.strand x.w.strand).inh) || p.status != q.status
  | _ => false
/-- It halts the party. -/
def Pick.halts (x : Pick) : Bool :=
  match x.out with
  | .next t => (t.party? x.w.core).any fun q => q.status == .halting
  | _ => false

/-- R502: what a strand's fault would put in a halt: the cause and the PC of a pending fault. -/
def State.pendingOf (s : State) (p : Party) (x : Pick) : Option (Cause × Pc) :=
  match s.candidate p (phaseOf x.place) x.w with
  | none => none
  | some i =>
    match (s.modParty x.w.core fun p => { p with thnd := 0 }).tryIssue x.w i (phaseOf x.place) with
    | some (.next t) => ((t.party? x.w.core).bind Party.halt).map fun h => (h.info.cause, h.info.pc)
    | _ => none

/-- R502: the halting fault of a cycle; those of other strands in it are pending. -/
def State.haltWith (s : State) (p : Party) (x : Pick) (xs : List Pick) : Out :=
  match x.out with
  | .next t => .next ((xs.filter fun y => y.w.strand != x.w.strand).foldl (fun t y =>
      t.modStrand y.w fun st => { st with pendingFault := s.pendingOf p y }) t)
  | r => r

/-- The next issue of a core in this cycle, and the places that have issued then: what raises nothing comes first; of faults a halting
one of the lowest strand, and slot A's before slot B's (R502); the sequencer comes last. -/
def State.coreIssue (s : State) (core done : Nat) : Option (Out × Nat) :=
  match s.party? core with
  | none => none
  | some p =>
    let xs := s.picks p core done
    let bad := xs.filter (·.raises p)
    let own := bad.filter fun x => !bad.any fun y => y.w.strand == x.w.strand && y.key < x.key
    match firstPick (xs.filter fun x => !x.raises p) with
    | some x => some (x.out, done ||| (1 <<< x.place))
    | none =>
      match firstPick (own.filter Pick.halts) with
      | some x => some (s.haltWith p x own, 31)
      | none =>
        match firstPick own with
        | some x => some (x.out, done ||| (1 <<< x.place))
        | none =>
          if p.status == .running && (p.seq.state == .running || p.seq.state == .waiting) && !p.seq.hold.onOp && !done.testBit 4 then
            ((s.instrAt core p.root p.priv p.seq.pc).bind fun i => s.trySequencer core i).map fun r => (r, 31)
          else none

/-- The next issue of the cycle from a core on: the outcome, the core's turn, the places of it that have issued. -/
def State.nextIssue (s : State) : List Nat → Nat → Nat → Option (Out × Nat × Nat)
  | [], _, _ => none
  | core :: rest, turn, done =>
    match s.coreIssue core done with
    | some (r, d) => some (r, turn, d)
    | none => s.nextIssue rest (turn + 1) 0

-- events

/-- The event number `n` of the agenda taken out. -/
def takeAt : List Instr → Nat → Option (Instr × List Instr)
  | [], _ => none
  | i :: t, 0 => some (i, t)
  | i :: t, n + 1 => (takeAt t n).map fun x => (x.1, i :: x.2)

/-- A line that leaves L2 to make room is a free choice of the schedule (R266). -/
def State.withEviction (s : State) (i : Instr) : Instr × State :=
  match s.evicts with
  | [] => (i, s)
  | l :: rest =>
    match i with
    | .readRequest o => if o.evict.isNone then (.readRequest { o with evict := some l }, { s with evicts := rest }) else (i, s)
    | .homeStore o => if o.evict.isNone then (.homeStore { o with evict := some l }, { s with evicts := rest }) else (i, s)
    | _ => (i, s)

/-- The next choice of the schedule. -/
def State.choice (s : State) : Nat × State :=
  match s.sched with
  | [] => (0, s)
  | n :: rest => (n, { s with sched := rest })

/-- An event that the cycle does not end without: a write-back that has come to its last cycle (R188, R205), a clock's tick after
DRIFT cycles (R274), a rebase (R280), a trap at its boundary (R264), a sleep that has run out (R167). -/
def State.urgent (s : State) : Instr → Bool
  | .producerWriteback o => ((s.party? o.core).bind fun p => kget p.producers o.id).any fun q => q.late.any fun t => t ≤ s.now
  | .driftTick _ => true
  | .rebase _ => true
  | .trapDelivery _ => true
  | .sleepExpiry o => match (s.slotOf o).wait with
    | .sleep till _ => decide (till ≤ s.now)
    | _ => false
  | _ => false

/-- One event of the cycle, or the end of its events. -/
def State.runEvent (s : State) : Out :=
  let (n, s1) := s.choice
  let k0 := n % (s.pend + 1)
  let k := if k0 = s.pend then ((s.agenda.take s.pend).findIdx? s.urgent).getD k0 else k0
  if k = s.pend then .next { s1 with pend := 0 }
  else
    match takeAt s1.agenda k with
    | none => .next { s1 with pend := 0 }
    | some (i, rest) =>
      let (j, s2) := { s1 with agenda := rest, pend := s.pend - 1, focus := .none }.withEviction i
      exec j s2

-- the end of a cycle

/-- The instruction fetches that running slots and the sequencer of a core start (R71, R332). -/
def State.fetchParty (s : State) (core : Nat) : State :=
  match s.party? core with
  | none => s
  | some p =>
    let s1 := (slotRefs core).foldl (fun s w =>
      let l := p.slot w
      if (p.strand w.strand).live && l.st == .running then s.fetchWalks core p.root p.priv l.pc else s) s
    if p.seq.state = .running ∨ p.seq.state = .waiting then s1.fetchWalks core p.root p.priv p.seq.pc else s1

/-- R264: a held watch hit is taken at the strand's next boundary, once the strand is out of its handler. -/
def State.tendHits (s : State) (core : Nat) : State :=
  match s.party? core with
  | none => s
  | some p => (List.range 16).foldl (fun s i =>
      let st := p.strand i
      if st.held.isSome && !st.inh && p.status == .running then s.postOnce (.trapDelivery ⟨core, i⟩) else s) s

/-- R393: edge indices that a FETCH which waits passes over. -/
def State.tendEdges (s : State) (core : Nat) : State :=
  match s.party? core with
  | none => s
  | some p =>
    if (s.grid? p.grid).any (fun g => g.hdr.edgeRoute) && !edgeCore core && p.status == .running then
      let fetches (w : SlotRef) : Bool := p.bound w && [Phase.uniform, .access, .lane0].any fun ph =>
        (s.candidate p ph w).any fun i => fetchCount i != 0 || (match i with | .fetch _ => true | _ => false)
      if (slotRefs core).any fetches then s.fillEdges core p.grid else s
    else s

/-- R331: the sequencer is Waiting while its instruction is held, and Running once it may issue. -/
def State.tendSequencer (s : State) (core : Nat) : State :=
  match s.party? core with
  | none => s
  | some p =>
    if p.status == .running && p.seq.hold == .none && (p.seq.state == .running || p.seq.state == .waiting) then
      match s.instrAt core p.root p.priv p.seq.pc with
      | none => s
      | some i =>
        s.modParty core (·.modSeq fun q => { q with state := if (s.trySequencer core i).isSome then .running else .waiting })
    else s

/-- What a core's units do at the end of a cycle: accesses, commands and packets that wait go on where they can, step traps that
are owed are taken, and held watch hits are on their way. -/
def State.tendCore (s : State) (core : Nat) : State :=
  let s1 := (((((((s.fetchParty core).pump core).retrySyswrs core).retryCopies core).retryEmits core).retryGroups core).retryHolders core).retryTxas core
  ((((slotRefs core).foldl State.tendStep ((s1.tendTxas core).tendCloses core)).tendHits core).tendSequencer core).tendEdges core

/-- R274: the cores whose clocks will have stood still for DRIFT cycles when the next cycle begins. -/
def State.driftCores (s : State) : List Nat :=
  let up := (List.range 72).filter fun p => (s.pkg p).ready
  let idle := (up.flatMap fun p => (List.range 256).map (p * 256 + ·)).filter fun c => (kget s.cores c).isNone
  (s.cores.map Prod.fst ++ idle).filter fun c => decide ((s.core c).lastAdv + (s.pkg (pkgOfCore c)).drift ≤ s.now + 1)

/-- R274, R421: the clock of a collective engine that has stood still for DRIFT cycles advances by one tick. -/
def State.driftEngines (s : State) : State :=
  { s with clocks := s.clocks.map fun ((d, k) : Nat × EngineClock) =>
      if k.lastAdv + (s.pkg (d / 8)).drift ≤ s.now then (d, ⟨k.pts + 1, s.now⟩) else (d, k) }

/-- R285: Base Camp reads the poison logs that it has chosen, and clears them. -/
def State.readPoisonLogs (s : State) : State :=
  { s with
    plogSeen := s.plogSeen ++ s.plogReads.filterMap fun sl => (kget s.plogs sl).map fun l => (sl, l, s.now)
    plogs := s.plogs.filter fun x => !s.plogReads.contains x.1
    plogReads := [] }

/-- R274, R280: clocks tick, and packages that are due are rebased. -/
def State.tendClocks (s0 : State) : State :=
  let s := s0.driftEngines
  let s1 := s.driftCores.foldl (fun s c => s.postOnce (.driftTick ⟨c⟩)) s
  (List.range 72).foldl (fun s p => if s.rebaseDue p then s.postOnce (.rebase ⟨p⟩) else s) s1

/-- What Base Camp and the links do at the end of a cycle. -/
def State.tendRack (s : State) : State :=
  ((((((((s.tendFlowRecs.tendRequests).tendPackets).tendHolds).tendRing).tendHalts).tendSaves).tendBuffers.tendSignals).tendClocks).readPoisonLogs.dispatch

/-- The end of a cycle, and the cycle count. -/
def State.endCycle (s : State) : State :=
  let s1 := ((s.parties.map Prod.fst).foldl State.tendCore s).tendRack
  { s1 with
    parties := s1.parties.map fun (c, p) => (c, { p with newQ := [] })
    now := s1.now + 1, pend := s1.agenda.length, turn := 0, phase := 0, laneRegs := none }

/-- ONE STEP of the model: an event, an issue, or the end of a cycle. -/
def State.advance (s : State) : Out :=
  if s.pend ≠ 0 then s.runEvent
  else
    match s.nextIssue ((s.parties.map Prod.fst).drop s.turn) s.turn s.phase with
    | none => .next s.endCycle
    | some (.next t, turn, ph) => .next { t with turn := turn, phase := ph }
    | some (r, _, _) => r

-- an instruction placed for the next step

/-- Where withFetchWord places an instruction: its virtual address, and the start of package 0's second tier. -/
def placeVa : Pc := 0x10000
def placePa : Nat := 0x80000000000

/-- The leaf of the page that holds a placed instruction: V, R, X and A. -/
def placeLeaf : Dword := BitVec.ofNat 64 (placePa + 0x80B)

/-- The words that only the sequencer runs (R95): SLIMZ and SLIMK also run in a strand. -/
def placesStream (w : Word) : Bool := streamOpcode w && opcodeOf w != 0x2A && opcodeOf w != 0x2B && opcodeOf w != 0x70

/-- The strand that runs a placed instruction, with all 32 lanes; a stream instruction is the sequencer's. -/
def placeStrand (stream : Bool) : Strand :=
  let st := { Strand.blank with live := true }
  if stream then st
  else st.setSlot .a
    { Slot.dead with st := .running, pc := placeVa, em := BitVec.allOnes 32, m0 := BitVec.allOnes 32 }

/-- The party that runs a placed instruction. -/
def placeParty (stream : Bool) : Party :=
  let p := Party.blank.setStrand 0 (placeStrand stream)
  if stream then p.modSeq fun q => { q with state := .running, pc := placeVa } else p

/-- The state with an instruction's bytes placed, mapped and next to run, on core 0. -/
def State.place (s : State) (bs : List Byte) (stream : Bool) : State :=
  { s.writeMem placePa bs with
    agenda := []
    pend := 0
    phase := 0
    turn := 0
    parties := [(0, placeParty stream)]
    tlb := [⟨0, 0, 0, placeVa.toNat / 65536, placeLeaf, 0⟩] }

end

end Sys2Proof.Machine
end

