-- ==== Sys2Proof/Machine/Step.lean ====
section
/-!
DEFINITION. Machine/Step.lean: one step of the rack, and where the next instruction is placed.
-/

namespace Sys2Proof.Machine

/-- One step: an event of the cycle, an instruction's issue, or the end of the cycle. -/
noncomputable def step (s : State) : Host.Outcome State Fault Refusal := s.advance

/-- The state in which the next step fetches and runs the instruction whose bits are `w`: its bytes stand in a page
that core 0's party may execute, and a strand (for a stream instruction the sequencer) stands at it. It stands for
the load of a program from outside the machine. -/
def State.withFetchWord (s : State) (nbits w : Nat) : State :=
  let bs := tableBytes nbits w
  s.place bs (placesStream (BitVec.ofNat 32 (bytesNat (bs.take 4))))

end Sys2Proof.Machine
end

