-- ==== Sys2Proof/Safety.lean ====
section
/-!
DEFINITION. Safety.lean: what a well-formed state is and what a safe run is.
-/

namespace Sys2Proof.Machine

/-- Memory in its canonical form. -/
def Memory.wf (m : Sparse Byte) : Bool := swf 0 m

/-- Every sparse map of the rack is in its canonical form. -/
def State.mapsOk (s : State) : Bool := Memory.wf s.mem && swf 0 s.tags && swf false s.poison && swf 0 s.poolmap

/-- A machine that has not stopped. -/
def Running (r : Out) : Prop := ∃ s, r = .next s

/-- `n` steps from a state all answer a next state. -/
def SafeFor : Nat → State → Prop
  | 0, _ => True
  | n + 1, s => ∃ t, step s = .next t ∧ SafeFor n t

end Sys2Proof.Machine
end

