-- ==== Sys2Proof/Certificates/Slice0/Obligations.lean ====
section
/-!
DEFINITION. Certificates/Slice0/Obligations.lean: the statements of the model for the provers, and the functions that
they are stated with: what the spec says each instruction computes, read from its own rules.
-/

namespace Sys2Proof.Claims

open Sys2Proof.Machine

noncomputable section

-- what issuing is (R126, R96)

/-- Slot `w` of party `p` may issue `i` now: it is ready (R126), no check of R96 fails, no operand is q3, and no step trap
follows the issue. -/
structure Issues (s : State) (w : SlotRef) (p : Party) (i : Instr) : Prop where
  focus : s.focus = .slot w
  party : s.party? w.core = some p
  slot : p.slotReady w = true
  operands : p.operandsReady w i = true
  checks : p.issueFault w i none = none
  plain : fetchCount i = 0
  unstepped : ((p.strand w.strand).step && !(p.strand w.strand).inh) = false

/-- The party once the issue is recorded: the slot's history (R128), its next PC, the overtakers (R144). -/
def begun (s : State) (w : SlotRef) (p : Party) (i : Instr) : Party := p.beginIssue (p.ctx w i) (roles i).pipe s.now

/-- The state in which the party of the slot is `q` and the instruction has issued; nothing else differs from `s`. -/
def after (s : State) (w : SlotRef) (q : Party) : State := s.markIssued.setParty w.core q

-- the shapes of lane instructions: sources are read in order, then one result is written (R26, R185)

def from1 (w : SlotRef) (p : Party) (a d : BitVec 7) (f : Word → Word) : Party :=
  let (x, p1) := p.src32 w a
  p1.dst32 w d (tab fun k => f x[k])
def from2 (w : SlotRef) (p : Party) (o : LR) (f : Word → Word → Word) : Party :=
  let (x, p1) := p.src32 w o.a
  let (y, p2) := p1.src32 w o.b
  p2.dst32 w o.d (tab fun k => f x[k] y[k])
def from3 (w : SlotRef) (p : Party) (o : LR) (f : Word → Word → Word → Word) : Party :=
  let (x, p1) := p.src32 w o.a
  let (y, p2) := p1.src32 w o.b
  let (z, p3) := p2.src32 w o.d
  p3.dst32 w o.d (tab fun k => f x[k] y[k] z[k])
def pairs2 (w : SlotRef) (p : Party) (o : LR) (f : Dword → Dword → Dword) : Party :=
  p.dst64 w o.d (tab fun k => f (p.src64 w o.a)[k] (p.src64 w o.b)[k])
def pairs3 (w : SlotRef) (p : Party) (o : LR) (f : Dword → Dword → Dword → Dword) : Party :=
  p.dst64 w o.d (tab fun k => f (p.src64 w o.a)[k] (p.src64 w o.b)[k] (p.src64 w o.d)[k])
def widened (w : SlotRef) (p : Party) (o : LR) (f : Word → Word → Dword) : Party :=
  let (x, p1) := p.src32 w o.a
  let (y, p2) := p1.src32 w o.b
  p2.dst64 w o.d (tab fun k => f x[k] y[k])
def pairShifted (w : SlotRef) (p : Party) (o : LR) (f : Dword → Nat → Dword) : Party :=
  let (y, p1) := p.src32 w o.b
  p1.dst64 w o.d (tab fun k => f (p.src64 w o.a)[k] (y[k].extractLsb' 0 6).toNat)
/-- A cross-lane instruction: the result from the active mask and all 32 lanes of the source (R187). -/
def crossed (w : SlotRef) (p : Party) (a d : BitVec 7) (g : Word → Lanes Word → Lanes Word) : Party :=
  let (x, p1) := p.src32 w a
  p1.dst32 w d (g (p.active w) x)
def crossed2 (w : SlotRef) (p : Party) (o : LR) (g : Word → Lanes Word → Lanes Word → Lanes Word) : Party :=
  let (x, p1) := p.src32 w o.a
  let (y, p2) := p1.src32 w o.b
  p2.dst32 w o.d (g (p.active w) x y)
def compared (w : SlotRef) (p : Party) (o : LC) (f : Word → Word → Bool) : Party :=
  let (x, p1) := p.src32 w o.a
  let (y, p2) := p1.src32 w o.b
  p2.dstMask w o.md.toNat fun k => f x[k] y[k]
def comparedPairs (w : SlotRef) (p : Party) (o : LC) (f : Dword → Dword → Bool) : Party :=
  p.dstMask w o.md.toNat fun k => f (p.src64 w o.a)[k] (p.src64 w o.b)[k]

-- values

/-- R63: Saturate to s32 and to n32. -/
def toS32 (x : Int) : Word :=
  if x < -2147483648 then 0x80000000 else if 2147483647 < x then 0x7FFFFFFF else BitVec.ofInt 32 x
def toN32 (x : Int) : Word := if x < 0 then 0 else if 4294967295 < x then 0xFFFFFFFF else BitVec.ofInt 32 x
/-- R189: bits [63:32] of the 64-bit product. -/
def highS (x y : Word) : Word := ((x.signExtend 64 * y.signExtend 64 : Dword)).extractLsb' 32 32
def highN (x y : Word) : Word := ((x.setWidth 64 * y.setWidth 64 : Dword)).extractLsb' 32 32
/-- R192: VBFXN and VBFXS. -/
def extractN (x y : Word) : Word :=
  let lo := (y.extractLsb' 0 5).toNat
  let u := min (y.extractLsb' 5 6).toNat (32 - lo)
  (x.extractLsb' lo u).setWidth 32
def extractS (x y : Word) : Word :=
  let lo := (y.extractLsb' 0 5).toNat
  let u := min (y.extractLsb' 5 6).toNat (32 - lo)
  (x.extractLsb' lo u).signExtend 32
/-- R192: VBFI, bit by bit. -/
def insertBits (x y d : Word) : Word :=
  let lo := (y.extractLsb' 0 5).toNat
  let u := min (y.extractLsb' 5 6).toNat (32 - lo)
  maskOf fun k => if lo ≤ k.val ∧ k.val < lo + u then x.getLsbD (k.val - lo) else d.getLsbD k.val
/-- R195, R199: the unsigned count or lane number of an immediate form. -/
def count5 (o : LI) : Nat := (o.imm.extractLsb' 0 5).toNat
def immWord (o : LI) : Word := o.imm.signExtend 32

/-- R221: the format in FMTf is valid, and a byte container has a position below 4. -/
def narrowOk (w : SlotRef) (p : Party) (o : LI) : Bool :=
  let f := p.narrowFmt w o
  f.valid && (f.width ≤ 4 || narrowPos o < 4)
/-- R51: bits of the container of an element: 4 or 8. -/
def container (f : Fmt) : Nat := if f.width ≤ 4 then 4 else 8
/-- R221: d with the container at a position replaced, bit by bit. -/
def placed (f : Fmt) (pos : Nat) (d v : Word) : Word :=
  maskOf fun k =>
    if container f * pos ≤ k.val ∧ k.val < container f * pos + container f then v.getLsbD (k.val - container f * pos)
    else d.getLsbD k.val

/-- R188-R201, R206, R210, R212, R216-R219: WHAT A LANE INSTRUCTION OF REGISTERS MAKES OF ITS PARTY; none for an instruction of
another kind. -/
def laneResult (w : SlotRef) (p : Party) : Instr → Option Party
  | .vadd o => some (from2 w p o fun x y => x + y)
  | .vsub o => some (from2 w p o fun x y => x - y)
  | .vadds o => some (from2 w p o fun x y => toS32 (x.toInt + y.toInt))
  | .vsubs o => some (from2 w p o fun x y => toS32 (x.toInt - y.toInt))
  | .vaddsn o => some (from2 w p o fun x y => toN32 ((x.toNat : Int) + y.toNat))
  | .vsubsn o => some (from2 w p o fun x y => toN32 ((x.toNat : Int) - y.toNat))
  | .vmul o => some (from2 w p o fun x y => x * y)
  | .vmulh o => some (from2 w p o highS)
  | .vmulhn o => some (from2 w p o highN)
  | .vmad o => some (from3 w p o fun x y d => x * y + d)
  | .vmin o => some (from2 w p o fun x y => if y.toInt < x.toInt then y else x)
  | .vmax o => some (from2 w p o fun x y => if x.toInt < y.toInt then y else x)
  | .vminn o => some (from2 w p o fun x y => if y < x then y else x)
  | .vmaxn o => some (from2 w p o fun x y => if x < y then y else x)
  | .vand o => some (from2 w p o fun x y => x &&& y)
  | .vor o => some (from2 w p o fun x y => x ||| y)
  | .vxor o => some (from2 w p o fun x y => x ^^^ y)
  | .vandn o => some (from2 w p o fun x y => x &&& ~~~y)
  | .vshl o => some (from2 w p o fun x y => x <<< (y.extractLsb' 0 5).toNat)
  | .vshr o => some (from2 w p o fun x y => x >>> (y.extractLsb' 0 5).toNat)
  | .vsar o => some (from2 w p o fun x y => x.sshiftRight (y.extractLsb' 0 5).toNat)
  | .vrot o => some (from2 w p o fun x y => x.rotateLeft (y.extractLsb' 0 5).toNat)
  | .vabs o => some (from1 w p o.a o.d fun x => if x.msb then -x else x)
  | .vneg o => some (from1 w p o.a o.d fun x => 0 - x)
  | .vclz o => some (from1 w p o.a o.d fun x => BitVec.ofNat 32 (clz x))
  | .vpop o => some (from1 w p o.a o.d fun x => BitVec.ofNat 32 (popCount x))
  | .vbrev o => some (from1 w p o.a o.d fun x => maskOf fun k => x.getLsbD (31 - k.val))
  | .vsel o =>
    let (x, p1) := p.src32 w o.a
    let (y, p2) := p1.src32 w o.b
    some (p2.dst32 w o.d (tab fun k => if inMask ((p.strand w.strand).mreg 7) k then x[k] else y[k]))
  | .vbfxn o => some (from2 w p o extractN)
  | .vbfxs o => some (from2 w p o extractS)
  | .vbfi o => some (from3 w p o insertBits)
  | .vmov o => some (from1 w p o.a o.d fun x => x)
  | .vmrank o => some (crossed w p o.a o.d fun m x => tab fun i =>
      BitVec.ofNat 32 (laneList.countP fun j => decide (j < i) && inMask m j && x[j] != 0))
  | .vadd64 o => some (pairs2 w p o fun x y => x + y)
  | .vsub64 o => some (pairs2 w p o fun x y => x - y)
  | .vmul64 o => some (pairs2 w p o fun x y => x * y)
  | .vmulw o => some (widened w p o fun x y => x.signExtend 64 * y.signExtend 64)
  | .vmulwn o => some (widened w p o fun x y => x.setWidth 64 * y.setWidth 64)
  | .vshl64 o => some (pairShifted w p o fun x n => x <<< n)
  | .vshr64 o => some (pairShifted w p o fun x n => x >>> n)
  | .vsar64 o => some (pairShifted w p o fun x n => x.sshiftRight n)
  | .vaddi o => some (from1 w p o.a o.d fun x => x + immWord o)
  | .vandi o => some (from1 w p o.a o.d fun x => x &&& immWord o)
  | .vori o => some (from1 w p o.a o.d fun x => x ||| immWord o)
  | .vxori o => some (from1 w p o.a o.d fun x => x ^^^ immWord o)
  | .vshli o => some (from1 w p o.a o.d fun x => x <<< count5 o)
  | .vshri o => some (from1 w p o.a o.d fun x => x >>> count5 o)
  | .vsari o => some (from1 w p o.a o.d fun x => x.sshiftRight (count5 o))
  | .vmuli o => some (from1 w p o.a o.d fun x => x * immWord o)
  | .vroti o => some (from1 w p o.a o.d fun x => x.rotateLeft (count5 o))
  | .vmovi o => some (p.dst32 w o.d (splat (immWord o)))
  | .vcmp o => some (compared w p o fun x y => ccHolds o.cc.toNat x y)
  | .vcmpi o =>
    let (x, p1) := p.src32 w o.a
    some (p1.dstMask w o.md.toNat fun k => ccHolds o.cc.toNat x[k] (o.imm.signExtend 32))
  | .vcmp64 o => some (comparedPairs w p o fun x y => ccHolds o.cc.toNat x y)
  | .vshfl o => some (crossed2 w p o fun _ x y => tab fun i => x.getD (y[i].extractLsb' 0 5).toNat 0)
  | .vxch o => some (crossed w p o.a o.d fun _ x => tab fun i => x.getD (i.val ^^^ count5 o) 0)
  | .vrotl o => some (crossed w p o.a o.d fun _ x => tab fun i => x.getD ((i.val + (32 - count5 o)) % 32) 0)
  | .vbcast o => some (crossed w p o.a o.d fun _ x => splat (x.getD (count5 o) 0))
  | .vscan o => some (crossed2 w p o (scanSums false))
  | .vscanx o => some (crossed2 w p o (scanSums true))
  | .vredadd o => some (crossed w p o.a o.d (reduceLanes fun x y => x + y))
  | .vredmin o => some (crossed w p o.a o.d (reduceLanes fun x y => if y.toInt < x.toInt then y else x))
  | .vredmax o => some (crossed w p o.a o.d (reduceLanes fun x y => if x.toInt < y.toInt then y else x))
  | .vredminn o => some (crossed w p o.a o.d (reduceLanes fun x y => if y < x then y else x))
  | .vredmaxn o => some (crossed w p o.a o.d (reduceLanes fun x y => if x < y then y else x))
  | .vredand o => some (crossed w p o.a o.d (reduceLanes fun x y => x &&& y))
  | .vredor o => some (crossed w p o.a o.d (reduceLanes fun x y => x ||| y))
  | .vredxor o => some (crossed w p o.a o.d (reduceLanes fun x y => x ^^^ y))
  | .fredadd o => some (crossed w p o.a o.d fun m x => splat (treeSum m x))
  | .faddF64 o => some (pairs2 w p o (pairOp2 (fAdd f64)))
  | .faddF32 o => some (from2 w p o (wordOp2 (fAdd f32)))
  | .faddF16 o => some (from2 w p o (wordOp2 (fAdd f16)))
  | .faddB16 o => some (from2 w p o (wordOp2 (fAdd b16)))
  | .fsubF64 o => some (pairs2 w p o (pairOp2 (fSub f64)))
  | .fsubF32 o => some (from2 w p o (wordOp2 (fSub f32)))
  | .fsubF16 o => some (from2 w p o (wordOp2 (fSub f16)))
  | .fsubB16 o => some (from2 w p o (wordOp2 (fSub b16)))
  | .fmulF64 o => some (pairs2 w p o (pairOp2 (fMul f64)))
  | .fmulF32 o => some (from2 w p o (wordOp2 (fMul f32)))
  | .fmulF16 o => some (from2 w p o (wordOp2 (fMul f16)))
  | .fmulB16 o => some (from2 w p o (wordOp2 (fMul b16)))
  | .ffmaF64 o => some (pairs3 w p o (pairOp3 (fFma f64)))
  | .ffmaF32 o => some (from3 w p o (wordOp3 (fFma f32)))
  | .ffmaF16 o => some (from3 w p o (wordOp3 (fFma f16)))
  | .ffmaB16 o => some (from3 w p o (wordOp3 (fFma b16)))
  | .fnmaF64 o => some (pairs3 w p o (pairOp3 (fFnma f64)))
  | .fnmaF32 o => some (from3 w p o (wordOp3 (fFnma f32)))
  | .fnmaF16 o => some (from3 w p o (wordOp3 (fFnma f16)))
  | .fnmaB16 o => some (from3 w p o (wordOp3 (fFnma b16)))
  | .fminF64 o => some (pairs2 w p o (pairOp2 (fMin f64)))
  | .fminF32 o => some (from2 w p o (wordOp2 (fMin f32)))
  | .fminF16 o => some (from2 w p o (wordOp2 (fMin f16)))
  | .fminB16 o => some (from2 w p o (wordOp2 (fMin b16)))
  | .fmaxF64 o => some (pairs2 w p o (pairOp2 (fMax f64)))
  | .fmaxF32 o => some (from2 w p o (wordOp2 (fMax f32)))
  | .fmaxF16 o => some (from2 w p o (wordOp2 (fMax f16)))
  | .fmaxB16 o => some (from2 w p o (wordOp2 (fMax b16)))
  | .fcmpF64 o => some (comparedPairs w p o fun x y => fcmpHolds f64 o.cc.toNat x.toNat y.toNat)
  | .fcmpF32 o => some (compared w p o fun x y => fcmpHolds f32 o.cc.toNat x.toNat y.toNat)
  | .fcmpF16 o => some (compared w p o fun x y => fcmpHolds f16 o.cc.toNat x.toNat y.toNat)
  | .fcmpB16 o => some (compared w p o fun x y => fcmpHolds b16 o.cc.toNat x.toNat y.toNat)
  | .fclass o =>
    if o.cc = 0 then
      some (p.dstMask w o.md.toNat fun k => o.imm.getLsbD (classOf f64 (p.src64 w o.a)[k].toNat))
    else
      let (x, p1) := p.src32 w o.a
      let f := if o.cc = 1 then f32 else if o.cc = 2 then f16 else b16
      some (p1.dstMask w o.md.toNat fun k => o.imm.getLsbD (classOf f (x[k].toNat % 2 ^ f.width)))
  | .hadd2 o => some (from2 w p o (packed2 (fAdd f16)))
  | .hmul2 o => some (from2 w p o (packed2 (fMul f16)))
  | .hfma2 o => some (from3 w p o (packed3 (fFma f16)))
  | .badd2 o => some (from2 w p o (packed2 (fAdd b16)))
  | .bmul2 o => some (from2 w p o (packed2 (fMul b16)))
  | .bfma2 o => some (from3 w p o (packed3 (fFma b16)))
  | .b2pack o => some (from2 w p o (packTo b16))
  | .h2pack o => some (from2 w p o (packTo f16))
  | .fcvt o =>
    let f := convert (cvtFrom o).toNat (cvtTo o).toNat (o.imm.extractLsb' 0 2).toNat
    let (x, p1) : Lanes Dword × Party :=
      if cvtWide (cvtFrom o) then (p.src64 w o.a, p)
      else ((tab fun k => ((p.src32 w o.a).1[k]).setWidth 64), (p.src32 w o.a).2)
    some (if cvtWide (cvtTo o) then p1.dst64 w o.d (tab fun k => f x[k])
      else p1.dst32 w o.d (tab fun k => (f x[k]).setWidth 32))
  | .ncvt o =>
    if narrowOk w p o then
      let f := p.narrowFmt w o
      let old := (p.strand w.strand).rng
      let rng := tab fun k => if o.imm.extractLsb' 0 2 = 2 ∧ inMask (p.active w) k then stochasticStep old[k] else old[k]
      let mode (k : Fin 32) : Mode :=
        if o.imm.extractLsb' 0 2 = 0 then .rne else if o.imm.extractLsb' 0 2 = 1 then .rtz
        else if o.imm.extractLsb' 0 2 = 2 then .rs rng[k].toNat else .rneSat
      let (x, p1) := p.src32 w o.a
      let (d, p2) := p1.src32 w o.d
      some ((p2.modStrand w.strand fun st => { st with rng := rng }).dst32 w o.d (tab fun k =>
        placed f (narrowPos o) d[k] (w32 (roundTo f (mode k) (decodeF f32 x[k].toNat)))))
    else none
  | .nexp o =>
    if narrowOk w p o then
      some (from1 w p o.a o.d fun x =>
        w32 (roundTo f32 .rne (decodeF (p.narrowFmt w o) (x.toNat / 2 ^ (container (p.narrowFmt w o) * narrowPos o)
          % 2 ^ (p.narrowFmt w o).width))))
    else none
  | _ => none

-- producers of the lane and uniform classes (R131, R154, R190, R205, R208, R213)

/-- R190, R154: quotients and remainders, with the cases that have none. -/
def quotS (w : Nat) (x y : BitVec w) : BitVec w :=
  if y = 0 then BitVec.allOnes w
  else if x = BitVec.intMin w ∧ y = BitVec.allOnes w then BitVec.intMin w
  else BitVec.ofInt w (x.toInt.tdiv y.toInt)
def quotN (w : Nat) (x y : BitVec w) : BitVec w := if y = 0 then BitVec.allOnes w else x / y
def remS (w : Nat) (x y : BitVec w) : BitVec w :=
  if y = 0 then x else if x = BitVec.intMin w ∧ y = BitVec.allOnes w then 0 else BitVec.ofInt w (x.toInt.tmod y.toInt)
def remN (w : Nat) (x y : BitVec w) : BitVec w := if y = 0 then x else x % y

/-- A lane result in flight: it names the register, the lanes that were active and all 32 values; zr takes nothing. -/
def flight1 (w : SlotRef) (p : Party) (o : LR) (f : Word → Word) : Party × Result :=
  let (x, p1) := p.src32 w o.a
  (p1, if o.d = zr then .nothing else .lanes o.d.toNat (p.active w) (tab fun k => f x[k]))
def flight2 (w : SlotRef) (p : Party) (o : LR) (f : Word → Word → Word) : Party × Result :=
  let (x, p1) := p.src32 w o.a
  let (y, p2) := p1.src32 w o.b
  (p2, if o.d = zr then .nothing else .lanes o.d.toNat (p.active w) (tab fun k => f x[k] y[k]))
def flightPairs (w : SlotRef) (p : Party) (o : LR) (v : Lanes Dword) : Party × Result :=
  (p, if o.d = zr then .nothing else .pairs o.d.toNat (p.active w) v)
/-- R154: a uniform result in flight; in word mode the 32-bit result is extended by its kind. -/
def flightU (w : SlotRef) (p : Party) (o : UR) (unsigned : Bool) (f : (n : Nat) → BitVec n → BitVec n → BitVec n) :
    Party × Result :=
  let (x, p1) := p.srcU w o.a
  let (y, p2) := p1.srcU w o.b
  (p2, .uniform o.d (.live w.slot)
    (if o.x then
      (if unsigned then (f 32 (x.setWidth 32) (y.setWidth 32)).setWidth 64
        else (f 32 (x.setWidth 32) (y.setWidth 32)).signExtend 64)
     else f 64 x y))

/-- What a producer that is no access puts in flight: the party after its reads, the result, and the least number of cycles to
its write-back (R205). -/
def product (w : SlotRef) (p : Party) : Instr → Option (Party × Result × Nat)
  | .vdiv o => some ((flight2 w p o (quotS 32)).1, (flight2 w p o (quotS 32)).2, 0)
  | .vdivn o => some ((flight2 w p o (quotN 32)).1, (flight2 w p o (quotN 32)).2, 0)
  | .vrem o => some ((flight2 w p o (remS 32)).1, (flight2 w p o (remS 32)).2, 0)
  | .vremn o => some ((flight2 w p o (remN 32)).1, (flight2 w p o (remN 32)).2, 0)
  | .fdivF64 o => some (p, (flightPairs w p o (tab fun k => pairOp2 (fDiv f64) (p.src64 w o.a)[k] (p.src64 w o.b)[k])).2, 16)
  | .fdivF32 o => some ((flight2 w p o (wordOp2 (fDiv f32))).1, (flight2 w p o (wordOp2 (fDiv f32))).2, 8)
  | .fdivF16 o => some ((flight2 w p o (wordOp2 (fDiv f16))).1, (flight2 w p o (wordOp2 (fDiv f16))).2, 8)
  | .fdivB16 o => some ((flight2 w p o (wordOp2 (fDiv b16))).1, (flight2 w p o (wordOp2 (fDiv b16))).2, 8)
  | .fsqrtF64 o => some (p, (flightPairs w p o (tab fun k => BitVec.ofNat 64 (fSqrt f64 (p.src64 w o.a)[k].toNat))).2, 16)
  | .fsqrtF32 o => some ((flight1 w p o fun x => w32 (fSqrt f32 x.toNat)).1, (flight1 w p o fun x => w32 (fSqrt f32 x.toNat)).2, 8)
  | .fsqrtF16 o => some ((flight1 w p o fun x => w32 (fSqrt f16 x.toNat)).1, (flight1 w p o fun x => w32 (fSqrt f16 x.toNat)).2, 8)
  | .fsqrtB16 o => some ((flight1 w p o fun x => w32 (fSqrt b16 x.toNat)).1, (flight1 w p o fun x => w32 (fSqrt b16 x.toNat)).2, 8)
  | .frcp o => some ((flight1 w p o frcp).1, (flight1 w p o frcp).2, 8)
  | .frsq o => some ((flight1 w p o frsq).1, (flight1 w p o frsq).2, 8)
  | .fexp2 o => some ((flight1 w p o fexp2).1, (flight1 w p o fexp2).2, 8)
  | .flog2 o => some ((flight1 w p o flog2).1, (flight1 w p o flog2).2, 8)
  | .fsin o => some ((flight1 w p o fsin).1, (flight1 w p o fsin).2, 8)
  | .fcos o => some ((flight1 w p o fcos).1, (flight1 w p o fcos).2, 8)
  | .ftanh o => some ((flight1 w p o ftanh).1, (flight1 w p o ftanh).2, 8)
  | .fsincos o =>
    let (x, p1) := p.src32 w o.a
    some (p1, .pairs o.d.toNat (p.active w) (tab fun k => fcos x[k] ++ fsin x[k]), 8)
  | .sdiv o => some ((flightU w p o false quotS).1, (flightU w p o false quotS).2, 0)
  | .sdivn o => some ((flightU w p o true quotN).1, (flightU w p o true quotN).2, 0)
  | .srem o => some ((flightU w p o false remS).1, (flightU w p o false remS).2, 0)
  | .sremn o => some ((flightU w p o true remN).1, (flightU w p o true remN).2, 0)
  | _ => none

/-- R188, R205: the cycles from its issue within which a producer writes back: 40 for a division, 64 for FDIV and FSQRT of F64, 32 for
the other producers of the lane pipes. -/
def writtenWithin : Instr → Nat
  | .vdiv _ | .vdivn _ | .vrem _ | .vremn _ | .sdiv _ | .sdivn _ | .srem _ | .sremn _ => 40
  | .fdivF64 _ | .fsqrtF64 _ => 64
  | _ => 32
/-- A producer as it stands in the party once it has issued at cycle `now` (R131): it writes back after `n` cycles and within those of
R188 and R205. -/
def inFlight (w : SlotRef) (i : Instr) (r : Result) (now n : Nat) : Producer :=
  ⟨w.strand, marksOf (roles i).dst, r, none, now + n, some (now + writtenWithin i)⟩

-- the uniform instructions (R151-R164)

/-- d ← a value that the two sources give; in word mode by the 32-bit operation, extended by its kind (R154). -/
def uni (w : SlotRef) (p : Party) (o : UR) (unsigned : Bool) (f : (n : Nat) → BitVec n → BitVec n → BitVec n) : Party :=
  let (x, p1) := p.srcU w o.a
  let (y, p2) := p1.srcU w o.b
  p2.dstU w o.d
    (if o.x then
      (if unsigned then (f 32 (x.setWidth 32) (y.setWidth 32)).setWidth 64
        else (f 32 (x.setWidth 32) (y.setWidth 32)).signExtend 64)
     else f 64 x y)
def uni1c (w : SlotRef) (p : Party) (o : UR) (unsigned : Bool) (f : (n : Nat) → BitVec n → BitVec n) : Party :=
  let (x, p1) := p.srcU w o.a
  p1.dstU w o.d
    (if o.x then
      (if unsigned then (f 32 (x.setWidth 32)).setWidth 64 else (f 32 (x.setWidth 32)).signExtend 64)
     else f 64 x)
def uniImm (w : SlotRef) (p : Party) (o : UI) (f : Dword → Dword) : Party :=
  let (x, p1) := p.srcU w o.a
  p1.dstU w o.d (f x)
/-- R160: on bits [31:0], zero-extended. -/
def masks (w : SlotRef) (p : Party) (o : UR) (f : Word → Word → Word) : Party :=
  let (x, p1) := p.srcU w o.a
  let (y, p2) := p1.srcU w o.b
  p2.dstU w o.d ((f (x.setWidth 32) (y.setWidth 32)).setWidth 64)
def mask1c (w : SlotRef) (p : Party) (o : UR) (f : Word → Word) : Party :=
  let (x, p1) := p.srcU w o.a
  p1.dstU w o.d ((f (x.setWidth 32)).setWidth 64)
/-- R98: the flags of a difference. -/
def diffFlags {n : Nat} (x y : BitVec n) (f : Flags) : Flags where
  n := (x - y).msb
  z := x == y
  c := decide (y ≤ x)
  v := (x.msb != y.msb) && (x.msb != (x - y).msb)
  ex := f.ex
/-- The count of a shift or a rotation: the low 6 bits, or 5 in word mode. -/
def uniCount {n : Nat} (y : BitVec n) : Nat := y.toNat % n
/-- R89: the target of a word offset from the instruction at `pc`. -/
def target {n : Nat} (pc : Pc) (off : BitVec n) : Pc := pc + (off.signExtend 56 <<< 2)
/-- R134: the condition does not read an EX flag that is pending. -/
def exKnown (p : Party) (w : SlotRef) (code : Nat) : Bool := !((code == 17 || code == 18) && (p.slot w).exPending)
/-- The slot continues at a PC. -/
def goto (p : Party) (w : SlotRef) (pc : Pc) : Party := p.modSlot w fun l => { l with pc := pc }
/-- R163: the return address in s23, left full. -/
def linked (p : Party) (w : SlotRef) (next : Pc) : Party :=
  p.modStrand w.strand fun st => (st.setS 23 (next.setWidth 64)).setFull true 111

/-- R151-R164, R167-R169, R179, R255: WHAT A UNIFORM INSTRUCTION OF REGISTERS MAKES OF ITS PARTY; none for an instruction of another kind,
and for one that reads an EX flag that is pending. `pc` is the instruction's own address. -/
def uniformResult (s : State) (w : SlotRef) (pc : Pc) (p : Party) : Instr → Option Party
  | .sadd o => some (uni w p o false fun _ x y => x + y)
  | .ssub o => some (uni w p o false fun _ x y => x - y)
  | .smul o => some (uni w p o false fun _ x y => x * y)
  | .smulh o => some (uni w p o false fun n x y => (x.signExtend (2 * n) * y.signExtend (2 * n)).extractLsb' n n)
  | .smulhn o => some (uni w p o true fun n x y => (x.setWidth (2 * n) * y.setWidth (2 * n)).extractLsb' n n)
  | .sand o => some (uni w p o false fun _ x y => x &&& y)
  | .sor o => some (uni w p o false fun _ x y => x ||| y)
  | .sxor o => some (uni w p o false fun _ x y => x ^^^ y)
  | .sandn o => some (uni w p o false fun _ x y => x &&& ~~~y)
  | .sshl o => some (uni w p o false fun _ x y => x <<< uniCount y)
  | .sshr o => some (uni w p o true fun _ x y => x >>> uniCount y)
  | .ssar o => some (uni w p o false fun _ x y => x.sshiftRight (uniCount y))
  | .smin o => some (uni w p o false fun _ x y => if y.toInt < x.toInt then y else x)
  | .smax o => some (uni w p o false fun _ x y => if x.toInt < y.toInt then y else x)
  | .sminn o => some (uni w p o true fun _ x y => if y < x then y else x)
  | .smaxn o => some (uni w p o true fun _ x y => if x < y then y else x)
  | .sclz o => some (uni1c w p o true fun n x => BitVec.ofNat n (clz x))
  | .spop o => some (uni1c w p o true fun n x => BitVec.ofNat n (popCount x))
  | .sbfx o =>
    let (x, p1) := p.srcU w o.a
    let (y, p2) := p1.srcU w o.b
    let lo := (y.extractLsb' 0 6).toNat
    some (p2.dstU w o.d ((x.extractLsb' lo (min (y.extractLsb' 6 7).toNat (64 - lo))).setWidth 64))
  | .sbfi o =>
    let (x, p1) := p.srcU w o.a
    let (y, p2) := p1.srcU w o.b
    let (d, p3) := p2.srcU w o.d
    let lo := (y.extractLsb' 0 6).toNat
    let u := min (y.extractLsb' 6 7).toNat (64 - lo)
    some (p3.dstU w o.d ((d &&& ~~~(BitVec.ofNat 64 (2 ^ u - 1) <<< lo)) ||| ((x &&& BitVec.ofNat 64 (2 ^ u - 1)) <<< lo)))
  | .scmp o =>
    let (x, p1) := p.srcU w o.a
    let (y, p2) := p1.srcU w o.b
    let f := (p.slot w).flags
    some (p2.setFlags w (if o.x then diffFlags (x.setWidth 32) (y.setWidth 32) f else diffFlags x y f))
  | .ssel o =>
    let (x, p1) := p.srcU w o.a
    let (y, p2) := p1.srcU w o.b
    some (p2.dstU w o.d (if (p.slot w).flags.z then x else y))
  | .smov o => if o.x then none else some (uni1c w p o false fun _ x => x)
  | .srot o => some (uni w p o false fun _ x y => x.rotateLeft (uniCount y))
  | .saddi o => some (uniImm w p o fun x => x + o.imm.signExtend 64)
  | .sandi o => some (uniImm w p o fun x => x &&& o.imm.signExtend 64)
  | .sori o => some (uniImm w p o fun x => x ||| o.imm.signExtend 64)
  | .sxori o => some (uniImm w p o fun x => x ^^^ o.imm.signExtend 64)
  | .sshli o => some (uniImm w p o fun x => x <<< (o.imm.extractLsb' 0 6).toNat)
  | .sshri o => some (uniImm w p o fun x => x >>> (o.imm.extractLsb' 0 6).toNat)
  | .ssari o => some (uniImm w p o fun x => x.sshiftRight (o.imm.extractLsb' 0 6).toNat)
  | .smuli o => some (uniImm w p o fun x => x * o.imm.signExtend 64)
  | .scmpi o =>
    let (x, p1) := p.srcU w o.a
    some (p1.setFlags w (diffFlags x (o.imm.signExtend 64) (p.slot w).flags))
  | .scset o =>
    if exKnown p w o.imm.toNat then
      some (p.dstU w o.d (if condHolds o.imm.toNat (p.slot w) then 1 else 0))
    else none
  | .slimz o => some (p.dstU w (sSpec o.d.toNat) ((o.imm.setWidth 64) <<< (16 * o.h.toNat)))
  | .slimk o =>
    let (x, p1) := p.srcU w (sSpec o.d.toNat)
    some (p1.dstU w (sSpec o.d.toNat)
      ((x &&& ~~~((0xFFFF : Dword) <<< (16 * o.h.toNat))) ||| ((o.imm.setWidth 64) <<< (16 * o.h.toNat))))
  | .mand o => some (masks w p o fun x y => x &&& y)
  | .mor o => some (masks w p o fun x y => x ||| y)
  | .mxor o => some (masks w p o fun x y => x ^^^ y)
  | .mandn o => some (masks w p o fun x y => x &&& ~~~y)
  | .mnot o => some (mask1c w p o fun x => ~~~x)
  | .mpop o => some (mask1c w p o fun x => BitVec.ofNat 32 (popCount x))
  | .mffs o => some (mask1c w p o fun x =>
      BitVec.ofNat 32 (((List.range 32).find? fun k => x.getLsbD k).getD 32))
  | .mtest o =>
    let (x, p1) := p.srcU w o.a
    let (y, p2) := p1.srcU w o.b
    let t := x.setWidth 32 &&& y.setWidth 32
    some (p2.setFlags w ⟨t.getLsbD 31, t == 0, t == y.setWidth 32, false, (p.slot w).flags.ex⟩)
  | .br o =>
    if exKnown p w o.cond.toNat then
      some (if condHolds o.cond.toNat (p.slot w) then goto p w (target pc o.off) else p)
    else none
  | .jmp o => some (goto p w (target pc o.off))
  | .call o => some (goto (linked p w (pc + 4)) w (target pc o.off))
  | .jmpr o => jumped false (p.srcU w o.a)
  | .ret o => jumped false (p.srcU w o.a)
  | .callr o => jumped true (p.srcU w o.a)
  | .yield _ => some (p.modSlot w fun l => { l with laneAt := l.uniAt, accAt := l.uniAt })
  | .nop _ => some p
  | .waitf _ => some p
  | .sysrd o =>
    match s.sysRead p w o.imm.toNat with
    | some v => some (p.dstU w o.d v)
    | none => none
  | .clkrd o => some (p.dstU w o.d (s.clk w.core))
  | _ => none
where
  /-- R164: a jump to an aligned 56-bit address; any other value traps. -/
  jumped (link : Bool) (x : Dword × Party) : Option Party :=
    if x.1.extractLsb' 0 2 = 0 ∧ x.1.extractLsb' 56 8 = 0 then
      some (goto (if link then linked x.2 w (pc + 4) else x.2) w (x.1.extractLsb' 0 56))
    else none

-- the matrix sequencer (R331, R332)

/-- The sequencer of a core may issue a stream instruction: it is in focus and no operation holds it on q1 (R331). -/
structure Streams (s : State) (core : Nat) (p : Party) (i : Instr) : Prop where
  focus : s.focus = .sequencer core
  party : s.party? core = some p
  reserved : reservedOk i = true
  free : p.seq.hold.onOp = false

/-- The state once a stream instruction has issued: the stream PC past it (R332). -/
def streamed (s : State) (core : Nat) (i : Instr) : State :=
  s.markIssued.modParty core (·.modSeq fun q => { q with pc := q.pc + BitVec.ofNat 56 (4 * (encode i).length) })

/-- The trap record's cause and place of an instruction that faults on its operands at the slot's own PC. -/
def faultAt (w : SlotRef) (p : Party) (i : Instr) (c : Cause) (addr : Dword) : TrapInfo :=
  let l := p.slot w
  let lane := if halfBit (instrWords i).w0 then none else lowLane l.m0
  ⟨c, l.pc, instrWords i, lane, if halfBit (instrWords i).w0 then 0 else l.m0, addr, ⟨0, 0⟩, l.pc, false⟩

/-- R141, R171, R172, R180: what a write of `v` to system register `n` makes of a party, for the writes that read no memory; none for
a write that its value or the state forbids, and for an unassigned number. A WPnCTL written when `at_` was the next number takes the
scope entry as it stands then, and what issued before still meets the old watchpoint. -/
def sysPut (w : SlotRef) (n : Nat) (v : Dword) (at_ : Nat) (p : Party) : Option Party :=
  let st := p.strand w.strand
  let put (f : Strand → Strand) : Option Party := some (p.modStrand w.strand f)
  let trap (r : TrapRec) : Option Party := put fun st => { st with trap := r }
  if n = 0x001 then put fun st => { st with dspBase := v.extractLsb' 10 13 }
  else if n = 0x002 then put fun st => { st with step := v.getLsbD 2 }
  else if n = 0x008 then some { p with thnd := v.extractLsb' 2 54 }
  else if n = 0x009 then trap { st.trap with wpf := st.trap.wpf && !v.getLsbD 17 }
  else if n = 0x010 then trap { st.trap with tepc := v.extractLsb' 0 56 }
  else if n = 0x011 then trap { st.trap with m0 := v.extractLsb' 0 32 }
  else if n = 0x012 then
    trap { st.trap with flags := ⟨v.getLsbD 4, v.getLsbD 3, v.getLsbD 2, v.getLsbD 1, v.getLsbD 0⟩ }
  else if n = 0x018 then put fun st =>
    { st with rngseed := v.extractLsb' 0 32, rng := tab fun i => seedLane (v.extractLsb' 0 32) i.val }
  else if 0x020 ≤ n ∧ n ≤ 0x027 then put fun st => { st with fmt := st.fmt.setIfInBounds (n - 0x020) (v.extractLsb' 0 16) }
  else if 0x028 ≤ n ∧ n ≤ 0x02B then put fun st => { st with anc := st.anc.setIfInBounds (n - 0x028) (v.extractLsb' 4 28) }
  else if n = 0x02D then put fun st => { st with pitch := { st.pitch with err := st.pitch.err && !v.getLsbD 16 } }
  else if n = 0x030 ∨ n = 0x033 ∨ n = 0x036 ∨ n = 0x039 then
    let k := (n - 0x030) / 3
    put fun st => st.setWatch k { st.watch k with base := v.extractLsb' 0 56 }
  else if n = 0x031 ∨ n = 0x034 ∨ n = 0x037 ∨ n = 0x03A then
    let k := (n - 0x030) / 3
    if 2 ≤ (v.extractLsb' 0 6).toNat ∧ (v.extractLsb' 0 6).toNat ≤ 55 then
      put fun st => st.setWatch k { st.watch k with log2 := v.extractLsb' 0 6 }
    else none
  else if n = 0x032 ∨ n = 0x035 ∨ n = 0x038 ∨ n = 0x03B then
    let k := (n - 0x030) / 3
    if v.getLsbD 0 = false ∨ (p.entryAt (v.extractLsb' 6 5)).cover.toNat < 2 then
      some (p.replaceWatch w.strand k { st.watch k with
        lmask := v.extractLsb' 32 32
        scope := v.extractLsb' 6 5
        act := v.getLsbD 3
        kind := v.extractLsb' 1 2
        en := v.getLsbD 0
        comps := none
        seen := p.entryAt (v.extractLsb' 6 5)
        since := at_ } at_)
    else none
  else if 0x040 ≤ n ∧ n ≤ 0x04F then
    let b := p.bar (n - 0x040)
    if (v.extractLsb' 0 5).toNat ≤ 16 ∧ b.pend = b.count + (if b.seq then 1 else 0) then
      some (p.setBar (n - 0x040) { b with
        count := (v.extractLsb' 0 5).toNat
        seq := v.getLsbD 8
        pend := (v.extractLsb' 0 5).toNat + if v.getLsbD 8 then 1 else 0 })
    else none
  else if 0x067 ≤ n ∧ n ≤ 0x07F then
    if v.extractLsb' 8 48 = 0 then some (p.setScope (n - 0x060) (launchScope (n - 0x060))) else none
  else if sysAssigned n then some p
  else none

-- addresses and accesses (R84, R243, R245)

/-- R84: the address that lane `k` of a lane instruction forms from base `b`, offset operand `o` and shift `sh`. -/
def laneAddress (w : SlotRef) (p : Party) (b : BitVec 5) (o : BitVec 7) (sh : Nat) (k : Fin 32) : Dword :=
  if b = 25 then (p.src64 w o)[k]
  else
    let off : Word := (p.src32 w o).1[k]
    if b = 24 then (off <<< sh : Word).setWidth 64
    else (p.strand w.strand).sreg b.toNat + ((off.setWidth 64 : Dword) <<< sh)

/-- R243, R257: a lane load: its operands, its kind, the bytes of an element, what its destination takes. -/
def laneLoadOf : Instr → Option (LM × AccKind × Nat × LoadForm)
  | .ldb o => some (o, .load, 1, .zext)
  | .ldbs o => some (o, .load, 1, .sext)
  | .ldh o => some (o, .load, 2, .zext)
  | .ldhs o => some (o, .load, 2, .sext)
  | .ldw o => some (o, .load, 4, .zext)
  | .ldd o => some (o, .load, 8, .pair)
  | .ldq o => some (o, .load, 16, .quad)
  | .tagld o => some (o, .tagLoad, 1, .zext)
  | _ => none
/-- R243, R257: a lane store: its operands, its kind, the bytes of an element, how its source is read. -/
def laneStoreOf : Instr → Option (LM × AccKind × Nat × SrcKind)
  | .stb o => some (o, .store, 1, .l32)
  | .sth o => some (o, .store, 2, .l32)
  | .stw o => some (o, .store, 4, .l32)
  | .std o => some (o, .store, 8, .l64)
  | .stq o => some (o, .store, 16, .l128)
  | .tagst o => some (o, .tagStore, 1, .l32)
  | _ => none
/-- What every access of a strand starts from: whose it is, where it stands. -/
structure Starts (w : SlotRef) (p : Party) (i : Instr) (a : Access) : Prop where
  strand : a.strand = w.strand
  slot : a.slot = w.slot
  pc : a.pc = (p.slot w).pc
  words : a.words = instrWords i
  lanes : a.m0 = p.active w
  attempt : a.step = .attempt
  faultless : a.fault = none
  overtakers : a.ovr.count = 0
/-- One part for each active lane, in ascending order, and no other. -/
def partsOf (w : SlotRef) (p : Party) (a : Access) : Prop := a.parts.map LanePart.lane = (laneList.filter (inMask (p.active w))).map Fin.val

-- anchors (R313-R319)

/-- R314: one count event, as its pseudocode gives it, but for the event (PH, 0, 0) (log entry 101). -/
def advanced (a : Anchor) : Anchor :=
  { a with
    ph := (a.ph + 1) % 16
    ov := a.ov || decide (a.ea < a.na) || decide (a.es < a.ns)
    pa := max a.ea a.na - a.na
    ps := max a.es a.ns - a.ns
    na := 0
    ns := 0 }
def counted (a : Anchor) (tag na ns : Nat) : Anchor :=
  if na = 0 ∧ ns = 0 ∧ tag = a.ph then a
  else if tag = a.ph then
    let b := { a with
      ov := a.ov || decide (a.pa < na) || decide (a.ps < ns)
      pa := max a.pa na - na
      ps := max a.ps ns - ns }
    if b.pa = 0 ∧ b.ps = 0 then
      let d := advanced b
      if (b.na ≠ 0 ∨ b.ns ≠ 0) ∧ d.pa = 0 ∧ d.ps = 0 then advanced d else d
    else b
  else if tag = (a.ph + 1) % 16 then
    { a with
      ov := a.ov || decide (4095 < a.na + na) || decide (1048575 < a.ns + ns)
      na := min (a.na + na) 4095
      ns := min (a.ns + ns) 1048575 }
  else { a with er := true }
/-- R318: the value names an anchor of the party. -/
def namesAnchor (p : Party) (v : Dword) : Prop :=
  v.extractLsb' 32 32 = 0 ∧ v.toNat % 16 = 0 ∧ v.toNat ≠ 0 ∧ v.toNat + 16 ≤ p.scratchSize
/-- R318, R242: the strand has no local access that has not been performed. -/
def portFree (p : Party) (w : SlotRef) : Prop := (p.accesses.any fun a => a.strand == w.strand && a.loc && a.step == .attempt) = false
/-- R143: the strand has no access, and no packet of its own is under way to this scratchpad. -/
def allSettled (s : State) (p : Party) (w : SlotRef) : Prop :=
  (p.accesses.any fun a => a.strand == w.strand) = false ∧
  (s.packets.any fun k => k.core == w.core && k.strand == w.strand && k.mem.core == w.core && k.mem.inScratch) = false

-- engine commands and group instructions

/-- R300-R306: the copy that an instruction asks for, with the party after its reads; none for another instruction, and for a CPROW
whose length does not fit. -/
def copyOf (w : SlotRef) (p : Party) (i : Instr) : Option (Party × Access) :=
  let blank := (p.ctx w i).access p .command 0
  let perLane (o : LM) : Option (Party × Access) :=
    let (r, p1) := p.dataSrc w .l32 o.r
    let (a, p2) := p1.addresses w o.b o.o o.sh.toNat
    some (p2, { blank with
      op := some i
      base := a.base
      pl1 := r
      pl2 := a.off
      parts := laneParts (p.active w) fun k => (a.addr[k], (r[k]).toNat, 0) })
  match i with
  | .cpw o => perLane o
  | .cpd o => perLane o
  | .cpq o => perLane o
  | .cpws o => perLane o
  | .cpds o => perLane o
  | .cpqs o => perLane o
  | .cprow o =>
    let (va, p1) := p.srcU w o.a
    let (a, p2) := p1.addresses w o.b o.o 0
    let (vc, p3) := p2.srcU w o.c
    let own := laneParts (p.active w) fun k => (a.addr[k], 0, 0)
    if vc.toNat < 2 ^ 24 then
      some (p3, { blank with
        op := some i
        ord := o.ord
        entry := p.entryAt o.scope
        base := a.base
        pl1 := logUniform va
        pl2 := a.off
        pl3 := logUniform vc
        parts := own ++ own.flatMap fun q => laterPages q.lane q.addr vc.toNat })
    else none
  | .cpbox o =>
    let (va, p1) := p.srcU w o.a
    let (vb, p2) := p1.srcU w o.b
    let d (n : Nat) : Dword := if isS o.d then (p.strand w.strand).sreg (o.d.toNat - 88 + n) else 0
    some (p2, { blank with
      uniform := true
      op := some i
      entry := p.entryAt (o.w1.extractLsb' 20 5)
      pl1 := tab fun k => if k.val = 0 then (d 1).setWidth 64 ++ (d 0).setWidth 64
        else if k.val = 1 then (d 2).setWidth 128 else 0
      pl2 := logUniform va
      pl3 := logUniform vb
      parts := ⟨0, va, 0, 1, 0, 0, .scratch 0, .waiting, 0, false, false⟩ :: laterPages 0 va 96 })
  | _ => none

/-- R444-R453: the lanes of a group instruction: address, data, the c value, the old data of XAMO; with the party after its reads. -/
def groupLanes (w : SlotRef) (p : Party) (o : LL) (data : Bool) (kind : SrcKind) (old : Bool) :
    Party × Lanes (BitVec 128) × Addresses × List LanePart :=
  let (d, p1) := if data then p.dataSrc w kind o.a else (splat 0, p)
  let (a, p2) := p1.addresses w o.b o.o 0
  let (cs, p3) := p2.src32 w o.c
  let (y, p4) := if old then p3.dataSrc w kind o.d else (splat 0, p3)
  (p4, d, a, (laneParts (p.active w) fun k => (a.addr[k], (d[k]).toNat, (cs[k]).toNat)).map fun q =>
    { q with old := (y[q.lane]?.getD 0).toNat })
/-- The access that a flow command is tried as. -/
def flowAccess (s : State) (w : SlotRef) (p : Party) (i : Instr) (size : Nat) : Access :=
  { (p.ctx w i).access p .group size with
    id := s.nextId
    uniform := true
    op := some i }

-- stream and matrix operations (R331, R361, R366-R376)

/-- The state in which the sequencer of `core` is `q` and a stream instruction has issued. -/
def streamAfter (s : State) (core : Nat) (p : Party) (q : Sequencer) : State := s.markIssued.setParty core { p with seq := q }
/-- R331, R332: the sequencer runs on, `n` bytes further. -/
def ran (p : Party) (n : Nat) : Sequencer := { p.seq with pc := p.seq.pc + BitVec.ofNat 56 n, state := .running }
/-- A stream operation has issued: it is in flight with a number of its own, and its completion is an event of the agenda. -/
def opStarted (s : State) (core : Nat) (p : Party) (i : Instr) (valid : BitVec 4) (kind : OpKind) (tile slot : Option Nat) : State :=
  ((streamAfter s core p { ran p (4 * (encode i).length) with
    valid := valid
    ops := p.seq.ops ++ [⟨s.nextId, p.seq.pc, kind, tile, slot⟩] }).bump).post (.matrixOpComplete ⟨core, s.nextId⟩)
/-- R361, R159: a k register written; zr discards. -/
def putK (q : Sequencer) (r : BitVec 7) (v : Dword) : Sequencer :=
  if r.toNat < 16 then { q with k := q.k.setIfInBounds r.toNat v } else q
/-- A k register of the stream, or zr. -/
def isK (r : BitVec 7) : Prop := r.toNat < 16
def isKz (r : BitVec 7) : Prop := r.toNat < 16 ∨ r = zr

end

end Sys2Proof.Claims

open Sys2Proof Sys2Proof.Machine Sys2Proof.Claims

/-- R185-R201, R206, R210-R212, R216-R219: EVERY LANE INSTRUCTION OF REGISTERS that may issue does issue, and its party is
then what its rule makes of it; nothing outside the party changes. -/
def Obligations.LaneInstructionsGiveTheirResult : Prop :=
  ∀ (s : State) (w : SlotRef) (p q : Party) (i : Instr),
    Issues s w p i → laneResult w (begun s w p i) i = some q →
    exec i s = .next (after s w q)

/-- R131-R133, R190, R205, R208, R213, R215: a producer of the lane or the uniform class reads its sources, marks its whole
destination empty, and is in flight with its result from then on; its write-back is an event of the agenda. -/
def Sys2Proof.Claims.ProducersStart : Prop :=
  ∀ (s : State) (w : SlotRef) (p q : Party) (i : Instr)
    (r : Result) (n : Nat),
    Issues s w p i →
    product w (begun s w p i) i = some (q, r, n) →
    exec i s = .next
      (((after s w
          { q.modStrand w.strand (·.setFulls false (marksOf (roles i).dst)) with
            producers := kput q.producers s.nextId (inFlight w i r s.now n) }).post
        (.producerWriteback ⟨w.core, s.nextId⟩)).bump)

/-- R131, R205: the write-back of a result that waits for no batch and no FETCH comes no earlier than its cycle; it writes the
result, marks the destination full and ends the producer. Before that cycle it stays on the agenda. -/
def Sys2Proof.Claims.WriteBackFillsTheDestination : Prop :=
  ∀ (s : State) (o : CoreItem) (p : Party) (k : Producer),
    s.party? o.core = some p → kget p.producers o.id = some k →
    (∀ d x off, k.res ≠ .batch d x off) → (∀ d x v e, k.res ≠ .fetched d x v e) →
    (k.due ≤ s.now → exec (.producerWriteback o) s = .next (s.setParty o.core
      (({ p with producers := serase o.id p.producers }.writeResult k.strand o.id k.res).modStrand k.strand
        (·.setFulls true k.marks)))) ∧
    (s.now < k.due → exec (.producerWriteback o) s = .next (s.post (.producerWriteback o)))

/-- R131-R133, R190, R205, R208, R213, R215: a producer of the lane or the uniform class is in flight with its result from its issue on, and
its write-back fills the destination, no earlier than its cycle. -/
def Obligations.ProducersPutTheirResultInFlight : Prop := Claims.ProducersStart ∧ Claims.WriteBackFillsTheDestination

/-- R151-R164, R167-R169, R179, R180: EVERY UNIFORM INSTRUCTION OF REGISTERS that may issue does issue, and its party is then
what its rule makes of it; nothing outside the party changes. -/
def Obligations.UniformInstructionsGiveTheirResult : Prop :=
  ∀ (s : State) (w : SlotRef) (p q : Party) (i : Instr),
    Issues s w p i →
    uniformResult s w (p.slot w).pc (begun s w p i) i = some q →
    exec i s = .next (after s w q)

/-- R164: JMPR, CALLR and RET check the low two bits of their source, then its high byte; only then the PC takes it. The
fault's record names the branch's own PC and the value. -/
def Obligations.JumpsToRegistersAreChecked : Prop :=
  ∀ (s : State) (w : SlotRef) (p : Party) (o : UR) (i : Instr),
    (i = .jmpr o ∨ i = .callr o ∨ i = .ret o) → Issues s w p i →
    let x := (begun s w p i).srcU w o.a
    let trap (c : Cause) : Out :=
      .next ((after s w x.2).takeTrap w ((p.ctx w i).info { x.2.slot w with pc := (p.slot w).pc } c x.1))
    (x.1.extractLsb' 0 2 ≠ 0 → exec i s = trap .misalignedFetch) ∧
    (x.1.extractLsb' 0 2 = 0 → x.1.extractLsb' 56 8 ≠ 0 → exec i s = trap .fetchFault) ∧
    (x.1.extractLsb' 0 2 = 0 → x.1.extractLsb' 56 8 = 0 → ∃ t q, exec i s = .next t ∧
      t.party? w.core = some q ∧ (w.strand < 16 → (q.slot w).pc = x.1.extractLsb' 0 56))

-- divergence, barriers, waits (R117-R124, R142, R166, R167)

/-- R117: SPLIT of a slot with no live partner, or with a live one whose push succeeds: T ← m0 ∧ m; slot B takes T at the
target, slot A the rest at PC + 4, both running with the flags of the slot that executed it. -/
def Obligations.SplitDividesTheSlot : Prop :=
  ∀ (s : State) (w : SlotRef) (p p1 : Party) (o : US),
    Issues s w p (.split o) →
    ((p.strand w.strand).pairLive = true → (p.strand w.strand).atBarrier (otherSlot w.slot) = false ∧ portFree p w) →
    ((p.strand w.strand).pairLive = true → ∀ n, ((p.strand w.strand).slot (otherSlot w.slot)).wait ≠ .log n) →
    ((p.strand w.strand).pairLive = true → ∀ pc, ((p.strand w.strand).slot (otherSlot w.slot)).wait ≠ .engine pc) →
    ((p.strand w.strand).pairLive = false → p1 = begun s w p (.split o)) →
    ((p.strand w.strand).pairLive = true →
      (begun s w p (.split o)).pushDivergence w.strand (otherSlot w.slot) = .ok p1) →
    w.strand < 16 →
    ∃ q, exec (.split o) s = .next (after s w q) ∧
      let l := p.slot w
      let t := l.m0 &&& (p.strand w.strand).mreg o.m.toNat
      let a := q.slot { w with slot := .a }
      let b := q.slot { w with slot := .b }
      (b.em = t ∧ b.m0 = t ∧ b.pc = l.pc + (o.off.signExtend 56 <<< 2)) ∧
      (a.em = l.em &&& ~~~t ∧ a.m0 = l.m0 &&& ~~~t ∧ a.pc = l.pc + 4) ∧
      (a.st = .running ∧ b.st = .running ∧ a.flags = l.flags ∧ b.flags = l.flags)

/-- R118, R119, R124: JOIN with no pair live is DIVSTACK_UNDERFLOW. JOIN beside a vacant slot, or beside one that waits at the same JOIN,
merges the pair into slot A when the divergence stack is empty: the masks join, the flags are slot A's, the PC is past the JOIN, and slot
B is not live. With entries on the stack the top one is popped into the slot that it names, and the merged slot takes the other letter
without the lanes that the popped one has (one that waits at a JOIN beside a merged slot left vacant joins on). Beside a live slot that
runs or waits elsewhere JOIN stops at its own address. -/
def Obligations.JoinMergesThePair : Prop :=
  ∀ (s : State) (w : SlotRef) (p : Party) (o : UJ),
    Issues s w p (.join o) → w.strand < 16 →
    let st := p.strand w.strand
    let y := st.slot (otherSlot w.slot)
    (st.pairLive = false → exec (.join o) s = .next (s.markIssued.takeTrap w (faultAt w p (.join o) .divstackUnderflow 0))) ∧
    (st.pairLive = true → y.em = 0 ∨ (y.st = .atJoin ∧ y.pc = (p.slot w).pc) → portFree p w → ∀ d, st.depth = d + 1 →
      let lo : Dword := BitVec.ofNat 64 (p.readScratch (st.entryOff d) 8)
      let hi : Dword := BitVec.ofNat 64 (p.readScratch (st.entryOff d + 8) 8)
      let em := hi.extractLsb' 0 32
      let k : SlotId := if lo.getLsbD 61 then .b else .a
      let left := ((st.slot .a).em ||| (st.slot .b).em) &&& ~~~em
      ¬(left = 0 ∧ lo.getLsbD 62 = true) →
      ∃ q, exec (.join o) s = .next (after s w q) ∧ (q.strand w.strand).depth = d ∧
        let popped := q.slot { w with slot := k }
        let merged := q.slot { w with slot := otherSlot k }
        (popped.pc = lo.extractLsb' 0 56 ∧ popped.em = em ∧ popped.st = (if lo.getLsbD 62 then .atJoin else .running)) ∧
        ((∀ x ∈ st.owed, x.entry ≠ d) → popped.m0 = (hi.extractLsb' 32 32 &&& em) ∧
          popped.flags = ⟨lo.getLsbD 60, lo.getLsbD 59, lo.getLsbD 58, lo.getLsbD 57, lo.getLsbD 56⟩) ∧
        (merged.em = left ∧ merged.m0 = (((st.slot .a).m0 ||| (st.slot .b).m0) &&& ~~~em) ∧
          merged.flags = (st.slot .a).flags ∧ merged.pc = (p.slot w).pc + 4 ∧ merged.st = .running) ∧
        q.scratch = p.scratch) ∧
    (st.pairLive = true → y.em = 0 ∨ (y.st = .atJoin ∧ y.pc = (p.slot w).pc) → st.depth = 0 →
      ∃ q, exec (.join o) s = .next (after s w q) ∧
        let a := q.slot { w with slot := .a }
        a.em = ((st.slot .a).em ||| (st.slot .b).em) ∧ a.m0 = ((st.slot .a).m0 ||| (st.slot .b).m0) ∧
        a.flags = (st.slot .a).flags ∧ a.pc = (p.slot w).pc + 4 ∧ a.st = .running ∧
        q.slot { w with slot := .b } = Slot.dead) ∧
    (st.pairLive = true → y.em ≠ 0 → y.st ≠ .atJoin →
      exec (.join o) s = .next (after s w ((begun s w p (.join o)).modSlot w fun l =>
        { l with st := .atJoin, pc := (p.slot w).pc }))) ∧
    (st.pairLive = true → y.em ≠ 0 → y.st = .atJoin → y.pc ≠ (p.slot w).pc →
      exec (.join o) s = .next (s.markIssued.takeTrap w (faultAt w p (.join o) .joinMismatch (y.pc.setWidth 64))))

/-- R166, R142: BAR arrives once at barrier n and waits. An arrival that is not the last lowers PEND by one; the last one of a
phase raises PHASE, reloads PEND with the expectation, and no slot of the party waits at n then. -/
def Sys2Proof.Claims.BarArrivesOnce : Prop :=
  ∀ (s : State) (w : SlotRef) (p : Party) (o : UI),
    Issues s w p (.bar o) → w.strand < 16 →
    let n := o.imm.toNat % 16
    let b := p.bar n
    b.count + (if b.seq then 1 else 0) ≠ 0 → (p.accesses.any fun a => a.strand == w.strand) = false →
    (s.packets.any fun k => k.core == w.core && k.strand == w.strand && k.mem.core == w.core && k.mem.inScratch) = false →
    ∃ q, exec (.bar o) s = .next (after s w q) ∧
      (1 < b.pend → (q.bar n).pend = b.pend - 1 ∧ (q.bar n).phase = b.phase ∧
        (q.slot w).wait = .bar n (p.slot w).pc) ∧
      (b.pend ≤ 1 → (q.bar n).pend = b.count + (if b.seq then 1 else 0) ∧ (q.bar n).phase = b.phase + 1 ∧
        ∀ i k pc, i < 16 → ((q.strand i).slot k).wait ≠ .bar n pc)

/-- R167: SLEEP with a nonzero immediate waits for 16 cycles per unit; its expiry ends the wait from that cycle on, and not
before. SLEEP #0 waits for nothing. -/
def Sys2Proof.Claims.SleepWaitsSixteenCyclesAUnit : Prop :=
  ∀ (s : State) (w : SlotRef) (p : Party) (o : UI),
    (Issues s w p (.sleep o) → o.imm = 0 → exec (.sleep o) s = .next (after s w (begun s w p (.sleep o)))) ∧
    (Issues s w p (.sleep o) → o.imm ≠ 0 → exec (.sleep o) s = .next
      ((after s w ((begun s w p (.sleep o)).modSlot w fun l =>
        { l with wait := .sleep (s.now + 16 * o.imm.toNat) (p.slot w).pc })).post (.sleepExpiry w))) ∧
    (∀ till pc, (s.slotOf w).wait = .sleep till pc →
      (till ≤ s.now → exec (.sleepExpiry w) s = .next (s.modSlot w Slot.wake)) ∧
      (s.now < till → exec (.sleepExpiry w) s = .next (s.post (.sleepExpiry w))))

/-- R142, R166, R167: BAR waits for the phase, SLEEP for its time. -/
def Obligations.BarriersAndSleepsWait : Prop := Claims.BarArrivesOnce ∧ Claims.SleepWaitsSixteenCyclesAUnit

-- traps (R174-R178, R501)

/-- R176, R177: TRAP raises cause 0x60 + n, BRK raises BREAKPOINT, with the active lanes in the record and the next PC as TEPC;
a party with a handler takes it there, if the strand is not in its handler. -/
def Sys2Proof.Claims.TrapAndBrkEnterTheHandler : Prop :=
  ∀ (s : State) (w : SlotRef) (p : Party) (o : UI) (i : Instr) (c : Cause),
    (i = .trap o ∧ c = .trap (o.imm.extractLsb' 0 5) ∨ i = .brk o ∧ c = .breakpoint) → Issues s w p i → w.strand < 16 →
    let l := p.slot w
    let t : TrapInfo := ⟨c, l.pc, instrWords i, lowLane l.m0, l.m0, 0, ⟨0, 0⟩, l.pc + 4, false⟩
    (p.thnd ≠ 0 → (p.strand w.strand).inh = false →
      exec i s = .next (after s w ((begun s w p i).deliver w t s.now))) ∧
    (p.thnd = 0 ∨ (p.strand w.strand).inh = true →
      exec i s = .next ((after s w (begun s w p i)).takeTrap w t))

/-- R174: what delivery does: the other slot is suspended if it is live, the record and TEPC, TSM and TSTATE are written from the
trapping slot, INH is set, m0 becomes em and the PC becomes THND; the flags are kept, and so is every other strand. -/
def Sys2Proof.Claims.DeliveryWritesTheTrapRecord : Prop :=
  ∀ (p : Party) (w : SlotRef) (t : TrapInfo) (now : Nat), w.strand < 16 →
    let st := p.strand w.strand
    let x := p.slot w
    let y := st.slot (otherSlot w.slot)
    let q := p.deliver w t now
    let r := (q.strand w.strand).trap
    (r.code = causeCode t.cause ∧ r.tpc = t.pc ∧ r.tinsn = t.words.w1 ++ t.words.w0 ∧ r.lane = t.lane ∧ r.lmask = t.mask ∧
      r.addr = t.addr ∧ r.overCount = t.ovr.count ∧ r.overPc = t.ovr.pc) ∧
    (r.tepc = t.tepc ∧ r.em = x.em ∧ r.m0 = x.m0 ∧ r.flags = x.flags ∧ r.hslot = w.slot ∧ r.slot = w.slot ∧
      r.olive = (y.st != .notLive) ∧ r.otherSt = y.st) ∧
    ((q.strand w.strand).inh = true ∧ (q.slot w).m0 = x.em ∧ (q.slot w).pc = p.thnd ++ 0#2 ∧ (q.slot w).flags = x.flags ∧
      (q.slot w).em = x.em ∧ (q.slot w).st = .running) ∧
    (((q.strand w.strand).slot (otherSlot w.slot)).st = if y.st = .notLive then .notLive else .suspended) ∧
    (∀ k, k ≠ w.strand → q.strand k = p.strand k) ∧
    (q.bars = p.bars ∧ q.scratch = p.scratch ∧ q.accesses = p.accesses ∧ q.seq = p.seq ∧ q.thnd = p.thnd)

/-- R501, R175: with THND = 0, BREAKPOINT and SINGLE_STEP take a debug halt and every other cause halts the party; a fault in the
handler halts it; MACHINE_CHECK halts every core of it and signals vector 3. The other members of a halting party's rope go no further (R341). -/
def Obligations.UndeliveredFaultsHaltTheParty : Prop :=
  ∀ (s : State) (w : SlotRef) (p : Party) (t : TrapInfo), s.party? w.core = some p → p.status ≠ .halting →
    let inh := (p.strand w.strand).inh
    let h (all dbg : Bool) : HaltInfo := ⟨t, w.strand, w.slot, all, inh, dbg, s.now⟩
    (t.cause = .machineCheck → s.takeTrap w t =
      { ((s.setParty w.core { p with status := .halting, halt := some (h true false) }).breakRope w.core).post
          (.partyHalt ⟨w.core⟩) with
        msix := s.msix ++ [3] }) ∧
    (t.cause ≠ .machineCheck → (inh = true ∨ p.thnd = 0 ∧ t.cause ≠ .breakpoint ∧ t.cause ≠ .singleStep) →
      s.takeTrap w t = ((s.setParty w.core { p with status := .halting, halt := some (h false false) }).breakRope w.core).post
        (.partyHalt ⟨w.core⟩)) ∧
    (inh = false → p.thnd = 0 → (t.cause = .breakpoint ∨ t.cause = .singleStep) →
      ∃ q, s.takeTrap w t = (s.setParty w.core q).post (.debugHalt ⟨w.core, false, t.cause⟩) ∧
        q.status = .debugHalt ∧ (w.strand < 16 → (q.slot w).pc = t.tepc))

/-- R178: ERET in the handler ends it: the PC is TEPC, m0 is TSM.M0 within em, the flags are TSTATE's, and the other slot, if it was
live, is as it was suspended. -/
def Sys2Proof.Claims.EretResumesTheSlot : Prop :=
  ∀ (s : State) (w : SlotRef) (p : Party) (o : UJ),
    Issues s w p (.eret o) → (p.strand w.strand).inh = true → w.strand < 16 →
    let r := (p.strand w.strand).trap
    ∃ q, exec (.eret o) s = .next (after s w q) ∧
      (q.strand w.strand).inh = false ∧ (q.slot w).pc = r.tepc ∧ (q.slot w).m0 = (r.m0 &&& (p.slot w).em) ∧
      (q.slot w).flags = r.flags ∧ (q.slot w).em = (p.slot w).em ∧
      (r.olive = true → ((q.strand w.strand).slot (otherSlot w.slot)).st = r.otherSt) ∧
      (∀ k, k ≠ w.strand → q.strand k = p.strand k)

/-- R174, R178: entry to the handler, and ERET. -/
def Obligations.HandlersAreEnteredAndLeft : Prop := Claims.DeliveryWritesTheTrapRecord ∧ Claims.EretResumesTheSlot

/-- R114, R170: END stops a strand whose slots are not both live: it is not live and has ended; the last strand's end posts the end
of the party. END with both slots live is JOIN_MISMATCH with TADDR 0. -/
def Obligations.EndStopsTheStrand : Prop :=
  ∀ (s : State) (w : SlotRef) (p : Party) (o : UJ),
    Issues s w p (.endStrand o) → (p.strand w.strand).txn = none → w.strand < 16 →
    (p.accesses.any fun a => a.strand == w.strand) = false →
    (p.shadows = true → w.strand < 8 → (p.accesses.any fun a => a.strand == w.strand + 8) = false) →
    ((p.strand w.strand).pairLive = false → ∃ q,
      (q.strand w.strand).live = false ∧ (q.strand w.strand).ended = true ∧
      (p.shadows = false → (p.strand w.strand).held = none → ∀ k, k ≠ w.strand → q.strand k = p.strand k) ∧
      exec (.endStrand o) s = .next (if q.strands.any Strand.live then after s w q
        else (after s w q).post (.partyEnd ⟨w.core⟩))) ∧
    ((p.strand w.strand).pairLive = true →
      exec (.endStrand o) s = .next (s.markIssued.takeTrap w (faultAt w p (.endStrand o) .joinMismatch 0)))

-- system registers (R171, R172, R180, R57, R141, R259-R263)

/-- R171, R172: SYSWR of an assigned register that the state lets it write, with a value that the register takes, writes it and
nothing else. -/
def Sys2Proof.Claims.SyswrWritesTheRegister : Prop :=
  ∀ (s : State) (w : SlotRef) (p q : Party) (o : UI),
    Issues s w p (.syswr o) →
    let n := o.imm.toNat
    (0x067 ≤ n → n ≤ 0x07F → p.priv = true) →
    (n = 0x001 → (p.strand w.strand).pairLive = false) →
    ((n = 0x010 ∨ n = 0x011 ∨ n = 0x012) → (p.strand w.strand).inh = true) →
    ((n = 0x030 ∨ n = 0x031) → ((p.strand w.strand).watch 0).en = false) →
    ((n = 0x033 ∨ n = 0x034) → ((p.strand w.strand).watch 1).en = false) →
    ((n = 0x036 ∨ n = 0x037) → ((p.strand w.strand).watch 2).en = false) →
    ((n = 0x039 ∨ n = 0x03A) → ((p.strand w.strand).watch 3).en = false) →
    let x := (begun s w p (.syswr o)).srcU w o.a
    sysPut w n x.1 s.nextId x.2 = some q → exec (.syswr o) s = .next (after s w q)

/-- R141, R171, R172, R180, R261: SYSWR without the privilege for SCOPE7-31 is PRIVILEGED, and of an unassigned number, of DSP with both
slots live, of a trap register outside the handler, of the base or length of a watchpoint that is enabled, or of a barrier at which
arrivals are registered, ILLEGAL_OPERAND; so is a barrier count above 16, and a watchpoint's length outside 2 to 55. It writes nothing. -/
def Obligations.SyswrChecksTheRegister : Prop :=
  ∀ (s : State) (w : SlotRef) (p : Party) (o : UI),
    s.focus = .slot w → s.party? w.core = some p → p.slotReady w = true → p.operandsReady w (.syswr o) = true →
    fetchCount (.syswr o) = 0 → reservedOk (.syswr o) = true → operandOk (.syswr o) = true →
    p.rolesOk w (roles (.syswr o)) = true →
    let n := o.imm.toNat
    let trap (c : Cause) : Out := .next (s.markIssued.takeTrap w (faultAt w p (.syswr o) c 0))
    (0x067 ≤ n → n ≤ 0x07F → p.priv = false → exec (.syswr o) s = trap .privileged) ∧
    (sysAssigned n = false → exec (.syswr o) s = trap .illegalOperand) ∧
    (n = 0x001 → (p.strand w.strand).pairLive = true → exec (.syswr o) s = trap .illegalOperand) ∧
    ((n = 0x010 ∨ n = 0x011 ∨ n = 0x012) → (p.strand w.strand).inh = false → exec (.syswr o) s = trap .illegalOperand) ∧
    (∀ k, k < 4 → n = 0x030 + 3 * k ∨ n = 0x031 + 3 * k → ((p.strand w.strand).watch k).en = true →
      exec (.syswr o) s = trap .illegalOperand) ∧
    (0x040 ≤ n → n ≤ 0x04F → (p.bar (n - 0x040)).pend ≠ (p.bar (n - 0x040)).count + (if (p.bar (n - 0x040)).seq then 1 else 0) →
      exec (.syswr o) s = trap .illegalOperand) ∧
    (p.srcsFault w (roles (.syswr o)).srcs [] = none →
      let v := ((begun s w p (.syswr o)).srcU w o.a).1
      (0x040 ≤ n → n ≤ 0x04F → 16 < (v.extractLsb' 0 5).toNat → exec (.syswr o) s = trap .illegalOperand) ∧
      (∀ k, k < 4 → n = 0x031 + 3 * k → (v.extractLsb' 0 6).toNat < 2 ∨ 55 < (v.extractLsb' 0 6).toNat →
        exec (.syswr o) s = trap .illegalOperand))

/-- R57, R141, R260, R262: the register writes that the opcode table lists as steps of their own, for the slot in focus. -/
def Sys2Proof.Claims.RegisterWriteStepsWriteTheRegister : Prop :=
  ∀ (s : State) (w : SlotRef) (p q : Party) (o : SysValue), s.focus = .slot w → s.party? w.core = some p →
    (sysPut w 0x018 o.value s.nextId p = some q → exec (.rngseedWrite o) s = .next (s.setParty w.core q)) ∧
    (sysPut w (0x040 + o.n % 16) o.value s.nextId p = some q → exec (.barcfgWrite o) s = .next (s.setParty w.core q)) ∧
    (7 ≤ o.n % 32 → sysPut w (0x060 + o.n % 32) o.value s.nextId p = some q → exec (.scopeWrite o) s = .next (s.setParty w.core q)) ∧
    (sysPut w (0x032 + 3 * (o.n % 4)) o.value s.nextId p = some q → exec (.wpctlWrite o) s = .next (s.setParty w.core q))

/-- R57, R141, R171, R172, R180, R260, R262: SYSWR, and the register writes that the opcode table lists as steps of their own. -/
def Obligations.SystemRegisterWritesWrite : Prop := Claims.SyswrWritesTheRegister ∧ Claims.RegisterWriteStepsWriteTheRegister

-- memory instructions (R84, R243-R258)

/-- R84, R243, R257: a lane load that may issue starts one access: a part for each active lane at the address of R84, with the
element size, the local bit and the policy of the instruction; it is a producer of its destination. -/
def Sys2Proof.Claims.LaneLoadsStartTheirAccess : Prop :=
  ∀ (s : State) (w : SlotRef) (p : Party) (i : Instr) (o : LM) (k : AccKind) (n : Nat) (f : LoadForm),
    laneLoadOf i = some (o, k, n, f) → Issues s w p i →
    let b := begun s w p i
    ∃ q a, exec i s = .next ((after s w q).startAccess w.core a) ∧ Starts w p i a ∧ partsOf w p a ∧
      q = (b.addresses w o.b o.o o.sh.toNat).2 ∧
      a.kind = k ∧ a.size = n ∧ a.form = f ∧ a.loc = decide (o.b = 24) ∧ a.policy = o.p ∧ a.ord = 0 ∧ a.dst = (roles i).dst ∧
      (∀ x ∈ a.parts, ∀ h : x.lane < 32, x.addr = laneAddress w b o.b o.o o.sh.toNat ⟨x.lane, h⟩)

/-- R84, R243, R257: a lane store that may issue starts one access that stores the low bytes of each active lane's source at the address
of R84; it has no destination. That it reads its source before its addresses is the model's choice (log entry 108). -/
def Sys2Proof.Claims.LaneStoresStartTheirAccess : Prop :=
  ∀ (s : State) (w : SlotRef) (p : Party) (i : Instr) (o : LM) (k : AccKind) (n : Nat) (src : SrcKind),
    laneStoreOf i = some (o, k, n, src) → Issues s w p i →
    let b := begun s w p i
    let d := b.dataSrc w src o.r
    ∃ q a, exec i s = .next ((after s w q).startAccess w.core a) ∧ Starts w p i a ∧ partsOf w p a ∧
      q = (d.2.addresses w o.b o.o o.sh.toNat).2 ∧
      a.kind = k ∧ a.size = n ∧ a.loc = decide (o.b = 24) ∧ a.policy = o.p ∧ a.ord = 0 ∧ a.dst = none ∧
      (∀ x ∈ a.parts, ∀ h : x.lane < 32, x.addr = laneAddress w d.2 o.b o.o o.sh.toNat ⟨x.lane, h⟩ ∧
        x.x = (d.1[x.lane]).toNat % 2 ^ (8 * n))

/-- R84, R243, R257: the loads and stores of lanes. That a store pops its source before its addresses is the model's choice (log entry
108). -/
def Obligations.LaneAccessesStart : Prop := Claims.LaneLoadsStartTheirAccess ∧ Claims.LaneStoresStartTheirAccess

/-- R245: SLDW, SLDD, SSTW and SSTD start an access of one part, at a + SignExtend(off8) × size, or in the local space at that
value modulo 2^32. That a store reads its d field first is the model's choice (log entry 108). -/
def Sys2Proof.Claims.UniformAccessesStart : Prop :=
  ∀ (s : State) (w : SlotRef) (p : Party) (o : UI) (i : Instr) (size : Nat),
    (i = .sldw o ∧ size = 4 ∨ i = .sldd o ∧ size = 8 ∨ i = .sstw o ∧ size = 4 ∨ i = .sstd o ∧ size = 8) → Issues s w p i →
    let store := i = .sstw o ∨ i = .sstd o
    let b := begun s w p i
    ∃ d q1 a, (¬store → q1 = b) ∧ (store → d = (b.srcU w o.d).1 ∧ q1 = (b.srcU w o.d).2) ∧
      exec i s = .next ((after s w (q1.srcU w o.a).2).startAccess w.core a) ∧ Starts w p i a ∧
      a.uniform = true ∧ a.size = size ∧ a.loc = o.imm.getLsbD 8 ∧ a.policy = 0 ∧ a.ord = 0 ∧
      (store → a.kind = .store ∧ a.dst = none) ∧ (¬store → a.kind = .load ∧ a.form = .uniform ∧ a.dst = (roles i).dst) ∧
      ∃ x, a.parts = [x] ∧ x.lane = 0 ∧
        x.addr = (let v := (q1.srcU w o.a).1 + (o.imm.extractLsb' 0 8).signExtend 64 * BitVec.ofNat 64 size
          if o.imm.getLsbD 8 then (v.extractLsb' 0 32).setWidth 64 else v) ∧
        (store → x.x = d.toNat % 2 ^ (8 * size))

/-- R250: every earlier access of the slot's strand stands as FENCE.REL at the cover of a scope entry requires. -/
def Sys2Proof.Claims.Released (s : State) (w : SlotRef) (p : Party) (e : BitVec 5) : Prop :=
  s.fenceDone w.core w.strand ⟨2, p.cover e, s.nextId, true, []⟩ = true

/-- R85, R248, R249: LDO, STO and ATOM outside a transaction start their access, with the width of the instruction. A release in the order
field makes STO and ATOM wait until it stands; after an acquire in that of LDO and ATOM the strand's later accesses wait for it. ATOM
reads the operands that its function names, in the order a, address, c (log entry 108). -/
def Obligations.OrderedAccessesStart : Prop :=
  ∀ (s : State) (w : SlotRef) (p : Party) (o : LL), (p.strand w.strand).txn = none →
    let size := if o.wd = 0 then 4 else if o.wd = 1 then 8 else 16
    let released := o.ord.getLsbD 1 = true → Claims.Released s w p o.scope
    (¬released → (Issues s w p (.sto o) → exec (.sto o) s = .next s) ∧ (Issues s w p (.atom o) → exec (.atom o) s = .next s)) ∧
    (Issues s w p (.ldo o) → let b := begun s w p (.ldo o)
      ∃ a, exec (.ldo o) s = .next (((after s w (b.addresses w o.b o.o 0).2).startAccess w.core a).acquireAfter w o.ord o.scope) ∧
        Starts w p (.ldo o) a ∧ partsOf w p a ∧ a.kind = .load ∧ a.size = size ∧ a.loc = decide (o.b = 24) ∧ a.ord = o.ord ∧ a.dst = (roles (.ldo o)).dst ∧
        (∀ x ∈ a.parts, ∀ h : x.lane < 32, x.addr = laneAddress w b o.b o.o 0 ⟨x.lane, h⟩)) ∧
    (Issues s w p (.sto o) → released → let d := (begun s w p (.sto o)).dataSrc w (wdSrc o.wd) o.a
      ∃ a, exec (.sto o) s = .next ((after s w (d.2.addresses w o.b o.o 0).2).startAccess w.core a) ∧ Starts w p (.sto o) a ∧
        partsOf w p a ∧ a.kind = .store ∧ a.size = size ∧ a.loc = decide (o.b = 24) ∧ a.ord = o.ord ∧ a.dst = none ∧
        (∀ x ∈ a.parts, ∀ h : x.lane < 32, x.addr = laneAddress w d.2 o.b o.o 0 ⟨x.lane, h⟩ ∧
          x.x = (d.1[x.lane]).toNat % 2 ^ (8 * size))) ∧
    (Issues s w p (.atom o) → released → let b := begun s w p (.atom o)
      let d := if atomReadsA o.fn then b.dataSrc w (wdSrc o.wd) o.a else (splat 0, b)
      let e := if atomReadsC o.fn then (d.2.addresses w o.b o.o 0).2.dataSrc w (wdSrc o.wd) o.c
        else (splat 0, (d.2.addresses w o.b o.o 0).2)
      ∃ a, exec (.atom o) s = .next (((after s w e.2).startAccess w.core a).acquireAfter w o.ord o.scope) ∧ Starts w p (.atom o) a ∧
        partsOf w p a ∧ a.kind = .atomic ∧ a.size = size ∧ a.loc = decide (o.b = 24) ∧ a.ord = o.ord ∧ a.fn = o.fn ∧ a.dst = (roles (.atom o)).dst ∧
        (∀ x ∈ a.parts, ∀ h : x.lane < 32, x.addr = laneAddress w d.2 o.b o.o 0 ⟨x.lane, h⟩ ∧
          x.x = (d.1[x.lane]).toNat ∧ x.y = (e.1[x.lane]).toNat))

/-- R84, R235, R243: a store to the local window by a party with no access outstanding, whose active lanes are aligned and lie in
the scratchpad, is performed at once: each byte of a lane's element holds the lane's data, the highest lane winning, and every
byte outside the elements, all memory and every other party stand as they did. -/
def Obligations.LocalStoresWriteTheScratchpad : Prop :=
  ∀ (s : State) (w : SlotRef) (p : Party) (i : Instr) (o : LM) (n : Nat) (src : SrcKind),
    laneStoreOf i = some (o, .store, n, src) → Issues s w p i → o.b = 24 → p.accesses = [] →
    let d := (begun s w p i).dataSrc w src o.r
    let at_ (k : Fin 32) : Nat := (laneAddress w d.2 o.b o.o o.sh.toNat k).toNat
    (∀ k, inMask (p.active w) k = true → at_ k % n = 0 ∧ at_ k + n ≤ p.scratchSize) →
    ∃ t q, exec i s = .next t ∧ t.party? w.core = some q ∧ q.accesses = [] ∧
      (∀ k j, inMask (p.active w) k = true → j < n →
        (∀ l, k < l → inMask (p.active w) l = true → at_ k + j < at_ l ∨ at_ l + n ≤ at_ k + j) →
        q.readScratch (at_ k + j) 1 = (d.1[k]).toNat / 2 ^ (8 * j) % 256) ∧
      (∀ a, (∀ k, inMask (p.active w) k = true → a < at_ k ∨ at_ k + n ≤ a) → q.readScratch a 1 = p.readScratch a 1) ∧
      t.mem = s.mem ∧ t.tags = s.tags ∧ t.poison = s.poison ∧ (∀ c, c ≠ w.core → t.party? c = s.party? c)

/-- R84, R243: a load of up to four bytes from the local window by a party with no access outstanding, whose active lanes are
aligned, in the scratchpad and free of poison, is in flight with the lanes' values, extended by its kind, for its register. -/
def Obligations.LocalLoadsReadTheScratchpad : Prop :=
  ∀ (s : State) (w : SlotRef) (p : Party) (i : Instr) (o : LM) (n : Nat) (f : LoadForm),
    laneLoadOf i = some (o, .load, n, f) → n ≤ 4 → Issues s w p i → o.b = 24 → p.accesses = [] → o.r.toNat < 88 →
    let b := begun s w p i
    let at_ (k : Fin 32) : Nat := (laneAddress w b o.b o.o o.sh.toNat k).toNat
    (∀ k, inMask (p.active w) k = true → at_ k % n = 0 ∧ at_ k + n ≤ p.scratchSize ∧ p.scratchPoison (at_ k) n = false) →
    ∃ t q k v, exec i s = .next t ∧ t.party? w.core = some q ∧ q.accesses = [] ∧
      kget q.producers (s.nextId + 1) = some k ∧ k.strand = w.strand ∧ k.res = .lanes o.r.toNat (p.active w) v ∧
      (∀ l, inMask (p.active w) l = true → v[l] =
        if f = .sext then (BitVec.ofNat (8 * n) (p.readScratch (at_ l) n)).signExtend 32
        else BitVec.ofNat 32 (p.readScratch (at_ l) n)) ∧
      q.scratch = p.scratch ∧ t.mem = s.mem

-- fences and transactions (R250-R255)

/-- R250: FENCE.ACQ, FENCE.REL and FENCE.ACQREL outside a transaction hold the strand's later accesses until the fence is settled, at the
cover of the named scope; FENCE of kind 0 only moves the clock of the core by the lease. -/
def Sys2Proof.Claims.FenceHoldsLaterAccesses : Prop :=
  ∀ (s : State) (w : SlotRef) (p : Party) (o : UI), Issues s w p (.fence o) → (p.strand w.strand).txn = none →
    (o.imm.extractLsb' 5 2 ≠ 0 → exec (.fence o) s = .next ((after s w ((begun s w p (.fence o)).modStrand w.strand
      (·.addFence ⟨o.imm.extractLsb' 5 2, p.cover (o.imm.extractLsb' 0 5), s.nextId, true, []⟩))).settleFences w.core)) ∧
    (o.imm.extractLsb' 5 2 = 0 → exec (.fence o) s = .next
      ((after s w (begun s w p (.fence o))).tick w.core (s.pkg (pkgOfCore w.core)).lease))

/-- R251, R254: TBEGIN opens the strand's transaction with the active lanes as members; TCANCEL takes the active lanes out of an
open one, with their sets; TCOMMIT with none open is a producer that writes 0 to md, and with one open marks md empty and starts the
commit. -/
def Sys2Proof.Claims.TransactionsOpenCancelAndCommit : Prop :=
  ∀ (s : State) (w : SlotRef) (p : Party), w.strand < 16 →
    (∀ o, Issues s w p (.tbegin o) → (p.strand w.strand).txn = none → ∃ q t, exec (.tbegin o) s = .next (after s w q) ∧
      (q.strand w.strand).txn = some t ∧ t.members = p.active w ∧ t.commit = none ∧
      ∀ k : Fin 32, t.lanes[k] = ⟨[], [], 0⟩) ∧
    (∀ o t, Issues s w p (.tcancel o) → (p.strand w.strand).txn = some t → t.commit = none →
      ∃ q u, exec (.tcancel o) s = .next (after s w q) ∧ (q.strand w.strand).txn = some u ∧
        u.members = t.members &&& ~~~(p.active w) ∧
        ∀ k : Fin 32, u.lanes[k] = if inMask (p.active w) k then ⟨[], [], 0⟩ else t.lanes[k]) ∧
    (∀ o, Issues s w p (.tcancel o) → (p.strand w.strand).txn = none →
      exec (.tcancel o) s = .next (after s w (begun s w p (.tcancel o)))) ∧
    (∀ o, Issues s w p (.tcommit o) → (p.accesses.any fun a => a.strand == w.strand) = false →
      (s.packets.any fun k => k.core == w.core && k.strand == w.strand && k.mem.core == w.core && k.mem.inScratch) = false →
      ((p.strand w.strand).txn = none → exec (.tcommit o) s = .next ((after s w (begun s w p (.tcommit o))).produce w
        [112 + o.md.toNat] (.mask o.md.toNat 0) none)) ∧
      (∀ t, (p.strand w.strand).txn = some t → t.commit = none →
        ∃ q u, exec (.tcommit o) s = .next ((after s w q).post (.transactionCommitStep ⟨w.core, w.strand, none⟩)) ∧
          (q.strand w.strand).txn = some u ∧ u.commit = some o.md ∧ u.members = t.members ∧ u.pc = (p.slot w).pc ∧
          (o.md.toNat < 8 → (q.strand w.strand).isFull (112 + o.md.toNat) = false)))

/-- R250-R254: FENCE, TBEGIN, TCANCEL and TCOMMIT. -/
def Obligations.FencesAndTransactionsStart : Prop := Claims.FenceHoldsLaterAccesses ∧ Claims.TransactionsOpenCancelAndCommit

/-- R258: TAGFILL of an empty aligned range does nothing; of a longer one it starts an access that fills from a. -/
def Sys2Proof.Claims.TagfillStartsAtItsAddress : Prop :=
  ∀ (s : State) (w : SlotRef) (p : Party) (o : UL), Issues s w p (.tagfill o) →
    let b := begun s w p (.tagfill o)
    let x := (b.srcU w o.a).1
    let n := (b.srcU w o.b).1
    (x.toNat % 32 = 0 → n = 0 → exec (.tagfill o) s = .next (after s w b)) ∧
    (n ≠ 0 → n.toNat < 2 ^ 48 → ∃ a y, exec (.tagfill o) s = .next ((after s w b).startAccess w.core a) ∧
      Starts w p (.tagfill o) a ∧ a.kind = .tagFill ∧ a.uniform = true ∧ a.parts = [y] ∧ y.addr = x ∧ y.x = n.toNat) ∧
    (x.toNat % 32 = 0 → n.toNat % 32 = 0 → 2 ^ 48 ≤ n.toNat → exec (.tagfill o) s =
      .next (s.markIssued.takeTrap w (faultAt w p (.tagfill o) .illegalOperand 0)))

/-- R245, R258: the uniform loads and stores, and TAGFILL. -/
def Obligations.UniformAccessesAndTagfillStart : Prop := Claims.UniformAccessesStart ∧ Claims.TagfillStartsAtItsAddress

-- anchors and pitches (R313-R322)

/-- R314, R315: a count event that names an anchor of the scratchpad changes it as the pseudocode says, ER first when a sector failed,
and no byte outside it; an event whose tag is neither the phase nor the next one also pushes a notice to q4. That an event of no arrival
and no sector in the anchor's own phase changes nothing, where the pseudocode would advance an anchor that has nothing pending, is the
model's reading (log entry 101). -/
def Obligations.CountEventsUpdateTheAnchor : Prop :=
  ∀ (s : State) (p : Party) (o : CountEvent), s.party? o.core = some p → o.off ≠ 0 →
    let a := p.anchorAt o.off
    let a1 := { a with er := a.er || o.err }
    let tag := o.tag.toNat
    ∃ q, exec (.anchorCountEvent o) s = .next (s.setParty o.core q) ∧ q.anchorAt o.off = counted a1 tag o.na o.ns ∧
      (∀ x, x < o.off ∨ o.off + 16 ≤ x → q.readScratch x 1 = p.readScratch x 1) ∧
      (tag = a.ph ∨ tag = (a.ph + 1) % 16 → q.q4 = p.q4) ∧
      (tag ≠ a.ph → tag ≠ (a.ph + 1) % 16 → p.q4.length + 2 ≤ 128 →
        q.q4.length = p.q4.length + 2)

/-- R319: ANSET names an anchor for a slot or none; ANINIT sets the expectation and the pending counts; ANEXP adds sectors to the
pending ones; ANARR counts arrivals in the anchor's own phase. -/
def Sys2Proof.Claims.AnchorInstructionsChangeTheAnchor : Prop :=
  ∀ (s : State) (w : SlotRef) (p : Party) (o : UR), w.strand < 16 → portFree p w →
    (Issues s w p (.anset o) →
      let x := (begun s w p (.anset o)).srcU w o.a
      (x.1 = 0 ∨ namesAnchor p x.1) → o.d.toNat < 4 → ∃ q, exec (.anset o) s = .next (after s w q) ∧
        (q.strand w.strand).anc[o.d.toNat]? = some (x.1.extractLsb' 4 28) ∧ q.scratch = p.scratch) ∧
    (Issues s w p (.aninit o) →
      let x := (begun s w p (.aninit o)).srcU w o.a
      let y := x.2.srcU w o.b
      namesAnchor p x.1 → y.1.extractLsb' 44 20 = 0 → y.1 ≠ 0 →
      exec (.aninit o) s = .next (after s w (y.2.putAnchor x.1.toNat ⟨false, false, 0, 0, (y.1.extractLsb' 0 24).toNat,
        (y.1.extractLsb' 24 20).toNat, (y.1.extractLsb' 0 24).toNat, (y.1.extractLsb' 24 20).toNat, 0⟩))) ∧
    (Issues s w p (.anexp o) →
      let x := (begun s w p (.anexp o)).srcU w o.a
      let y := x.2.srcU w o.b
      let a := p.anchorAt x.1.toNat
      namesAnchor p x.1 → y.1.toNat < 2 ^ 24 → a.ps + y.1.toNat < 2 ^ 24 →
      exec (.anexp o) s = .next (after s w (y.2.putAnchor x.1.toNat { a with ps := a.ps + y.1.toNat }))) ∧
    (Issues s w p (.anarr o) → allSettled s p w →
      let x := (begun s w p (.anarr o)).srcU w o.a
      let y := x.2.srcU w o.b
      let a := p.anchorAt x.1.toNat
      namesAnchor p x.1 → y.1.toNat < 2 ^ 20 →
      exec (.anarr o) s = .next (after s w (y.2.putAnchor x.1.toNat (counted a a.ph y.1.toNat 0))))

/-- R319: ANWAIT of an anchor in another phase than b[3:0] writes PH, OV and ER to d and performs an acquire; of an anchor in that
phase it leaves the slot waiting, with nothing changed. -/
def Sys2Proof.Claims.AnwaitWaitsForThePhase : Prop :=
  ∀ (s : State) (w : SlotRef) (p : Party) (o : UR), Issues s w p (.anwait o) → portFree p w → isQ o.a = false → isQ o.b = false →
    let b := begun s w p (.anwait o)
    let x := (b.srcU w o.a).1
    let n := (b.srcU w o.b).1.toNat % 16
    let a := p.anchorAt x.toNat
    namesAnchor p x →
    (a.ph ≠ n → exec (.anwait o) s = .next ((after s w ((b.dstU w o.d
        (BitVec.ofNat 64 (a.ph + (if a.ov then 16 else 0) + if a.er then 32 else 0))).modStrand w.strand
          (·.addFence ⟨1, 1, s.nextId, false, []⟩))).settleFences w.core)) ∧
    (a.ph = n → exec (.anwait o) s = .next s)

/-- R318, R319: ANSET, ANINIT, ANEXP, ANARR and ANWAIT. -/
def Obligations.AnchorInstructionsChangeAndAwaitAnchors : Prop := Claims.AnchorInstructionsChangeTheAnchor ∧ Claims.AnwaitWaitsForThePhase

/-- R321, R322: PCLOSE gives the number of the open pitch and opens the next; a pitch closed with no copy in it, when all before it
are complete, is complete at once. WAITP of a complete pitch goes on with an acquire; of one out of range it takes PITCH_RANGE. -/
def Obligations.PitchesCloseAndComplete : Prop :=
  ∀ (s : State) (w : SlotRef) (p : Party) (o : UR), w.strand < 16 →
    let k := (p.strand w.strand).pitch
    (Issues s w p (.pclose o) → (k.openN - 1 - k.done).toNat ≠ 32767 →
      ∃ q, exec (.pclose o) s = .next (after s w q) ∧ (q.strand w.strand).pitch.openN = k.openN + 1 ∧
        q = ((begun s w p (.pclose o)).dstU w o.d (k.openN.setWidth 64)).modStrand w.strand
          (fun st => { st with pitch := (q.strand w.strand).pitch }) ∧
        (k.done + 1 = k.openN → k.pending = [] → (q.strand w.strand).pitch.done = k.openN)) ∧
    (Issues s w p (.waitp o) →
      let x := (begun s w p (.waitp o)).srcU w o.a
      let ahead := (x.1.extractLsb' 0 16 - k.done).toNat
      isQ o.a = false →
      (ahead = 0 ∨ 32768 ≤ ahead → exec (.waitp o) s = .next ((after s w (x.2.modStrand w.strand
        (·.addFence ⟨1, 1, s.nextId, false, []⟩))).settleFences w.core)) ∧
      (0 < ahead → ahead < 32768 → (k.openN - 1 - k.done).toNat < ahead →
        exec (.waitp o) s = .next ((after s w x.2).takeTrap w (faultAt w p (.waitp o) .pitchRange 0))) ∧
      (0 < ahead → ahead < 32768 → ahead ≤ (k.openN - 1 - k.done).toNat → exec (.waitp o) s = .next s))

-- copies (R296, R300-R306, R323)

/-- R296, R300, R303, R305: a copy that may issue, a CPBOX once the strand's earlier stores are performed, is checked with its operands; one
that passes is accepted as a command, one that fails is rejected with a trap at its own PC, and one whose page is absent goes to the
operand log. -/
def Obligations.CopiesAreCheckedAndAccepted : Prop :=
  ∀ (s t : State) (w : SlotRef) (p q : Party) (i : Instr) (a : Access),
    copyOf w (begun s w p i) i = some (q, a) → Issues s w p i → (p.strand w.strand).txn = none → portFree p w →
    p.cmdRoom = true → q.inLog { a with pc := (p.slot w).pc } = false → (a.readsBox && q.storesLeft w.strand) = false →
    let a1 := { a with pc := (p.slot w).pc, id := s.nextId }
    (∀ c, (after s w q).checkCommand w.core q a1 = .ok t c → exec i s = .next (t.acceptCopy w.core c)) ∧
    (∀ f, (after s w q).checkCommand w.core q a1 = .bad t f → exec i s = .next ((t.rejectCopy w.core w.strand).takeTrap w
      ⟨f.cause, (p.slot w).pc, instrWords i, f.lane, f.mask, f.addr, ⟨0, 0⟩, (p.slot w).pc, false⟩)) ∧
    (∀ va, (after s w q).checkCommand w.core q a1 = .missing t va →
      exec i s = .next (((after s w { q with accesses := q.accesses ++ [a1] }).bump).logAccess w.core a1 (some (missingPage va))))

-- the dispenser (R397-R407)

/-- R397, R398, R407: FETCH by a strand that the dispenser serves takes an item and is a producer of d and EX; FETCHB by one that a bin
serves is a producer of the batch's header; FETCHB checks its offset, and then both are FETCH_NOT_BOUND for any other strand. -/
def Sys2Proof.Claims.FetchTakesWork : Prop :=
  ∀ (s : State) (w : SlotRef) (p : Party) (o : UR),
    let served := p.collective = false ∧ (p.shadows = true → w.strand < 8)
    (p.strand w.strand).txn = none →
    (Issues s w p (.fetch o) → served → p.items.length < 16 → s.fetchFree w.core p.grid 1 = true →
      let x := (after s w (begun s w p (.fetch o))).obtain w
      exec (.fetch o) s = .next ((x.2.modSlot w fun l => { l with exPending := true }).produce w
        (marksOf (roles (.fetch o)).dst) (.fetched o.d (.live w.slot) (x.1.getD 0) x.1.isNone) none)) ∧
    (Issues s w p (.fetch o) → ¬served → exec (.fetch o) s = .next
      ((after s w (begun s w p (.fetch o))).takeTrap w (faultAt w p (.fetch o) .fetchNotBound 0))) ∧
    (Issues s w p (.fetchb o) → served → (∃ g, s.grid? p.grid = some g ∧ g.hdr.bins ≠ []) → p.batchCount < 16 →
      let x := (begun s w p (.fetchb o)).srcU w o.a
      x.1.toNat + 32 ≤ p.scratchSize → x.1.toNat < 2 ^ 32 → x.1.toNat % 32 = 0 →
      exec (.fetchb o) s = .next (((after s w x.2).modSlot w fun l => { l with exPending := true }).produce w
        (marksOf (roles (.fetchb o)).dst) (.batch o.d (.live w.slot) x.1.toNat) none)) ∧
    (Issues s w p (.fetchb o) → p.batchCount < 16 →
      let x := (begun s w p (.fetchb o)).srcU w o.a
      let inside := x.1.toNat + 32 ≤ p.scratchSize ∧ x.1.toNat < 2 ^ 32
      let trap (c : Cause) (addr : Dword) : Out := .next ((after s w x.2).takeTrap w (faultAt w p (.fetchb o) c addr))
      (¬inside → exec (.fetchb o) s = trap .scratchRange x.1) ∧
      (inside → x.1.toNat % 32 ≠ 0 → exec (.fetchb o) s = trap .misalignedAccess x.1) ∧
      (inside → x.1.toNat % 32 = 0 → ¬(served ∧ ∃ g, s.grid? p.grid = some g ∧ g.hdr.bins ≠ []) →
        exec (.fetchb o) s = trap .fetchNotBound 0))

/-- R400: WDONE of a work id that the party holds retires the item; of a value that names none it is WDONE_NOITEM with the value in
TADDR. -/
def Sys2Proof.Claims.WdoneRetiresTheItem : Prop :=
  ∀ (s : State) (w : SlotRef) (p : Party) (o : UR), Issues s w p (.wdone o) →
    let x := (begun s w p (.wdone o)).srcU w o.a
    (∀ k, (p.batches.all fun b => b.handle != x.1) = true → p.items.find? (·.wid == x.1) = some k →
      exec (.wdone o) s = .next (after s w { x.2 with items := p.items.erase k })) ∧
    (∀ b, p.batches.find? (·.handle == x.1) = some b →
      exec (.wdone o) s = .next ((after s w { x.2 with batches := p.batches.erase b }).retireBatch p.grid b)) ∧
    ((p.batches.all fun b => b.handle != x.1) = true → (p.items.all fun k => k.wid != x.1) = true →
      exec (.wdone o) s = .next ((after s w x.2).takeTrap w (faultAt w p (.wdone o) .wdoneNoitem x.1)))

/-- R404, R405: EMIT whose active lanes name bins of the grid, with full record registers and room in every bin, puts each lane's
record under way as an access of the strand. -/
def Obligations.EmitAppendsRecords : Prop :=
  ∀ (s : State) (w : SlotRef) (p : Party) (o : LL) (g : Grid),
    Issues s w p (.emit o) → (p.strand w.strand).txn = none → s.grid? p.grid = some g → (p.shadows && decide (w.strand < 8)) = false →
    o.a.toNat < 88 → (p.strand w.strand).isFull o.a.toNat = true →
    let x := (begun s w p (.emit o)).src32 w o.c
    let size (k : Fin 32) : Nat := ((g.bin? (x.1[k]).toNat).map BinEntry.recSz).getD 4 / 4
    let parts := laneParts (p.active w) fun k => (0, (p.strand w.strand).record256 o.a.toNat (size k) k, (x.1[k]).toNat)
    (∀ k, inMask (p.active w) k = true → (x.1[k]).toNat < 256 ∧ (g.bin? (x.1[k]).toNat).isSome ∧ o.a.toNat + size k ≤ 88 ∧
      ∀ j, j < size k → (p.strand w.strand).isFull (o.a.toNat + j) = true) →
    g.roomFor (dieOfCore w.core) (g.numberRecords (dieOfCore w.core) parts []) = true →
    ∃ a, exec (.emit o) s = .next (((after s w { x.2 with accesses := x.2.accesses ++ [a] }).bump).attemptEmit w.core a) ∧
      a.id = s.nextId ∧ a.parts = parts ∧ a.strand = w.strand ∧ a.op = some (.emit o)

-- group instructions (R444-R463)

/-- R444-R453, R250: a group instruction on a flow that is open and not closing, once a release in its order field stands, reads its lanes'
address, data and rank, and starts an access whose lanes are checked and whose packets leave; XGET and XAMO empty their destination. After
an acquire in the order field the strand's later accesses wait for it. -/
def Obligations.GroupInstructionsStart : Prop :=
  ∀ (s : State) (w : SlotRef) (p : Party) (o : LL) (f : Flow) (i : Instr) (data old : Bool) (kind : SrcKind) (g : GroupForm),
    (i = .xput o ∧ data = true ∧ old = false ∧ kind = wdSrc o.wd ∨
      i = .xget o ∧ data = false ∧ old = false ∧ kind = wdSrc o.wd ∨
      i = .xred o ∧ data = true ∧ old = false ∧ kind = wdSrc o.wd ∨
      i = .xamo o ∧ data = atomReadsA o.fn ∧ old = atomReadsC o.fn ∧ kind = wdSrc o.wd ∨
      i = .xsig o ∧ data = true ∧ old = false ∧ kind = .l32) →
    Issues s w p i → (p.strand w.strand).txn = none → p.flow? o.x.toNat = some f → f.closing = none →
    groupForm i = some g →
    let released := o.ord.getLsbD 1 = true → Claims.Released s w p o.scope
    let x := groupLanes w (begun s w p i) o data kind old
    (g.signals && tagsDiffer f g x.2.2.2) = false → (g.kind = .sig → ∀ y ∈ x.2.2.2, y.x < 2 ^ 20) →
    (¬released → exec i s = .next s) ∧
    (released → ∃ a, exec i s = .next ((((after s w { x.1.modStrand w.strand (·.setFulls false (marksOf (roles i).dst)) with
        accesses := x.1.accesses ++ [a] }).bump).attemptGroup w.core a).acquireAfter w o.ord o.scope) ∧
      a.id = s.nextId ∧ a.strand = w.strand ∧ a.op = some i ∧ a.parts = x.2.2.2 ∧ a.dst = (roles i).dst ∧ a.fn = o.fn ∧ a.ord = o.ord)

/-- R457: XFLOW.OPEN and XFLOW.OPEN.ORDERED of a window page that the party may read or write write the open's result, its flow and
reservations with it. XFLOW.CLOSE of a flow that is not open gives 1; of an open one it makes the slot wait for the close. -/
def Sys2Proof.Claims.XflowOpensAndCloses : Prop :=
  ∀ (s : State) (w : SlotRef) (p : Party) (o : UL), Issues s w p (.xflow o) → (p.strand w.strand).txn = none → w.strand < 16 →
    let x := (begun s w p (.xflow o)).srcU w o.a
    (flowOp o = 2 → p.flow? (flowArg o) = none → exec (.xflow o) s = .next (after s w (x.2.dstU w o.d 1))) ∧
    (∀ f, flowOp o = 2 → p.flow? (flowArg o) = some f → f.closing = none → exec (.xflow o) s = .next (after s w
      ((x.2.modFlow (flowArg o) fun f => { f with closing := some (w, o.d) }).modSlot w
        fun l => { l with wait := .engine (p.slot w).pc }))) ∧
    (flowOp o ≠ 2 →
      let a := { flowAccess s w p (.xflow o) 1 with pl2 := logUniform x.1, parts := pointerPart x.1 1 }
      let q := { x.2 with accesses := x.2.accesses ++ [a] }
      ∀ (u : State) (t : TlbEntry), x.2.inLog a = false → (after s w q).bump.windowLeaf w.core q x.1 = some (.ok (u, t)) →
        pteR t.pte || pteW t.pte → (pteP t.pte && !p.priv) = false →
        let r := u.openResult w.core q o x.1 t
        exec (.xflow o) s = .next (u.setParty w.core ((r.2.endWait w s.nextId).dstU w o.d (BitVec.ofNat 64 r.1))))

/-- R458, R459: XABORT on an open flow, with a window that the party may write, members that all name an anchor and a status range in
scratchpad, sends its packets, and its slot waits. -/
def Sys2Proof.Claims.XabortSendsItsPackets : Prop :=
  ∀ (s u : State) (w : SlotRef) (p : Party) (o : UL) (f : Flow) (t : TlbEntry),
    Issues s w p (.xabort o) → (p.strand w.strand).txn = none → w.strand < 16 →
    p.flow? (w1 o 27 23) = some f → f.closing = none → p.movable = false →
    let x := (begun s w p (.xabort o)).srcU w o.a
    let y := x.2.srcU w o.b
    let a := { flowAccess s w p (.xabort o) 1 with
      pl2 := logUniform x.1
      pl3 := logUniform y.1
      parts := pointerPart x.1 1 }
    let q := { y.2 with accesses := y.2.accesses ++ [a] }
    let desc := ptePa t.pte
    let n := u.groupCount desc
    y.2.inLog a = false → (after s w q).bump.windowLeaf w.core q x.1 = some (.ok (u, t)) →
    f.inWindow (x.1.toNat % 2 ^ 56) = true → pteW t.pte = true → (pteP t.pte && !p.priv) = false →
    (∀ r m, r < n → u.memberAt desc r = some m → m.anchor ≠ 0) → y.1.toNat < 2 ^ 32 → y.1.toNat + (n + 3) / 4 ≤ p.scratchSize →
    exec (.xabort o) s = .next (u.sendAbort w.core q a f desc (BitVec.ofNat 4 (w1 o 31 28)) y.1.toNat)

/-- R457-R459: XFLOW and XABORT. -/
def Obligations.FlowCommandsAreTried : Prop := Claims.XflowOpensAndCloses ∧ Claims.XabortSendsItsPackets

/-- R461-R463, R466: TXA on an open flow, with fewer than four unfinished, a window that the party may write, the strand's earlier stores
performed, and a layout map whose checks pass, is accepted into its strand's open pitch. -/
def Obligations.TxaIsAcceptedIntoItsPitch : Prop :=
  ∀ (s u v : State) (w : SlotRef) (p : Party) (o : UL) (f : Flow) (t : TlbEntry) (bs : List Byte),
    Issues s w p (.txa o) → (p.strand w.strand).txn = none → w.strand < 16 →
    p.flow? (txaFlow o) = some f → f.closing = none → p.movable = false →
    p.txas.length + (p.accesses.filter fun a => match a.op with | some (.txa _) => true | _ => false).length < 4 →
    let x := (begun s w p (.txa o)).srcU w o.a
    let y := x.2.srcU w o.b
    let d0 := y.2.srcU w o.d
    let d1 := d0.2.srcU w (o.d + 1)
    let a := { flowAccess s w p (.txa o) 16 with
      ord := txaOrd o
      entry := p.entryAt (txaScope o)
      pl1 := tab fun k => if k.val = 0 then d1.1 ++ d0.1 else 0
      pl2 := logUniform x.1
      pl3 := logUniform y.1
      parts := pointerPart x.1 128 ++ pointerPart d0.1 1 }
    let q := { d1.2 with accesses := d1.2.accesses ++ [a] }
    let desc := ptePa t.pte
    let m := LayoutMap.ofBytes bs
    let dest := f.offset (d0.1.toNat % 2 ^ 56)
    let ms := (List.range (v.groupCount desc)).filterMap fun r => v.memberAt desc r
    d1.1.extractLsb' 12 52 = 0 → d1.2.inLog a = false → (∀ b ∈ d1.2.accesses, b.id ≠ s.nextId) → d1.2.storesLeft w.strand = false →
    (after s w q).bump.windowLeaf w.core q d0.1 true = some (.ok (u, t)) →
    f.inWindow (d0.1.toNat % 2 ^ 56) = true → pteW t.pte = true → (pteP t.pte && !p.priv) = false →
    u.strandLoads w.core q a x.1 8 = .got v bs → txaFault q o m ms (v.groupCount desc) d1.1.toNat dest y.1 = none →
    exec (.txa o) s = .next (v.acceptTxa w.core ((v.party? w.core).getD q) a o f m ms d1.1.toNat dest y.1)

-- the matrix sequencer (R331, R356-R364)

/-- R361: KADD, KADDI, KLIM and KLOOP write their register or the loop limit and advance the stream PC; KLOOP branches when its
incremented register is below the limit, both unsigned. KLOOP whose d is no k register is ILLEGAL_OPERAND. -/
def Sys2Proof.Claims.StreamArithmeticWritesKRegisters : Prop :=
  ∀ (s : State) (core : Nat) (p : Party) (o : UR) (u : UI),
    (Streams s core p (.kadd o) → isKz o.d → isKz o.a → isKz o.b → exec (.kadd o) s = .next (streamAfter s core p
      (putK (ran p 4) o.d (p.seq.kreg o.a + p.seq.kreg o.b)))) ∧
    (Streams s core p (.kaddi u) → isKz u.d → isKz u.a → exec (.kaddi u) s = .next (streamAfter s core p
      (putK (ran p 4) u.d (p.seq.kreg u.a + u.imm.signExtend 64)))) ∧
    (Streams s core p (.klim u) → isKz u.a → exec (.klim u) s = .next (streamAfter s core p
      { ran p 4 with limit := p.seq.kreg u.a + u.imm.signExtend 64 })) ∧
    (Streams s core p (.kloop u) → isK u.d →
      let v := p.seq.kreg u.d + 1
      exec (.kloop u) s = .next (streamAfter s core p (putK { ran p 4 with
        pc := if v < p.seq.limit then p.seq.pc + 4#56 * u.imm.signExtend 56 else p.seq.pc + 4 } u.d v))) ∧
    (Streams s core p (.kloop u) → ¬isK u.d →
      exec (.kloop u) s = .next (s.markIssued.streamFault core .illegalOperand (instrWords (.kloop u))))

/-- R159: SLIMZ and SLIMK in the stream write a k register: SLIMZ the chunk alone, SLIMK the chunk of the register's value. -/
def Sys2Proof.Claims.StreamImmediatesWriteKRegisters : Prop :=
  ∀ (s : State) (core : Nat) (p : Party) (o : UK), o.d.toNat < 16 →
    let r : BitVec 7 := o.d.setWidth 7
    let chunk : Dword := (o.imm.setWidth 64) <<< (16 * o.h.toNat)
    (Streams s core p (.slimz o) → exec (.slimz o) s = .next (streamAfter s core p
      (putK (ran p 4) r chunk))) ∧
    (Streams s core p (.slimk o) → exec (.slimk o) s = .next (streamAfter s core p
      (putK (ran p 4) r ((p.seq.kreg r &&& ~~~((0xFFFF : Dword) <<< (16 * o.h.toNat))) ||| chunk))))

/-- R159, R361: the stream instructions that write k registers. -/
def Obligations.StreamInstructionsWriteKRegisters : Prop := Claims.StreamArithmeticWritesKRegisters ∧ Claims.StreamImmediatesWriteKRegisters

/-- R363, R364, R331: MFENCE and MEND are held while a stream operation or a stream CPBOX is in flight; then MFENCE goes on and MEND leaves
the sequencer Idle, and the party ends if no strand of it is live. -/
def Sys2Proof.Claims.MfenceAndMendWaitForTheStream : Prop :=
  ∀ (s : State) (core : Nat) (p : Party) (o : UJ),
    let quiet := p.seq.ops = [] ∧ (p.cmds.any fun c => c.seq && (c.kind == .copyIn || c.kind == .copyOut)) = false
    (Streams s core p (.mfence o) → quiet → exec (.mfence o) s = .next (streamAfter s core p (ran p 4))) ∧
    (Streams s core p (.mfence o) → ¬quiet → exec (.mfence o) s = .next s) ∧
    (Streams s core p (.mend o) → quiet →
      let t := streamAfter s core p { ran p 4 with state := .idle }
      exec (.mend o) s = .next (if p.strands.any Strand.live then t else t.post (.partyEnd ⟨core⟩))) ∧
    (Streams s core p (.mend o) → ¬quiet → exec (.mend o) s = .next s)

/-- R362, R142: KBAR of a barrier that counts the sequencer, outside a rope, arrives once: it waits in the phase that it did not end, and
goes on past itself in a phase that it ended. KBAR of a barrier that does not is ILLEGAL_OPERAND. -/
def Sys2Proof.Claims.KbarArrivesAtTheBarrier : Prop :=
  ∀ (s : State) (core : Nat) (p : Party) (o : UI), Streams s core p (.kbar o) → o.imm.getLsbD 4 = false → p.seq.hold = .none →
    (p.seq.ops.any StreamOp.holdsKbar) = false →
    let n := o.imm.toNat % 16
    let b := p.bar n
    (b.seq = true → ∃ q, exec (.kbar o) s = .next (s.markIssued.setParty core q) ∧
      (1 < b.pend → q.seq.hold = .arrived n ∧ q.seq.pc = p.seq.pc ∧ (q.bar n).pend = b.pend - 1 ∧ (q.bar n).phase = b.phase) ∧
      (b.pend ≤ 1 → q.seq.hold = .none ∧ q.seq.pc = p.seq.pc + 4 ∧ q.seq.state = .running ∧ (q.bar n).phase = b.phase + 1 ∧
        (q.bar n).pend = b.count + 1)) ∧
    (b.seq = false → exec (.kbar o) s = .next (s.markIssued.streamFault core .illegalOperand (instrWords (.kbar o))))

/-- R356, R357: MSTART to an Idle sequencer, once the strand's accesses are settled, loads the k registers that MASK names from s
registers or with zeros, leaves the others, and starts the stream at a for the issuing strand. -/
def Sys2Proof.Claims.MstartStartsTheStream : Prop :=
  ∀ (s : State) (w : SlotRef) (p : Party) (o : UL), Issues s w p (.mstart o) → p.seq.state = .idle → allSettled s p w →
    let x := (begun s w p (.mstart o)).srcU w o.a
    let st := p.strand w.strand
    x.1.toNat < 2 ^ 56 → x.1.toNat % 4 = 0 →
    (isS o.b = true → ∀ n, n < 8 → o.w1.getLsbD n = true → o.b.toNat + n < 112 ∧ st.isFull (o.b.toNat + n) = true) →
    ∃ q, exec (.mstart o) s = .next (after s w q) ∧ q.seq.state = .running ∧ q.seq.pc = x.1.extractLsb' 0 56 ∧
      q.seq.owner = w.strand ∧ q.seq.limit = p.seq.limit ∧ q.strands = x.2.strands ∧
      (∀ n, n < 8 → o.w1.getLsbD n = true →
        q.seq.k[n]? = some (if isS o.b then st.sreg (o.b.toNat - 88 + n) else 0)) ∧
      (∀ n, n < 16 → (8 ≤ n ∨ o.w1.getLsbD n = false) → q.seq.k[n]? = p.seq.k[n]?)

/-- R331, R356, R357, R362-R364: MSTART, MFENCE, MEND and KBAR. -/
def Obligations.StreamsStartWaitAndEnd : Prop := Claims.MstartStartsTheStream ∧ Claims.MfenceAndMendWaitForTheStream ∧ Claims.KbarArrivesAtTheBarrier

-- matrix operations (R337, R366-R376)

/-- R337, R366: TZERO of a tile of the configuration starts; of any other tile, or with no configuration, it is TILE_CONFIG. TCFG of a
valid configuration outside a rope installs it and clears the accumulators; of an invalid one it is TILE_CONFIG. -/
def Sys2Proof.Claims.TilesAreConfiguredAndZeroed : Prop :=
  ∀ (s : State) (core : Nat) (p : Party),
    (∀ o, Streams s core p (.tzero o) →
      let t := o.imm.toNat % 32
      (∀ c, p.seq.tcfg = some c → t < c.tcnt →
        exec (.tzero o) s = .next (opStarted s core p (.tzero o) p.seq.valid .tzero (some t) none)) ∧
      ((p.seq.tcfg = none ∨ ∃ c, p.seq.tcfg = some c ∧ c.tcnt ≤ t) →
        exec (.tzero o) s = .next (s.markIssued.streamFault core .tileConfig (instrWords (.tzero o))))) ∧
    (∀ o, Streams s core p (.tcfg o) → isK o.a → p.seq.ops.any StreamOp.onTile = false →
      let v := p.seq.kreg o.a
      ((Tcfg.of v).valid = true → (Tcfg.of v).rope = 0 → exec (.tcfg o) s = .next (streamAfter s core p
        { ran p 8 with cfg := v, acc := [], casts := [], broken := false })) ∧
      ((Tcfg.of v).valid = false →
        exec (.tcfg o) s = .next (s.markIssued.streamFault core .tileConfig (instrWords (.tcfg o)))))

/-- R367, R368: WLOAD from scratchpad, with an aligned range in it, clears the slot's valid bit and starts; from global memory it also
accepts a command of the same number. -/
def Sys2Proof.Claims.WloadStarts : Prop :=
  ∀ (s : State) (core : Nat) (p : Party) (o : UL), Streams s core p (.wload o) → isK o.a → isK o.b → p.cmdRoom = true →
    let slot := w1 o 31 30
    let a := p.seq.kreg o.a
    let b := p.seq.kreg o.b
    let len := (b.extractLsb' 0 19).toNat
    let off := (b.extractLsb' 32 18).toNat
    let valid := p.seq.valid &&& ~~~(1#4 <<< slot)
    b.extractLsb' 19 13 = 0 → b.extractLsb' 50 14 = 0 → len % 16 = 0 → off % 16 = 0 → off + len ≤ 262144 → a.toNat % 16 = 0 →
    (o.w1.getLsbD 29 = true → o.w1.extractLsb' 20 7 = 0 → a.toNat < 2 ^ 32 → a.toNat + len ≤ p.scratchSize →
      exec (.wload o) s = .next (opStarted s core p (.wload o) valid (.wload none a.toNat len off) none (some slot))) ∧
    (o.w1.getLsbD 29 = false → o.w1.getLsbD 26 = false → a.extractLsb' 60 4 = 0 →
      ∃ t q c, exec (.wload o) s = .next t ∧ t.party? core = some q ∧ q.cmds = p.cmds ++ [c] ∧ c.id = s.nextId ∧
        c.kind = .wload slot ∧ q.seq.valid = valid ∧
        q.seq.ops = p.seq.ops ++ [⟨s.nextId, p.seq.pc, .wload (some s.nextId) 0 len off, none, some slot⟩])

/-- R337, R366-R368: TCFG, TZERO and WLOAD. -/
def Obligations.TilesAreConfiguredZeroedAndLoaded : Prop := Claims.TilesAreConfiguredAndZeroed ∧ Claims.WloadStarts

/-- R372, R373, R375, R376: TLOAD from scratchpad and a plain or ADD DRAIN to scratchpad start for a tile and extents of the configuration, in the
accumulator's own format; one whose order field asks for an acquire or a release also makes a command of the same number, which performs it
(R41); a DRAIN of an empty extent does nothing. That the row stride of TLOAD is signed as DRAIN's is the model's reading (log entry 36). -/
def Obligations.TileLoadsAndDrainsStart : Prop :=
  ∀ (s : State) (core : Nat) (p : Party) (o : UL) (c : Tcfg), isKz o.d → isK o.a → isK o.b → p.cmdRoom = true →
    p.seq.tcfg = some c →
    let a := p.seq.kreg o.a
    let b := p.seq.kreg o.b
    let t := w1 o 19 15
    let m := if o.d = zr then c.mt else (p.seq.kreg o.d).toNat % 65536
    let n := if o.d = zr then c.nt else (p.seq.kreg o.d).toNat / 65536 % 65536
    t < c.tcnt → m ≤ c.mt → n ≤ c.nt → (p.seq.kreg o.d).extractLsb' 32 32 = 0 → a.toNat % 16 = 0 → b.toNat % 16 = 0 →
    a.toNat < 2 ^ 32 → o.w1.getLsbD 29 = true → w1 o 14 12 = 0 →
    let plain := o.w1.getLsbD 25 = false ∧ o.w1.getLsbD 26 = false
    let ordered (i : Instr) (kind : CmdKind) (op : OpKind) : Prop := ∃ u q x, exec i s = .next u ∧ u.party? core = some q ∧
      q.cmds = p.cmds ++ [x] ∧ x.id = s.nextId ∧ x.kind = kind ∧ x.segs = [] ∧ x.strand = p.seq.owner ∧
      x.rel = o.w1.getLsbD 26 ∧ x.acqs = (if o.w1.getLsbD 25 then some (p.cover (o.w1.extractLsb' 20 5)) else none) ∧
      q.seq.ops = p.seq.ops ++ [⟨s.nextId, p.seq.pc, op, some t, none⟩] ∧ q.seq.pc = p.seq.pc + 8 ∧ q.scratch = p.scratch
    (Streams s core p (.tload o) → o.w1.getLsbD 26 = false →
      rowsOut p a.toNat b.toInt m (n * drainBits c 0 0 / 8) = false →
      let op : OpKind := .tload none a.toNat b.toInt m n 0
      (plain → exec (.tload o) s = .next (opStarted s core p (.tload o) p.seq.valid op (some t) none)) ∧
      (¬plain → ordered (.tload o) (.tload 0) op)) ∧
    (Streams s core p (.drain o) → o.w1.extractLsb' 27 2 = 0 → w1 o 31 30 < 2 → isKz (o.w1.extractLsb' 5 7) → p.seq.hold = .none →
      rowsOut p a.toNat b.toInt m (packedBytes n (drainBits c 0 ((p.seq.kreg (o.w1.extractLsb' 5 7)).setWidth 16))) = false →
      let op : OpKind := .drain none (w1 o 31 30) true a b.toInt m n 0 ((p.seq.kreg (o.w1.extractLsb' 5 7)).setWidth 16) 0 false []
      (0 < m → 0 < n → plain → exec (.drain o) s = .next (opStarted s core p (.drain o) p.seq.valid op (some t) none)) ∧
      (0 < m → 0 < n → ¬plain → ordered (.drain o) (.drain (w1 o 31 30 == 1) 0) op) ∧
      (m = 0 ∨ n = 0 → exec (.drain o) s = .next (streamAfter s core p (ran p 8))))

/-- R342, R352, R369, R370: MMA of the configured shape, and MMAR of a shape within it on a core that may run it, start a multiply into the
tile when no check fails; MMAR of an empty shape issues without effect. -/
def Obligations.MultipliesStart : Prop :=
  ∀ (s : State) (core : Nat) (p : Party) (o : UL) (c : Tcfg), isK o.a → isK o.b → p.seq.tcfg = some c → c.ashare = false →
    p.seq.hold = .none →
    let slot := w1 o 31 30
    let t := w1 o 29 25
    let oa := (p.seq.kreg o.a).toNat % 2 ^ 32
    let ob := (p.seq.kreg o.b).toNat % 2 ^ 32
    let a := (FormatBlock.of ((List.range 32).map (p.scratchFn oa))).1
    let b := (FormatBlock.of ((List.range 32).map (p.scratchFn ob))).1
    (p.seq.ops.any fun x => x.loads slot) = false → t < c.tcnt → a.layout ≠ 1 →
    (Streams s core p (.mma o) → 0 < c.mt → 0 < c.nt → 0 < c.kt → p.mmaFault c oa ob c.mt c.nt c.kt slot false false = none →
      exec (.mma o) s = .next (opStarted s core p (.mma o) p.seq.valid (.mma a b c.mt c.nt c.kt [] false) (some t) (some slot))) ∧
    (Streams s core p (.mmar o) → 28 ≤ core % 32 → isKz (o.w1.extractLsb' 18 7) → c.rope = 0 →
      let v := p.seq.kreg (o.w1.extractLsb' 18 7)
      let m := v.toNat % 65536
      let n := v.toNat / 65536 % 65536
      let k := v.toNat / 2 ^ 32 % 65536
      v.extractLsb' 48 16 = 0 → m ≤ c.mt → n ≤ c.nt → k ≤ c.kt →
      (0 < m → 0 < n → 0 < k → p.mmaFault c oa ob m n k slot false true = none →
        exec (.mmar o) s = .next (opStarted s core p (.mmar o) p.seq.valid (.mma a b m n k [] false) (some t) (some slot))) ∧
      (m = 0 ∨ n = 0 ∨ k = 0 → exec (.mmar o) s = .next (streamAfter s core p (ran p 8))))

-- events of the matrix and copy engines (R333, R297, R298, R324, R378)

/-- R333, R366, R368: the completion of a TZERO that is alone in the stream clears its tile, and no other element; that of a WLOAD from
scratchpad makes its slot valid, also where bytes are poisoned, which is the model's choice (log entry 120). The operation is then gone. -/
def Obligations.MatrixOperationsComplete : Prop :=
  ∀ (s : State) (core id : Nat) (p : Party) (o : StreamOp) (c : Tcfg), s.party? core = some p → p.seq.ops = [o] → o.id = id →
    p.seq.tcfg = some c →
    (∀ t, o.kind = .tzero → o.tile = some t → ∃ q, exec (.matrixOpComplete ⟨core, id⟩) s = .next (s.setParty core q) ∧
      q.seq.ops = [] ∧ (∀ e, e < c.mt * c.nt → sget 0 q.seq.acc (c.entry t 0 0 + e) = 0) ∧
      (∀ x, x < c.entry t 0 0 ∨ c.entry t 0 0 + c.mt * c.nt ≤ x → sget 0 q.seq.acc x = sget 0 p.seq.acc x)) ∧
    (∀ n src len off, o.kind = .wload none src len off → o.slot = some n → n < 4 →
      ∃ q, exec (.matrixOpComplete ⟨core, id⟩) s = .next (s.setParty core q) ∧ q.seq.ops = [] ∧ q.seq.valid.getLsbD n = true)

/-- A segment whose turn it is: its command's operation may go (R333), nothing earlier of its strand is in its way (R40), no acquire is
left (R41), and it is new to its party, whose engines run (R507) and whose fix-up list has room (R327). -/
structure Sys2Proof.Claims.SegGoes (s : State) (core : Nat) (p : Party) (c : EngineCmd) (g : Segment) : Prop where
  party : s.party? core = some p
  cmd : p.cmd? c.id = some c
  ready : g.step = .ready
  runs : p.enginesStopped = false
  open_ : (s.pkg (pkgOfCore core)).paused = false
  room : p.fixEntries + g.runs.length ≤ 256
  unlisted : p.fixups.contains (c.id, g.id) = false
  free : s.segBlocked core p c g = false
  turn : p.cmdTurn c.id = true
  acqs : c.acqs = none

/-- R297, R308, R310, R435: a segment of a copy that may go lands: bytes of a fill, or those that its line's reads give, go into scratchpad;
a copy out, whose KiB has the tag of its swizzle, writes what scratchpad holds. A write whose line has its home on another die leaves as a
numbered store, and the segment lands when it is acknowledged. -/
def Sys2Proof.Claims.CopySegmentsLand : Prop :=
  ∀ (s : State) (core : Nat) (p : Party) (c : EngineCmd) (g : Segment), SegGoes s core p c g → c.seg? g.id = some g →
    (c.kind = .copyIn → g.local_ = true → exec (.segmentLand ⟨core, c.id, g.id⟩) s = .next
      ((s.setParty core (p.takeIn c g.off (g.data.map fun b => (b, false)))).landed core c g none)) ∧
    (∀ t bss, c.kind = .copyIn → g.local_ = false →
      State.readRuns (p.reader core) c.strand c.id (c.tagMode != 2) s g.runs = .got t bss →
      exec (.segmentLand ⟨core, c.id, g.id⟩) s = .next
        (((g.runs.zip bss).foldl (fun s ((_, off, _), bs) => s.modParty core (·.takeIn c off bs)) t).landed core c g
          (firstPoison (g.runs.map Prod.fst) bss))) ∧
    (∀ t, c.kind = .copyOut → (c.box = true → p.swzTag g.off = c.swz) →
      let bss := g.runs.map fun (_, off, n) => p.engineRead (swizzled off n c.swz)
      s.writeRuns (p.reader core) c.strand c.id ((g.runs.map Prod.fst).zip bss) c.tagMode = .done t →
      exec (.segmentLand ⟨core, c.id, g.id⟩) s = .next (t.landed core c g (firstPoison (g.runs.map Prod.fst) bss))) ∧
    (∀ t out, c.kind = .copyOut → (c.box = true → p.swzTag g.off = c.swz) →
      let bss := g.runs.map fun (_, off, n) => p.engineRead (swizzled off n c.swz)
      s.writeRuns (p.reader core) c.strand c.id ((g.runs.map Prod.fst).zip bss) c.tagMode = .away t out →
      exec (.segmentLand ⟨core, c.id, g.id⟩) s = .next ((t.modParty core (·.setSegment c.id { g with
        step := .sent
        out := some out })).toHome core out.line (.homeStore ⟨core, 0, out.line, out.mask, out.data, out.tagMask, out.tags,
          t.outClock core out.line, none, some (c.id, g.id), out.psn⟩))) ∧
    (c.kind = .copyOut → c.box = true → p.swzTag g.off ≠ c.swz → exec (.segmentLand ⟨core, c.id, g.id⟩) s = .next
      (s.stopSegment core c.id g .swizzleMismatch g.ptr.toNat))

/-- R436: the segment of a copy out whose write on another die is acknowledged lands: the core's copy of the line takes its bytes and the
clock its stamp. -/
def Sys2Proof.Claims.SentSegmentsLand : Prop :=
  ∀ (s : State) (o : StoreAck) (p : Party) (c : EngineCmd) (g : Segment) (out : LineOut), s.party? o.core = some p →
    o.part = some (c.id, g.id) → p.cmd? c.id = some c → c.seg? g.id = some g → g.step = .sent → g.out = some out → c.kind = .copyOut →
    exec (.storeAcknowledgement o) s = .next
      (((s.outAcked o.core out o.wts).landed o.core c { g with out := none } out.bad).backedAcked o.core c.id g.id)

/-- R368, R373, R376: a segment of a WLOAD writes the bytes of its line into the slot, one of a TLOAD keeps them for its tile, one of a plain
drain writes its line. That poisoned bytes are loaded as they stand is the model's choice (log entry 120). -/
def Sys2Proof.Claims.MatrixSegmentsLand : Prop :=
  ∀ (s : State) (core : Nat) (p : Party) (c : EngineCmd) (g : Segment), SegGoes s core p c g → c.seg? g.id = some g →
    (∀ slot t bss, c.kind = .wload slot → State.readRuns (p.reader core) c.strand c.id true s g.runs = .got t bss →
      exec (.segmentLand ⟨core, c.id, g.id⟩) s = .next
        (((g.runs.zip bss).foldl (fun s ((_, off, _), bs) =>
          s.modParty core (·.modSeq fun q => q.writeSlot slot off (bs.map Prod.fst))) t).matrixSegment core c.id { g with step := .landed })) ∧
    (∀ from_ t bss, c.kind = .tload from_ → State.readRuns (p.reader core) c.strand c.id true s g.runs = .got t bss →
      exec (.segmentLand ⟨core, c.id, g.id⟩) s = .next
        (t.matrixSegment core c.id { g with data := bss.flatten.map Prod.fst, step := .landed })) ∧
    (∀ to_ t, c.kind = .drain false to_ →
      s.writeRuns (p.reader core) c.strand c.id ((g.runs.map Prod.fst).zip (s.drainBytes (p.reader core) g)) 0 = .done t →
      exec (.segmentLand ⟨core, c.id, g.id⟩) s = .next (t.matrixSegment core c.id { g with step := .landed }))

/-- R324, R378: a segment that fails ends as failed, its command has an error, and a notice names its first failing byte. -/
def Sys2Proof.Claims.SegmentsFail : Prop :=
  ∀ (s : State) (o : SegFail) (p : Party) (c : EngineCmd) (g : Segment), s.party? o.core = some p → p.cmd? o.cmd = some c →
    c.seg? o.seg = some g → g.step ≠ .landed → g.step ≠ .failed →
    exec (.segmentFail o) s = .next ((if c.kind = .copyIn ∨ c.kind = .copyOut then
        s.segmentDone o.core c.id { g with step := .failed }
      else s.matrixSegment o.core c.id { g with step := .failed }).modParty o.core (·.failNotice c g o.cause o.addr))

/-- R298, R321: the end of a strand's copy that waits for no acquire: the arrival and the counts that waited for the release, then the
copy leaves the list and its pitch has one copy less. -/
def Sys2Proof.Claims.CopiesComplete : Prop :=
  ∀ (s : State) (o : CoreItem) (p : Party) (c : EngineCmd), s.party? o.core = some p → p.cmd? o.id = some c → c.acqs = none →
    c.seq = false →
    let event (na ns : Nat) (err : Bool) : CountEvent :=
      ⟨o.core, c.anchor, c.tag, na, ns, err, c.pitch, false, false, BitVec.ofNat 4 c.strand⟩
    let p1 := if c.okN + c.errN = 0 then p else p.applyCount (event 0 (c.okN + c.errN) (c.errN != 0))
    let p2 := if c.arv then p1.applyCount (event 1 0 false) else p1
    exec (.copyCompletion o) s = .next ((s.setParty o.core ({ p2 with cmds := p2.cmds.filter (·.id != o.id) }.modStrand c.strand
      fun st => { st with pitch := st.pitch.finish c.pitch.toNat c.err })).pump o.core)

/-- R377, R284, R436, R438: the line of an ADD drain that may go, clean, readable and free at its home, is one indivisible step: its bytes
are read, the elements added, and the results written. A line whose home is on another die is a numbered message; in its turn there,
with the line free, the step is taken or its poison reported, and answered. -/
def Sys2Proof.Claims.AddDrainLinesAreOneStep : Prop :=
  (∀ (s : State) (core line to_ : Nat) (p : Party) (c : EngineCmd) (cfg : Tcfg) (g : Segment) (out : LineOut) (at_ : Nat × Nat),
    s.party? core = some p → p.cmd? c.id = some c → (c.segs.find? fun g => ptrLine g.ptr == line) = some g → c.kind = .drain true to_ →
    p.seq.tcfg = some cfg → g.out = some out →
    let ev : Instr := .addDrainLine ⟨core, c.id, line, some at_⟩
    (s.locked out.line = true ∨ s.notInTurn core out.line ev = true → exec ev s = .next (s.post ev)) ∧
    (s.locked out.line = false → s.notInTurn core out.line ev = false →
      (∀ va, s.addSource (.global (lineAddr out.line)) g = .error va → exec ev s = .next (s.fromHome core out.line
        (.segmentFail ⟨core, c.id, g.id, .poisonConsumed, va⟩))) ∧
      (∀ old, s.addSource (.global (lineAddr out.line)) g = .ok old →
        let size := drainBits cfg to_ 0 / 8
        let o := LineOut.ofRuns out.line out.pte ((addRuns cfg to_ ((g.runs.map Prod.fst).zip (g.perRun g.vals (· / size))) old).map
          fun x => ⟨x.1.toNat % 128, x.2, none⟩) none
        let x := (s.touchLine core out.pte out.line).applyStore core out.line o.mask o.data 0 0 (s.outClock core out.line)
        exec ev s = .next ((x.1.modParty core (·.setSegment c.id { g with out := some o })).fromHome core out.line
          (.storeAcknowledgement ⟨core, 0, out.line, x.2, some (c.id, g.id)⟩))))) ∧
  ∀ (s : State) (core line to_ : Nat) (p : Party) (c : EngineCmd) (cfg : Tcfg) (g : Segment), SegGoes s core p c g →
    (c.segs.find? fun g => ptrLine g.ptr == line) = some g → c.kind = .drain true to_ → p.seq.tcfg = some cfg → g.local_ = false →
    let size := drainBits cfg to_ 0 / 8
    (∀ r ∈ g.runs, ∀ b, s.missWaits (clusterOfCore core) p.root (r.1.toNat % 2 ^ 56) b p.priv = false) →
    (∀ r ∈ g.runs, ∀ a, s.checkRun (p.reader core) r.1 r.2.2 false ≠ .error (.protectionRead, a)) →
    ∀ (u t : State) (at_ : RunAt) (e : Dword) (old : List Byte), s.checkRun (p.reader core) g.ptr g.len true = .ok (u, at_, e) →
      (∀ r, at_ = .global r → homeDie r = dieOfCore core) → u.addSource at_ g = .ok old →
      u.writeRuns (p.reader core) c.strand c.id (addRuns cfg to_ ((g.runs.map Prod.fst).zip (g.perRun g.vals (· / size))) old) 0 = .done t →
      exec (.addDrainLine ⟨core, c.id, line, none⟩) s = .next (t.matrixSegment core c.id { g with step := .landed })

/-- R297, R298, R308, R321, R324, R368, R373, R376-R378: the events of copies and of stream operations that move data. -/
def Obligations.SegmentsLandAndCopiesComplete : Prop :=
  Claims.CopySegmentsLand ∧ Claims.SentSegmentsLand ∧ Claims.MatrixSegmentsLand ∧ Claims.SegmentsFail ∧ Claims.CopiesComplete ∧ Claims.AddDrainLinesAreOneStep

-- events of the memory system (R225-R273, R283-R286)

/-- R228, R232, R284: a miss waits while a line that it reads is held by a commit. A write whose entry of the TLB is unchanged at its home
sets D there, where a route leads to it. Any other walks: one that finds its leaf fills the cluster's TLB, one that does not leaves its fault for the accesses that
asked. Then every access of the cluster's cores that can go on does. -/
def Sys2Proof.Claims.WalksServeTheirCluster : Prop :=
  ∀ (s : State) (o : WalkReq),
    let va := o.va.toNat
    let s1 := { s with walks := s.walks.erase o }
    let entry := if o.write then s1.tlbFind o.cluster o.root va else none
    (s.missHeld o.cluster o.root va = true → exec (.pageWalk o) s = .next (s.post (.pageWalk o))) ∧
    (s.missHeld o.cluster o.root va = false →
      let reached (e : TlbEntry) : Prop := s.walkerUp o.cluster (homeDie e.home) = true
      let failed (t : State) (c : Cause) : Out := .next
        ({ t with walkFails := ⟨o.cluster, o.root, va / 65536, o.write, c⟩ :: t.walkFails }.pumpCluster o.cluster)
      (∀ e, entry = some e → ¬reached e → exec (.pageWalk o) s = failed s1 .homeUnreachable) ∧
      (∀ e t, entry = some e → reached e → s1.setDirty e = some t → exec (.pageWalk o) s = .next (t.pumpCluster o.cluster)) ∧
      (∀ s2, (entry = none ∧ s2 = s1 ∨
          ∃ e, entry = some e ∧ reached e ∧ s1.setDirty e = none ∧ s2 = { s1 with tlb := s1.tlb.filter fun x => x != e }) →
        (∀ t, s2.walk o.cluster o.root va = .ok t → exec (.pageWalk o) s = .next (t.pumpCluster o.cluster)) ∧
        (∀ c, s2.walk o.cluster o.root va = .error c → exec (.pageWalk o) s = failed s2 c)))

/-- R229, R269, R270, R284: a read of a line that a commit holds waits. The home of any other answers, the line pinned first where the page
asks for it: a time-stamped read of a local line with no watchpoint gets a lease, the line's rts rising to max(wts, pts) + LEASE, and no
data when its version is the one named; any other read gets the data alone. -/
def Sys2Proof.Claims.HomesAnswerReads : Prop :=
  ∀ (s : State) (o : ReadReq),
    let u := s.touchedBy o.core o.acc o.line
    let x := u.stamps o.line
    let g := max x.wts o.pts + (s.pkg (resPkg (lineAddr o.line))).lease
    let timed := o.mode = .ts ∧ resPkg (lineAddr o.line) = pkgOfCore o.core ∧ s.watchedLine o.line = false
    let answer (mode : LineMode) (rts : Nat) (data : Option (BitVec 1024)) : Instr :=
      .readResponse ⟨o.core, o.acc, o.line, mode, x.wts, rts, data, s.linePoison o.line, s.lineTags o.line⟩
    (s.locked o.line = true → exec (.readRequest o) s = .next (s.post (.readRequest o))) ∧
    (s.locked o.line = false → o.evict = none →
      (timed → exec (.readRequest o) s = .next ((u.setStamps o.line { x with rts := max x.rts g }).fromHome o.core o.line
        (answer .ts (g - 1) (if o.named = some x.wts then none else some (s.homeData o.line))))) ∧
      (¬timed → exec (.readRequest o) s = .next (u.fromHome o.core o.line
        (answer (if o.mode = .si then .si else .never) 0 (some (s.homeData o.line))))))

/-- R269, R270, R290: an answer with data, for an access that has a lane waiting for the line, gives every such lane its bytes and the core
its copy; the clock takes the stamp of a local line. What an SI line's answer brings, older reads of the package still under way leave no
copy of. -/
def Sys2Proof.Claims.ReadAnswersReachTheirLanes : Prop :=
  ∀ (s : State) (o : ReadResp) (a : Access) (x : LanePart) (d : BitVec 1024), o.data = some d →
    let s0 := if resPkg (lineAddr o.line) = pkgOfCore o.core then s.foldPts o.core o.wts else s
    s0.access? o.core o.acc = some a → (a.parts.find? fun q => q.step == .sent && q.place == .global o.line) = some x →
    let r := (s0.fillCopy o a x).deliverLine o.core a o.line d o.poison o.tags o.wts
    let t := if o.mode = .si then r.1.staleLine (pkgOfCore o.core) o.line else r.1
    exec (.readResponse o) s = .next (((t.setAccess o.core r.2).finishAccess o.core r.2).pump o.core)

/-- R228, R229, R232, R269, R270, R284: page walks, read requests and their responses. -/
def Obligations.ReadsAndWalksAreAnswered : Prop := Claims.WalksServeTheirCluster ∧ Claims.HomesAnswerReads ∧ Claims.ReadAnswersReachTheirLanes

/-- R241, R280: the oldest buffered store of a line is sent to its home, once, outside a pause of its package; a younger one of the line
waits. -/
def Sys2Proof.Claims.BufferedStoresDrain : Prop :=
  ∀ (s : State) (o : CoreItem) (e : SbEntry), kget (s.core o.core).sb o.id = some e → e.sent = false →
    let older := ((s.core o.core).sb.takeWhile (·.1 != o.id)).any fun x => x.2.line == e.line
    ((s.pkg (pkgOfCore o.core)).paused = true ∨ older = true → exec (.storeDrain o) s = .next (s.post (.storeDrain o))) ∧
    ((s.pkg (pkgOfCore o.core)).paused = false → older = false →
      ∃ k, exec (.storeDrain o) s = .next ((s.setCore o.core k).toHome o.core e.line (.homeStore ⟨o.core, o.id, e.line,
        e.mask, e.data, e.tagMask, e.tags, if e.remote then 0 else (s.core o.core).pts, none, none, 0⟩)) ∧
        kget k.sb o.id = some { e with sent := true } ∧ k.pts = (s.core o.core).pts ∧ k.l1 = (s.core o.core).l1)

/-- R271, R284, R286, R438: a store to a line that a commit holds, or that is not next in its core's order, waits. One that reaches the home
of any other line of memory writes the bytes of its mask and no other byte of memory, and stamps the line: wts and rts become
max(pts, rts + 1). No party changes but for the reads under way that it outruns. -/
def Sys2Proof.Claims.HomesApplyStores : Prop :=
  ∀ (s : State) (o : StoreMsg),
    (s.locked o.line = true ∨ s.notInTurn o.core o.line (.homeStore o) = true →
      exec (.homeStore o) s = .next (s.post (.homeStore o))) ∧
    (s.locked o.line = false → s.notInTurn o.core o.line (.homeStore o) = false → o.evict = none → isMmioOff (resOff (lineAddr o.line)) = false →
      let x := s.stamps o.line
      ∃ t b, exec (.homeStore o) s = .next t ∧
        (∀ a, t.readByte a = if lineAddr o.line ≤ a ∧ a < lineAddr o.line + 128 ∧ o.mask.getLsbD (a - lineAddr o.line) = true
          then o.data.extractLsb' (8 * (a - lineAddr o.line)) 8 else s.readByte a) ∧
        kget t.l2 o.line = some { x with wts := max o.pts (x.rts + 1), rts := max o.pts (x.rts + 1), pinned := b } ∧
        ∀ c, ((t.party? c).map fun p => { p with accesses := [] }) = (s.party? c).map fun p => { p with accesses := [] })

/-- R241, R271: an acknowledged store leaves the store buffer; the core's copy of the line takes its bytes and the clock its stamp. -/
def Sys2Proof.Claims.AcknowledgedStoresLeaveTheBuffer : Prop :=
  ∀ (s : State) (o : StoreAck) (e : SbEntry), o.part = none → kget (s.core o.core).sb o.sb = some e → e.recs = [] →
    let s1 := (s.updateCopy o.core o.line e.mask e.data e.tagMask e.tags o.wts).modCore o.core fun k =>
      { k with sb := serase o.sb k.sb }
    exec (.storeAcknowledgement o) s =
      .next ((if e.remote then s1 else s1.foldPts o.core o.wts).pump o.core) ∧
    kget ((if e.remote then s1 else s1.foldPts o.core o.wts).core o.core).sb o.sb = none

/-- R241, R271, R280, R284, R286: a store from the store buffer to its home and back. -/
def Obligations.StoresDrainAndReachTheirHome : Prop := Claims.BufferedStoresDrain ∧ Claims.HomesApplyStores ∧ Claims.AcknowledgedStoresLeaveTheBuffer

/-- R247, R248, R256, R272, R286, R438: an atomic waits while a commit holds its line and while it is not next in its core's order. At the home
of clean memory, with the pointer's tag that of the granule, it reads the old value, writes what its function gives, and answers with
the old value; on poison, or where the tags differ, it writes nothing. The answer ends the lane of its access. -/
def Sys2Proof.Claims.AtomicsActAtTheirHome : Prop :=
  (∀ (s : State) (o : AtomMsg), s.locked (lineOf o.pa) = true ∨ s.notInTurn o.core (lineOf o.pa) (.atomicRequest o) = true →
    exec (.atomicRequest o) s = .next (s.post (.atomicRequest o))) ∧
  (∀ (s : State) (o : AtomMsg), s.locked (lineOf o.pa) = false → s.notInTurn o.core (lineOf o.pa) (.atomicRequest o) = false →
    isMmioOff (resOff o.pa) = false →
    isMmioOff (resOff (lineAddr (lineOf o.pa))) = false → o.pa % (if o.wide then 8 else 4) = 0 →
    let size := if o.wide then 8 else 4
    let old := s.readMem o.pa size
    let u := s.touchedBy o.core o.acc (lineOf o.pa)
    let strays := (s.access? o.core o.acc).any fun a => a.parts.any fun q => q.lane == o.lane && q.strays (s.lineTags (lineOf o.pa))
    (strays = true → exec (.atomicRequest o) s = .next (u.fromHome o.core (lineOf o.pa)
      (.atomicResponse ⟨o.core, o.acc, o.lane, lineOf o.pa, some 0, (u.stamps (lineOf o.pa)).wts, true⟩))) ∧
    (strays = false → sget false s.poison (o.pa / 32) = true → exec (.atomicRequest o) s = .next (u.fromHome o.core (lineOf o.pa)
      (.atomicResponse ⟨o.core, o.acc, o.lane, lineOf o.pa, none, (u.stamps (lineOf o.pa)).wts, false⟩))) ∧
    (strays = false → sget false s.poison (o.pa / 32) = false → ∃ t : State, exec (.atomicRequest o) s = .next (t.fromHome o.core (lineOf o.pa)
        (.atomicResponse ⟨o.core, o.acc, o.lane, lineOf o.pa, some (BitVec.ofNat 64 old),
          max o.pts ((u.stamps (lineOf o.pa)).rts + 1), false⟩)) ∧
      t.readMem o.pa size = ((atomStep o.fn o.wide old (o.x.toNat % 2 ^ (8 * size)) (o.y.toNat % 2 ^ (8 * size))).getD old)
        % 2 ^ (8 * size) ∧
      ∀ a, a < o.pa ∨ o.pa + size ≤ a → t.readByte a = s.readByte a)) ∧
  (∀ (s : State) (o : AtomResp) (a : Access),
    let s0 := if resPkg (lineAddr o.line) = pkgOfCore o.core then s.foldPts o.core o.wts else s
    s0.access? o.core o.acc = some a →
    let b := a.modPart o.lane fun q =>
      { q with step := .done, old := (o.old.getD 0).toNat, poisoned := o.old.isNone, mistag := o.mistag }
    exec (.atomicResponse o) s = .next (((s0.setAccess o.core b).finishAccess o.core b).pump o.core))

/-- R230, R235: what a byte range at a named core's scratchpad meets: without a route, or a party of the grid there, HOME_UNREACHABLE;
beyond its scratchpad SCRATCH_RANGE. -/
def Sys2Proof.Claims.NamedCoresAreChecked : Prop :=
  ∀ (s : State) (core : Nat) (grid : BitVec 32) (c off n : Nat),
    (s.routeUp (dieOfCore core) (dieOfCore c) = false ∨ (∀ t, s.party? c = some t → t.grid ≠ grid) →
      s.backedFault core grid c off n = some .homeUnreachable) ∧
    (∀ t, s.routeUp (dieOfCore core) (dieOfCore c) = true → s.party? c = some t → t.grid = grid →
      s.backedFault core grid c off n = if t.scratchSize < off + n then some .scratchRange else none)

/-- R230, R236, R240, R248: an access to a page that another core's scratchpad backs acts there, if none of its lanes that are to act on such
pages fails its check: of a load or store the lanes that arrive together in ascending order, of an atomic one lane. A load reads, a
store writes (and with its first arrival its lanes on global memory go on), an atomic takes its step. One that writes on another die
is answered. A lane that fails stops the access in every lane; a store that has begun takes MACHINE_CHECK. -/
def Sys2Proof.Claims.CoreBackedAccessesActOnTheScratchpad : Prop :=
  ∀ (s : State) (o : CoreBacked) (p : Party) (a : Access), s.party? o.core = some p → s.access? o.core o.acc = some a → a.step = .active →
    let mine := a.arriving o.target o.lane o.off
    let isMine (q : LanePart) : Bool := mine.any fun r => r.lane == q.lane
    (mine.any fun q => q.lane == o.lane) = true →
    let answer (t : State) : Out := .next (if o.data.isSome && dieOfCore o.target != dieOfCore o.core then
      t.send (dieOfCore o.target) (dieOfCore o.core) (.storeAcknowledgement ⟨o.core, 0, 0, 0, some (o.acc, o.lane)⟩) else t)
    let ended : LaneStep := if dieOfCore o.target = dieOfCore o.core then .done else .answered
    let fault (q : LanePart) : Option Cause := match q.place with
      | .coreBacked c off => if q.step = .sent then s.backedFault o.core p.grid c off a.size else none
      | _ => none
    let fails (c : Cause) : Bool := a.parts.any fun q => fault q == some c
    let failed (c : Cause) : Out := answer (s.failAccess o.core a (a.faultOf (if a.fixed then .machineCheck else c) fun q => fault q == some c))
    (fails .homeUnreachable = true → exec (.coreBackedAccess o) s = failed .homeUnreachable) ∧
    (fails .homeUnreachable = false → fails .scratchRange = true → exec (.coreBackedAccess o) s = failed .scratchRange) ∧
    (fails .homeUnreachable = false → fails .scratchRange = false →
      (∀ t, s.party? o.target = some t → a.kind = .load ∨ a.kind = .tagLoad →
        let done (q : LanePart) : LanePart := if a.kind = .load then { q with
            step := .done
            old := t.readScratch q.backed a.size
            poisoned := t.scratchPoison q.backed a.size }
          else { q with step := .done, old := 0 }
        let b := { a with
          fixed := false
          parts := a.parts.map fun q => ((mine.map done).find? fun r => r.lane == q.lane).getD q }
        exec (.coreBackedAccess o) s = answer ((((s.setParty o.target t).setAccess o.core b).finishAccess o.core b).pump o.core)) ∧
      (∀ t q, s.party? o.target = some t → a.kind = .atomic → mine = [q] →
        let old := t.readScratch q.backed a.size
        let psn := t.scratchPoison q.backed a.size
        let t1 := if psn then t else (atomStep a.fn (a.size == 8) old q.x q.y).elim t (t.writeScratch q.backed a.size)
        let b := { a with
          fixed := false
          parts := a.parts.map fun r => if r.lane = q.lane then { q with step := ended, old := old, poisoned := psn } else r }
        exec (.coreBackedAccess o) s = answer ((((s.setParty o.target t1).setAccess o.core b).finishAccess o.core b).pump o.core)) ∧
      (a.kind = .store →
        let u := if a.fixed then s else s.storeGlobal o.core p { a with parts := a.parts.filter fun q => !q.isBacked }
        ∀ t, u.party? o.target = some t →
        let t1 := mine.foldl (fun t q => t.writeScratch q.backed a.size q.x) t
        ∃ b, exec (.coreBackedAccess o) s = answer ((((u.setParty o.target (t1.cleanGranules a.size
          (mine.map LanePart.backed))).setAccess o.core b).finishAccess o.core b).pump o.core) ∧ b.id = a.id ∧
          ∀ q ∈ b.parts, isMine q = true → q.step = ended))

/-- R436: the answer ends the lanes that it names of an access on another die's scratchpad. -/
def Sys2Proof.Claims.AnswersEndTheirLanes : Prop :=
  ∀ (s : State) (o : StoreAck) (acc lane : Nat) (a : Access) (q : LanePart), o.part = some (acc, lane) →
    (s.party? o.core).bind (·.cmd? acc) = none → s.access? o.core acc = some a → (a.parts.find? fun r => r.lane == lane) = some q →
    ∀ c off, q.place = .coreBacked c off →
    let here (r : LanePart) : Bool := match r.place with
      | .coreBacked d x => d == c && (if a.kind = .atomic then r.lane == lane else x / 128 == off / 128)
      | _ => false
    let b := { a with parts := a.parts.map fun r => if r.step = .answered ∧ here r = true then { r with step := .done } else r }
    exec (.storeAcknowledgement o) s = .next (((s.setAccess o.core b).finishAccess o.core b).pump o.core)

/-- R230, R235, R236, R240, R247, R248, R272, R286, R436: atomics at their home, and accesses to a page that a scratchpad backs. -/
def Obligations.HomesActOnAtomicsAndScratchpads : Prop :=
  Claims.AtomicsActAtTheirHome ∧ Claims.NamedCoresAreChecked ∧ Claims.CoreBackedAccessesActOnTheScratchpad ∧ Claims.AnswersEndTheirLanes

/-- R254, R283: a commit locks the lines that its surviving lanes write, in ascending order, one a step, and keeps those that it has while
it waits for one that another commit holds; the first it locks once the package is not paused (R280) and the strand's buffered stores to
these lines have reached their homes (R241). A line whose home is on another die it locks by a message there (R431). With its locks it
commits at one time: the transaction ends and no line stays locked. -/
def Sys2Proof.Claims.CommitsLockThenApply : Prop :=
  ∀ (s : State) (core strand : Nat) (t : Txn) (md : BitVec 3),
    let w : SlotRef := ⟨core, strand, .a⟩
    let me := core * 16 + strand
    let lines := t.writeLines
    let step (l : Option Nat) : Instr := .transactionCommitStep ⟨core, strand, l⟩
    (s.strandOf w).txn = some t → t.commit = some md →
    (∀ l ∈ lines ++ t.readLines, s.routeUp (dieOfCore core) (homeDie (lineAddr l)) = true) →
    (∀ l, (lines.find? fun l => (s.stamps l).lock != some me) = some l →
      let starts := !s.l2.any fun x => x.2.lock == some me
      let early := (s.pkg (pkgOfCore core)).paused || lines.any fun k => (s.core core).sb.any fun x => x.2.line == k && x.2.strand == strand
      let near := homeDie (lineAddr l) = dieOfCore core
      ((starts && early) = true → exec (step none) s = .next (s.post (step none))) ∧
      ((starts && early) = false → ¬near → exec (step none) s = .next (s.toHome core l (step (some l)))) ∧
      ((starts && early) = false → near → s.locked l = true → exec (step none) s = .next (s.post (step none))) ∧
      ((starts && early) = false → near → s.locked l = false → exec (step none) s = .next
        ((s.setStamps l { s.stamps l with lock := some me }).post (step none)))) ∧
    (∀ l, (s.locked l = true → exec (step (some l)) s = .next (s.post (step (some l)))) ∧
      (s.locked l = false → exec (step (some l)) s = .next
        ((s.setStamps l { s.stamps l with lock := some me }).fromHome core l (step none)))) ∧
    ((∀ l ∈ lines, (s.stamps l).lock = some me) →
      exec (step none) s = .next (s.commit w t md) ∧
      (strand < 16 → ((s.commit w t md).strandOf w).txn = none) ∧
      ∀ l, ((s.commit w t md).stamps l).lock ≠ some me)

/-- R254: a commit step of a transaction that a trap has failed meanwhile unlocks what it holds, and locks nothing more. -/
def Sys2Proof.Claims.CommitsThatAreGoneUnlock : Prop :=
  ∀ (s : State) (core strand : Nat), (s.strandOf ⟨core, strand, .a⟩).txn = none →
    exec (.transactionCommitStep ⟨core, strand, none⟩) s = .next (s.unlockAll (core * 16 + strand)) ∧
    (∀ l, exec (.transactionCommitStep ⟨core, strand, some l⟩) s = .next
      (s.fromHome core l (.transactionCommitStep ⟨core, strand, none⟩))) ∧
    ∀ l, ((s.unlockAll (core * 16 + strand)).stamps l).lock ≠ some (core * 16 + strand)

/-- R241, R254, R280, R283: the steps of a commit. -/
def Obligations.CommitsLockThenApply : Prop := Claims.CommitsLockThenApply ∧ Claims.CommitsThatAreGoneUnlock

/-- R285: an uncorrectable error of a line that lies in memory poisons its sector and is logged at its slice: the first address, and a
count of the later ones. -/
def Obligations.PoisonIsMarkedAndLogged : Prop :=
  ∀ (s : State) (o : EccError) (r : Nat), s.resolve o.pa = some r → ∃ t, exec (.poisonDetect o) s = .next t ∧
    sget false t.poison (r / 32) = true ∧ (∀ k, k ≠ r / 32 → sget false t.poison k = sget false s.poison k) ∧ t.mem = s.mem ∧
    (kget s.plogs (homeSlice r) = none → kget t.plogs (homeSlice r) = some ⟨o.pa, 0⟩) ∧
    (∀ x, kget s.plogs (homeSlice r) = some x → kget t.plogs (homeSlice r) = some ⟨x.first, x.more + 1⟩)

/-- R274: a core's clock that has not advanced for DRIFT cycles advances by one tick, and every advance of the clock, by a tick, by a stamp
or by a rebase that finds it below the least clock (R280), restarts the count. -/
def Obligations.IdleClocksDrift : Prop :=
  ∀ (s : State) (c : Nat),
    let drift := (s.pkg (pkgOfCore c)).drift
    ((s.core c).lastAdv + drift ≤ s.now → ∃ t, exec (.driftTick ⟨c⟩) s = .next t ∧
      (t.core c).pts = (s.core c).pts + 1 ∧ (t.core c).lastAdv = s.now) ∧
    (s.now < (s.core c).lastAdv + drift → exec (.driftTick ⟨c⟩) s = .next s) ∧
    (∀ n, ((s.tick c n).core c).lastAdv = s.now) ∧
    (∀ (k : Core) (n : Nat), k.pts < 2 ^ 22 + 1 → (k.rebased n).lastAdv = n) ∧
    (∀ x, (s.core c).pts < x → ((s.foldPts c x).core c).pts = x ∧ ((s.foldPts c x).core c).lastAdv = s.now) ∧
    (∀ x, x ≤ (s.core c).pts → s.foldPts c x = s)

/-- R280, R281: a package that is due, with no request in flight and no sweep left, is rebased: every clock of its cores lies 2^22 lower
and the generation has changed; while requests are in flight it pauses. The sweep gives a line its stamps of the new generation. -/
def Obligations.PackagesAreRebased : Prop :=
  ∀ (s : State) (p : Nat),
    (s.rebaseDue p = true → s.sweeping p = false → s.requestsInFlight p = false → exec (.rebase ⟨p⟩) s =
      .next ((s.rebased p).cores.foldl (fun t (c, _) => if pkgOfCore c = p then t.pump c else t) (s.rebased p))) ∧
    (((s.rebased p).pkg p).gen = !(s.pkg p).gen ∧ ((s.rebased p).pkg p).era = (s.pkg p).era + 1 ∧
      ((s.rebased p).pkg p).paused = false) ∧
    (∀ c k, kget s.cores c = some k → pkgOfCore c = p → ((s.rebased p).core c).pts = max k.pts (2 ^ 22 + 1) - 2 ^ 22) ∧
    (s.rebaseDue p = true → (s.sweeping p = true ∨ s.requestsInFlight p = true) → exec (.rebase ⟨p⟩) s =
      .next ((s.modPkg p fun k => { k with paused := true }).post (.rebase ⟨p⟩))) ∧
    (s.rebaseDue p = false → exec (.rebase ⟨p⟩) s = .next (s.modPkg p fun k => { k with paused := false })) ∧
    (∀ l x, kget s.l2 l = some x → ∃ t, exec (.rebaseSweep ⟨p, l⟩) s = .next t ∧ kget t.l2 l = some (s.stamps l))

-- parties and their strands (R114, R148, R264, R409, R507, R509)

/-- R114, R148, R409: a party all of whose work has settled leaves its core at its end; one that still has a live strand stays. A party
that PREEMPT saves and whose state can be captured is suspended, with its open transactions failed, and suspended parties of any grid may
take its core (R412); where its save area cannot be written it halts with the cause (R515). The saved context is the party itself, and
what a save waits for is the model's reading (log entries 25, 94). -/
def Sys2Proof.Claims.PartiesEndAndAreSaved : Prop :=
  ∀ (s : State) (o : CoreRef) (p : Party), s.party? o.core = some p →
    (p.anyLive = true → exec (.partyEnd o) s = .next s) ∧
    (p.status = .running → p.anyLive = false → p.seq.state = .idle → p.seq.ops = [] → p.cmds = [] → p.accesses = [] →
      p.producers = [] → (s.core o.core).sb = [] → s.packetsOut p = false →
      exec (.partyEnd o) s = .next (s.removeParty o.core)) ∧
    (p.status ≠ .halting → p.anyLive = false → s.mayEnd o.core p = false → exec (.partyEnd o) s = .next (s.post (.partyEnd o))) ∧
    (p.status = .saving → s.maySave o.core p = false → exec (.partySave o) s = .next (s.post (.partySave o))) ∧
    (∀ g, p.status = .saving → s.maySave o.core p = true → s.grid? p.grid = some g → s.slotFault (g.saveSlot p.index) = none →
      let q := { p with
        status := .suspended
        strands := p.strands.map fun (st : Strand) => { st with txn := st.txn.map fun (t : Txn) => t.failAll 1 } }
      let t := { s with
        parties := serase o.core s.parties
        saved := s.saved ++ [Parked.mk o.core q] }
      exec (.partySave o) s = .next (t.returnRange p.grid (dieOfCore o.core)).rebalanceAll) ∧
    (∀ g c a, p.status = .saving → s.maySave o.core p = true → s.grid? p.grid = some g → s.slotFault (g.saveSlot p.index) = some (c, a) →
      exec (.partySave o) s = .next (s.saveHalt o.core p c a))

/-- R507, R284: a halting party, under HALT.ALL with its unsent segments on the fix-up list, waits until its strands, its stream and its
commands are quiet and no commit holds a line; loads and drains of the stream that cannot go on are reported failed with the halt's cause
(log entry 65); then its inventory is written, its open items are reported failed with the cause, and it leaves. That it waits until NO
commit holds ANY line is the model's, more than R284 asks (log entry 54). An inventory whose header could not be written makes the grid's cause DUMP_SECONDARY (R515). -/
def Sys2Proof.Claims.PartiesHalt : Prop :=
  ∀ (s : State) (o : CoreRef) (p : Party) (h : HaltInfo),
    s.party? o.core = some p → p.status = .halting → p.halt = some h →
    let q := (if h.all then p.parkSegments else p).dropEmits
    let t := (s.setParty o.core q).noteHalt p.grid h
    (t.workDone o.core q h.all = false ∨ (t.mayDump o.core q h.all = true ∧ t.commitsHold = true) →
      exec (.partyHalt o) s = .next (t.post (.partyHalt o))) ∧
    (h.all = false → t.workDone o.core q false = true → t.mayDump o.core q false = false →
      exec (.partyHalt o) s = .next ((t.setParty o.core (q.failStuck h.info.cause)).post (.partyHalt o))) ∧
    (∀ u b, t.mayDump o.core q h.all = true → t.commitsHold = false → t.writeInventory o.core q h = (u, b) →
      let v := u.failParty q o.core h.info.cause
      exec (.partyHalt o) s = .next ((if b then v else v.modGrid p.grid fun g =>
        { g with cause := .dumpSecondary, causeAt := 0 }).removeParty o.core))

/-- R478, R509, R331: a debug halt that is asked for stops a running party and its sequencer; a party that is being saved keeps the request;
once its strands and its engines are quiet and no commit holds a line (log entry 54), its open transactions fail, its inventory, whose
header names no cause for a requested halt (log entry 63), is written, and it stays where it is. -/
def Sys2Proof.Claims.PartiesHaltForDebug : Prop :=
  ∀ (s : State) (r : HaltReq) (p : Party), s.party? r.core = some p →
    (∀ all, p.status = .running → p.dbgWant = some all → exec (.debugHalt r) s = .next (((s.setParty r.core { p with
      status := .debugHalt
      dbgWant := none
      halt := some ⟨⟨.none, 0, ⟨0, 0⟩, none, 0, 0, ⟨0, 0⟩, 0, false⟩, 0, .a, all, false, true, s.now⟩ }).stopSequencer r.core).post
        (.debugHalt r))) ∧
    (p.status = .saving ∨ (p.status = .running ∧ p.dbgWant = none) → exec (.debugHalt r) s = .next s) ∧
    (∀ h q, p.status = .debugHalt → p.dbg = false → p.halt = some h →
      let t := (s.setParty r.core (if h.all then p.parkSegments else p)).stopSequencer r.core
      let quiet := t.strandsQuiet r.core q && t.streamQuiet r.core q && q.haltedEngines h.all && !t.commitsHold
      t.party? r.core = some q →
      (quiet = false → exec (.debugHalt r) s = .next (t.post (.debugHalt r))) ∧
      (quiet = true →
        let u := { q with strands := q.strands.map fun (st : Strand) => { st with txn := st.txn.map fun (t : Txn) => t.failAll 1 } }
        exec (.debugHalt r) s = .next (((((t.setParty r.core u).writeInventory r.core u h).1.modParty r.core
          fun p => { p with dbg := true }).recordDebug u h).tendHalts)))

/-- R237, R264: what waits for a strand is delivered in order: while a fault of an access before it stands, the strand is in its handler or
its party does not run, a held watchpoint hit waits; then slot A, or slot B where A is not live, vacant or suspended, takes WATCH_HIT with
the address in TADDR. -/
def Sys2Proof.Claims.HeldTrapsAreDelivered : Prop :=
  ∀ (s t : State) (o : StrandRef) (p : Party) (h : HeldHit),
    (s.deliverAccess o.core o.strand = (t, false) → exec (.trapDelivery o) s = .next (t.post (.trapDelivery o))) ∧
    (s.deliverAccess o.core o.strand = (t, true) → t.party? o.core = some p → (p.strand o.strand).held = some h →
      ((p.strand o.strand).inh = true ∨ p.status ≠ .running →
        exec (.trapDelivery o) s = .next (t.post (.trapDelivery o))) ∧
      ((p.strand o.strand).inh = false → p.status = .running →
        let a := (p.strand o.strand).slot .a
        let x : SlotId := if a.st = .notLive ∨ a.em = 0 ∨ a.st = .suspended then .b else .a
        let q := (p.leaveWait o.strand x).modStrand o.strand fun st => { st with held := none }
        exec (.trapDelivery o) s = .next ((t.setParty o.core q).takeTrap ⟨o.core, o.strand, x⟩
          (receivedInfo .watchHit ((q.strand o.strand).slot x).pc ⟨0, 0⟩ h.addr false))))

/-- R114, R148, R264, R409, R507, R509: the events of a party's life. -/
def Obligations.PartiesEndAreSavedAndHalt : Prop :=
  Claims.PartiesEndAndAreSaved ∧ Claims.PartiesHalt ∧ Claims.PartiesHaltForDebug ∧ Claims.HeldTrapsAreDelivered

-- page faults (R238, R482)

/-- R238, R482, R284: the fault service of what still waits looks at the tables once no commit holds any line, which is more than R284 asks
(log entry 54). A page that does not fault as absent is tried again, in log order (log entry 67); else the fault takes a record, once, with a limit of 4,000,000 cycles, after which it is fatal. -/
def Obligations.FaultsAreServedOrTimeOut : Prop :=
  ∀ (s : State),
    (∀ (o : FaultReq) (p : Party), s.party? o.core = some p → p.stillWaits o.who = true →
      let walk := s.walkFrom s.campUp p.root o.va.toNat 3
      let same (f : FaultRec) : Bool := f.grid == p.grid && f.index == p.index && f.who == o.who && f.va == o.va
      (s.commitsHold = true → exec (.faultService o) s = .next (s.post (.faultService o))) ∧
      (s.commitsHold = false → (walk ≠ .error .pageNotPresent →
        exec (.faultService o) s = .next (s.replayPage o.core (o.va.toNat / 65536))) ∧
      (walk = .error .pageNotPresent → s.bc.faults.any same = true → exec (.faultService o) s = .next (s.modBc fun b =>
        { b with faults := b.faults.map fun f => if same f then { f with core := o.core } else f })) ∧
      (walk = .error .pageNotPresent → s.bc.faults.any same = false →
        exec (.faultService o) s = .next
          ((s.bump.modBc fun b => { b with
            faults := b.faults ++ [⟨s.nextId, p.grid, p.index, o.core, o.va, o.kind, o.who, s.now, false, false⟩] }).post
            (.faultTimeout ⟨s.nextId⟩)).tendRing))) ∧
    (∀ (o : FaultRef) (f : FaultRec), s.bc.faults.find? (·.id == o.id) = some f → f.fatal = false →
      (s.now < f.time + 4000000 → exec (.faultTimeout o) s = .next (s.post (.faultTimeout o))) ∧
      (f.time + 4000000 ≤ s.now → exec (.faultTimeout o) s = .next (s.failFault f)))

-- thermal holds, sensors, power (R395, R396, R498, R499)

/-- R395, R396, R498, R499: a core above T_HI or with more droops than DROOPMAX in the window enters thermal hold; it leaves below T_LO
without excess, or after HOLDMAX cycles. A droop is counted for its die. The sensors show what they sample. A package whose power exceeds
PWRCAP is gated until it is below. -/
def Obligations.HoldsSensorsAndThePowerCap : Prop :=
  ∀ (s : State),
    (∀ o : ThermalRef, let k := s.pkg (pkgOfCore o.core)
      (k.tHi * 4 < o.temp ∨ s.droopExcess o.core = true → ∃ t, exec (.thermalHoldEnter o) s = .next t ∧ t.onHold o.core = true) ∧
      (o.temp ≤ k.tHi * 4 → s.droopExcess o.core = false → exec (.thermalHoldEnter o) s = .next s) ∧
      (∀ h, s.holds.find? (·.core == o.core) = some h →
        (o.temp < k.tLo * 4 ∧ s.droopExcess o.core = false ∨ h.since + k.holdMax ≤ s.now → ∃ t,
          exec (.thermalHoldEnd o) s = .next t ∧ t.onHold o.core = false ∧ t.parties = s.parties ∧ t.mem = s.mem) ∧
        (k.tLo * 4 ≤ o.temp ∨ s.droopExcess o.core = true → s.now < h.since + k.holdMax →
          exec (.thermalHoldEnd o) s = .next (s.post (.thermalHoldEnd o))))) ∧
    (∀ o : CoreRef, let k := s.pkg (pkgOfCore o.core)
      let at_ := 0x200 + 4 * (o.core % 256 / 32)
      0 < k.droopWin → ∃ t, exec (.droopEvent o) s = .next t ∧ t.droopsOf o.core = s.droopsOf o.core + 1 ∧
        scratchRead (t.pkg (pkgOfCore o.core)).sensors at_ 4 = (scratchRead k.sensors at_ 4 + 1) % 2 ^ 32 ∧
        (k.droopMax < s.droopsOf o.core + 1 → t.onHold o.core = true)) ∧
    (∀ o : SensorSample, ∀ at_ n, sensorPlace o.kind o.index = some (at_, n) → ∃ t, exec (.sensorRefresh o) s = .next t ∧
      scratchRead (t.pkg o.pkg).sensors at_ n = o.value % 2 ^ (8 * n)) ∧
    (∀ o : PowerSample, exec (.powerCapCheck o) s = .next (s.modPkg o.pkg fun k => { k with
        gated := decide (k.pwrCap < o.watts) || (k.gated && decide (o.watts = k.pwrCap)) }))

-- bins and hashed queues (R394, R406)

/-- R406, R410: a bin whose timer runs out while it holds pending records is ready, whatever its count; before its time, and while the whole
grid is suspended, the timer waits. -/
def Sys2Proof.Claims.BinTimersExpire : Prop :=
  ∀ (s : State) (o : BinRef) (g : Grid) (b : BinEntry) (n : Nat), s.grid? o.grid = some g → g.bin? o.bin = some b → g.tag = o.grid →
    (g.ring o.die o.bin).timer = some n →
    (s.now < n ∨ g.whole = true → exec (.binTimerExpiry o) s = .next (s.post (.binTimerExpiry o))) ∧
    (n ≤ s.now → g.whole = false → 0 < (g.ring o.die o.bin).pending → ∃ t g1, exec (.binTimerExpiry o) s = .next t ∧ t.grid? o.grid = some g1 ∧
      (g1.ring o.die o.bin).ready b = true ∧ (g1.ring o.die o.bin).timer = none ∧
      (g1.ring o.die o.bin).pending = (g.ring o.die o.bin).pending ∧ t.parties = s.parties ∧ t.mem = s.mem)

/-- R394: a package whose queue has been empty for STEALIDLE takes the upper half, rounded down (the model's reading, log entry 47), of
the indices of the queue that it picks; the victim keeps the rest. -/
def Sys2Proof.Claims.IdlePackagesSteal : Prop :=
  ∀ (s : State) (o : GridPkg) (g : Grid) (since v : Nat) (q : List Nat), s.grid? o.grid = some g → kget g.idle o.pkg = some since →
    (kget g.queues o.pkg).getD [] = [] → g.whole = false →
    (s.now < since + g.hdr.stealIdle * 256 → exec (.hashedSteal o) s = .next (s.post (.hashedSteal o))) ∧
    (since + g.hdr.stealIdle * 256 ≤ s.now → g.hashVictim o.pkg = some (v, q) → v ≠ o.pkg → ∃ g1,
      exec (.hashedSteal o) s = .next (s.setGrid g1) ∧ g1.tag = g.tag ∧
      kget g1.queues o.pkg = some (q.drop (q.length - q.length / 2)) ∧ kget g1.queues v = some (q.take (q.length - q.length / 2)))

/-- R387, R394, R397-R400, R406, R407, R410: FETCH, FETCHB and WDONE, the timers of bins, the stealing of hashed work. -/
def Obligations.WorkIsFetchedAndRetired : Prop := Claims.FetchTakesWork ∧ Claims.WdoneRetiresTheItem ∧ Claims.BinTimersExpire ∧ Claims.IdlePackagesSteal

-- collective packets (R421, R424, R426, R428, R447, R448)

/-- R424: a packet whose turn has come takes the next sequence number of its flow for its die and leaves; one whose flow has all its
packets unresolved waits; one whose party or flow is gone goes. -/
def Sys2Proof.Claims.PacketsAreAccepted : Prop :=
  ∀ (s : State) (o : PacketRef) (k : Packet), s.packet? o.id = some k → k.step = .waiting →
    (∀ p f, s.sender k = some p → p.flow? k.flow = some f → s.mayAccept k f = true →
      let n := (kget f.seqs k.die).getD 0
      let k1 := { k with
        seq := some n
        time := s.rackTime (pkgOfDie k.src)
        step := .sent }
      let s1 := (s.modParty k.core (·.modFlow k.flow fun g => { g with seqs := kput g.seqs k.die ((n + 1) % 65536) })).setPacket k1
      let s2 := match k.faulted with
        | some c => if k.fn = 0 then s1.modParty k.core (·.collectiveNotice k1 c) else s1
        | none => s1
      exec (.packetAccept o) s =
        .next (((s2.post (.outcomeQueryTimer ⟨k.id, false⟩)).launchPacket k1).groupProgress k.core k.owner)) ∧
    (∀ p f, s.sender k = some p → p.flow? k.flow = some f → s.mayAccept k f = false →
      exec (.packetAccept o) s = .next (s.post (.packetAccept o))) ∧
    ((s.sender k = none ∨ ∃ p, s.sender k = some p ∧ p.flow? k.flow = none) →
      exec (.packetAccept o) s = .next { s with packets := s.packets.filter fun j => j.id != o.id })

/-- R426: a packet that arrives in turn is ready to be applied, and one on a flow without order too, behind those of its flow that
arrived before it; one out of turn is held; one that has its outcome already is answered with it. -/
def Sys2Proof.Claims.PacketsArrive : Prop :=
  ∀ (s : State) (o : PacketRef) (k : Packet), s.packet? o.id = some k →
    (k.step = .sent → k.ordered = true → k.seq = some (s.flowRec k).exp → exec (.collectivePacket o) s =
      .next ((s.setPacket { k with step := .ready }).post (.packetApply o))) ∧
    (k.step = .sent → k.ordered = false → exec (.collectivePacket o) s =
      .next (((s.setPacket { k with step := .ready }).setFlowRec { s.flowRec k with
        arrived := (s.flowRec k).arrived ++ [k.id] }).post (.packetApply o))) ∧
    (k.step = .sent → k.ordered = true → k.seq ≠ some (s.flowRec k).exp → exec (.collectivePacket o) s =
      .next (s.setPacket { k with step := .held })) ∧
    (k.step = .judged → exec (.collectivePacket o) s = .next (s.send k.die k.src (.packetOutcome o)))

/-- R426, R428, R447, R448, R454: a packet at its turn, with its member's party there where it needs one, an admitted tag, homes that can
be reached and nothing to wait for, is performed, then counted; its outcome is LATE when the delivery bound has passed. On a flow without
order it is its turn when it is the first to have arrived. A signalling packet with another tag is refused: ER is set and the packet
fails. One that finds no party or no home fails; after four bounds only its event is applied, with ER, and it fails. The receiver's time
is its package's own count (log entry 124). -/
def Sys2Proof.Claims.PacketsAreApplied : Prop :=
  ∀ (s : State) (o : PacketRef) (k : Packet), s.packet? o.id = some k → k.step = .ready →
    let now := s.rackTime (pkgOfDie k.die)
    let there := (s.party? k.mem.core).filter fun t => t.grid == k.grid
    let needs := k.mem.inScratch = true ∨ k.count.isSome = true ∨ k.kind = .mbx ∨ k.kind = .abort
    let refused (t : Party) := k.count.isSome = true ∧ k.tag.toNat ≠ (t.anchorAt k.mem.anchor).ph ∧
      k.tag.toNat ≠ ((t.anchorAt k.mem.anchor).ph + 1) % 16
    let failed (u : State) : Out := .next (u.judge k .failed .flowFailed)
    (k.ordered = false → (s.flowRec k).arrived.head? ≠ some k.id → exec (.packetApply o) s = .next (s.post (.packetApply o))) ∧
    ((k.ordered = true ∨ (s.flowRec k).arrived.head? = some k.id) →
      (s.fenced.contains k.die = true → exec (.packetApply o) s = failed s) ∧
      (s.fenced.contains k.die = false → needs → there = none → exec (.packetApply o) s =
        if s.saved.any fun j => j.core == k.mem.core && j.party.grid == k.grid then .next (s.post (.packetApply o)) else failed s) ∧
      (s.fenced.contains k.die = false → (needs → there.isSome = true) → k.time + 4 * k.bound < now →
        (k.kind ≠ .abort → exec (.packetApply o) s = failed (s.countPacket k 0 true)) ∧
        (∀ t, k.kind = .abort → there = some t → exec (.packetApply o) s = failed (s.lateAbort k t))) ∧
      (s.fenced.contains k.die = false → (needs → there.isSome = true) → now ≤ k.time + 4 * k.bound →
        (∀ t, there = some t → refused t → exec (.packetApply o) s = .next ((s.setParty k.mem.core
          ((t.putAnchor k.mem.anchor { t.anchorAt k.mem.anchor with er := true }).collectiveNotice k .anchorPhase)).judge k .failed
            (if (t.anchorAt k.mem.anchor).er then .collectiveAborted else .flowFailed))) ∧
        ((∀ t, there = some t → ¬refused t) →
          (s.fits k there = false → exec (.packetApply o) s = failed s) ∧
          (s.fits k there = true → s.mustWait k there = true → exec (.packetApply o) s = .next (s.post (.packetApply o))) ∧
          (s.fits k there = true → s.mustWait k there = false → ∀ u k1 n r, s.perform k = (u, k1, n, r) →
            (now ≤ k.time + k.bound → exec (.packetApply o) s = .next ((u.countPacket k n false).judge k1 r .none)) ∧
            (k.time + k.bound < now → exec (.packetApply o) s =
              .next ((u.countPacket k n false).judge k1 (if r = .delivered then .late else r) .flowLate))))))

/-- R428, R429, R455: an outcome that reaches its sender ends the packet: its stamp moves the core's clock, as an acknowledgement does, and
it is told to the command that sent it, with a notice unless it was delivered in time. A sender that has heard nothing for 8 bounds asks
the destination die, which answers when it has an outcome. -/
def Sys2Proof.Claims.OutcomesReachTheSender : Prop :=
  ∀ (s : State) (o : PacketRef) (k : Packet), s.packet? o.id = some k →
    (∀ r p, k.outcome = some (r, .none) → s.sender k = some p →
      exec (.packetOutcome o) s = .next ((((s.dropPacket o.id).foldPts k.core k.wts).tellOwner k r).pump k.core)) ∧
    (∀ r c p, k.outcome = some (r, c) → c ≠ .none → s.sender k = some p → exec (.packetOutcome o) s =
      .next (((((s.dropPacket o.id).modParty k.core (·.collectiveNotice k c)).foldPts k.core k.wts).tellOwner k r).pump k.core)) ∧
    (∀ r c, k.outcome = some (r, c) → s.sender k = none → exec (.packetOutcome o) s = .next (s.dropPacket o.id)) ∧
    (s.rackTime (pkgOfDie k.src) < k.time + 8 * k.bound →
      exec (.outcomeQueryTimer ⟨o.id, false⟩) s = .next (s.post (.outcomeQueryTimer ⟨o.id, false⟩))) ∧
    (k.time + 8 * k.bound ≤ s.rackTime (pkgOfDie k.src) → exec (.outcomeQueryTimer ⟨o.id, false⟩) s =
      .next ((s.setPacket { k with asked := true }).send k.src k.die (.outcomeQueryTimer ⟨o.id, true⟩))) ∧
    (k.step = .judged → exec (.outcomeQueryTimer ⟨o.id, true⟩) s = .next (s.send k.die k.src (.packetOutcome o))) ∧
    (k.step ≠ .judged → exec (.outcomeQueryTimer ⟨o.id, true⟩) s = .next s)

/-- R421-R429, R447, R448: a collective packet from its acceptance to its outcome. -/
def Obligations.PacketsGoFromAcceptanceToOutcome : Prop :=
  Claims.PacketsAreAccepted ∧ Claims.PacketsArrive ∧ Claims.PacketsAreApplied ∧ Claims.OutcomesReachTheSender

-- links (R431-R434, R439)

/-- R432, R433, R442: a link with something to send, whose next module in rotation is free, puts one flit on it, and the module is busy with
it for the flit's time: a replayed flit first, then up to seven slots of the messages that wait for its hop, under the next sequence
number, which stays in the replay buffer. A link that serves its hop alone sends what waits for it; while its module is busy it waits. -/
def Sys2Proof.Claims.FlitsStart : Prop :=
  ∀ (s : State) (o : LinkRef) (x : Link) (m : Nat) (h : Module), kget s.links o.link = some x → s.linkUp o.link = true →
    s.hasWork o.link x = true → x.nextModule = some m → x.modules[m]? = some h →
    (21 * (s.now + 1) ≤ h.busy → exec (.flitStart o) s = .next (s.postOnce (.flitStart o))) ∧
    (hopPorts o.link = [o.link] → x.queue ≠ [] → x.buffer.length < replayMax o.link → s.feed o.link x = some o.link) ∧
    (h.busy < 21 * (s.now + 1) →
    ∃ t y f, exec (.flitStart o) s = .next t ∧ kget t.links o.link = some y ∧ y.wire = x.wire ++ [f] ∧ f.module = m ∧ y.last = m ∧
      y.modules[m]? = some { h with busy := max h.busy (21 * s.now) + flitTime o.link h } ∧
      t.parties = s.parties ∧ t.mem = s.mem ∧
      (∀ g rest, x.due = g :: rest → f.seq = g.seq ∧ f.msgs = g.msgs ∧ y.due = rest ∧ y.queue = x.queue ∧ y.seq = x.seq) ∧
      (∀ k z, x.due = [] → s.feed o.link x = some k → kget s.links k = some z → f.seq = some x.seq ∧ f.msgs = (takeSlots 7 z.queue).1 ∧
        y.seq = (x.seq + 1) % 1024 ∧ y.buffer = x.buffer ++ [f] ∧
        ∃ z1, kget t.links k = some z1 ∧ z1.queue = (takeSlots 7 z.queue).2))

/-- R433, R434: a flit that arrives whole with the number that the receiver waits for hands on its messages; one that fails its check hands
on nothing, is counted for its module, and asks for a replay from that number, once. The acknowledgement owed by an idle flit is the
model's (log entry 48). -/
def Sys2Proof.Claims.FlitsArrive : Prop :=
  ∀ (s : State) (o : FlitRecv) (x : Link) (f : Flit) (rest : List Flit), kget s.links o.link = some x → x.wire = f :: rest →
    s.linkUp o.link = true →
    let s1 := { s with links := kput s.links o.link { x with wire := rest } }
    (o.ok = true → exec (.flitReceive o) s = .next (s1.takeFlit o.link f)) ∧
    (∀ y, (s1.takeHeader o.link f).linkUp o.link = true → kget (s1.takeHeader o.link f).links o.link = some y → f.seq = some y.rx →
      s1.takeFlit o.link f = f.msgs.foldl State.onward ((s1.takeHeader o.link f).owesAck o.link fun x => { x with
        rx := (x.rx + 1) % 1024
        asked := none })) ∧
    let bad := s1.modLink o.link fun y => { y with
      modules := y.modules.zipIdx.map fun (m, i) => if i = f.module then { m with crcs := m.crcs + 1 } else m }
    (o.ok = false → x.asked ≠ none → f.seq ≠ some x.rx → exec (.flitReceive o) s = .next bad) ∧
    (o.ok = false → (x.asked = none ∨ f.seq = some x.rx) → exec (.flitReceive o) s = .next (bad.owesAck o.link fun y => { y with
      asked := some (f.seq.getD y.rx, f.module)
      nakDue := true }))

/-- R433, R434: a flit that is not acknowledged for 2,048 cycles is replayed, and its eighth failure takes the link DOWN. A check of
4,096 cycles keeps the halves of a module in which it found no failing lane; a link without a module is DOWN. That a missing
acknowledgement counts as a failure is log entry 51. -/
def Sys2Proof.Claims.LinksRetryAndFail : Prop :=
  ∀ (s : State) (x : Link),
    (∀ (o : LinkRef) (f : Flit) (rest : List Flit), kget s.links o.link = some x → x.buffer = f :: rest →
      (s.now < x.since + 2048 → exec (.ackTimeout o) s = .next (s.postOnce (.ackTimeout o))) ∧
      (x.since + 2048 ≤ s.now → x.fails < 7 → ∀ q, f.seq = some q → exec (.ackTimeout o) s = .next
        (({ s with links := kput s.links o.link { x with
            due := x.buffer
            fails := x.fails + 1
            since := s.now } }.postOnce (.flitStart ⟨o.link⟩)).postOnce (.ackTimeout o))) ∧
      (x.since + 2048 ≤ s.now → 7 ≤ x.fails → exec (.ackTimeout o) s = .next ((s.linkDown o.link).postOnce (.ackTimeout o)))) ∧
    (∀ (o : ModuleCheck) (k : Module) (n : Nat), kget s.links o.link = some x → x.modules[o.module]? = some k → k.check = some n →
      let y := { x with modules := x.modules.zipIdx.map fun (m, i) =>
        if i = o.module then { m with
          low := m.low && !o.low
          high := m.high && !o.high
          check := none
          changes := m.changes + 1 } else m }
      let t := { s with links := kput s.links o.link y }
      (s.now < n + 4096 → exec (.moduleCheckEnd o) s = .next (s.post (.moduleCheckEnd o))) ∧
      (n + 4096 ≤ s.now → y.alive = true → exec (.moduleCheckEnd o) s = .next (t.wakeLinks o.link)) ∧
      (n + 4096 ≤ s.now → y.alive = false → x.down = true → exec (.moduleCheckEnd o) s = .next t) ∧
      (n + 4096 ≤ s.now → y.alive = false → x.down = false → exec (.moduleCheckEnd o) s = .next (t.linkDown o.link)))

/-- R431-R434: the flits of a link. -/
def Obligations.LinksCarryAndRetryFlits : Prop := Claims.FlitsStart ∧ Claims.FlitsArrive ∧ Claims.LinksRetryAndFail

-- dies, packages, firmware (R434, R468, R486, R487, R490-R497)

/-- R486, R487, R468: three missed heartbeats in a row bring a die's adoption: it is fenced, with all of its package if it is the host
die. A role whose holder does not answer goes to the lowest-numbered package that does; the rack controller's commands then fail
and its parties go on (log entry 76). -/
def Sys2Proof.Claims.DiesAreWatchedAndAdopted : Prop :=
  ∀ (s : State),
    (∀ o : Heartbeat, s.fenced.contains o.die = false → (s.pkg (pkgOfDie o.die)).ready = true →
      let n := (kget s.misses o.die).getD 0 + 1
      (o.heard = true → exec (.heartbeat o) s = .next { s with misses := serase o.die s.misses }) ∧
      (o.heard = false → n ≠ 3 → exec (.heartbeat o) s = .next { s with misses := kput s.misses o.die n }) ∧
      (o.heard = false → n = 3 → exec (.heartbeat o) s = .next
        (State.post { s with misses := kput s.misses o.die n } (.dieAdoption ⟨o.die⟩)))) ∧
    (∀ o : DieRef, s.fenced.contains o.die = false → 3 ≤ (kget s.misses o.die).getD 0 →
      let t := { s with misses := serase o.die s.misses }
      (o.die < 576 → exec (.dieAdoption o) s = .next (t.fenceDie o.die)) ∧
      (576 ≤ o.die → exec (.dieAdoption o) s = .next (t.fencePkg (o.die - 576)))) ∧
    (∀ (o : RoleRef) (p q : Nat), kget s.bc.roles o.role = some p → s.answering p = false → s.roleHolder o.role = some q →
      let t := s.modBc fun b => { b with roles := kput b.roles o.role q }
      (o.role ≠ 0 → exec (.roleTakeover o) s = .next t) ∧
      (o.role = 0 → exec (.roleTakeover o) s = .next t.failCommands.dispatch))

/-- R497, R471: after PACKAGE_COLD_RESET every register of the package has its reset value; with no package up, and only then, the
queue and the ownership have theirs too (log entry 77). -/
def Sys2Proof.Claims.ColdResetResetsAPackage : Prop :=
  ∀ (s : State) (o : PkgRef), ∃ t, exec (.packageColdReset o) s = .next t ∧
    t.pkg o.pkg = { Pkg.reset with resetAt := s.now } ∧
    ((t.pkgs.any fun x => x.2.ready) = false → t.bc = BaseCamp.reset ∧ t.own = ⟨none, [], none, []⟩)

/-- The host's request is the next of the management mailbox, and its host die serves it. -/
structure Sys2Proof.Claims.Asks (s : State) (h : HostId) (p : Nat) : Prop where
  head : s.mailQ.head? = some h
  pkg : hostPkg h = some p
/-- The host owns the rack. -/
def Sys2Proof.Claims.owns (s : State) (h : HostId) : Prop := (s.own.owner.any fun c => c.host == h) = true
/-- The request of a host has ended with a result. -/
def Sys2Proof.Claims.answered (t : State) (h : HostId) (r : BitVec 8) : Prop :=
  (t.mailbox h).busy = false ∧ (t.mailbox h).result = r

/-- R492, R497: LOADFW of checked images with a size in whole 64 KiB that HBM has brings the package up: the direct part has its size,
POOLMAP its bring-up entries, READY is set. A bad size is code 5 (log entry 73), a bad image code 4. -/
def Sys2Proof.Claims.LoadfwBringsAPackageUp : Prop :=
  ∀ (s : State) (o : MailReq) (p : Nat), Asks s o.host p → (s.pkg p).ready = false →
    let d := s.mailData o.host 0 24
    let direct := fieldAt d 16 8
    let images := bundleImages (s.hostBytes o.host (fieldAt d 0 8) (fieldAt d 8 8))
    ∃ t, exec (.loadFw o) s = .next t ∧
      (direct % 65536 ≠ 0 ∨ hbmBytes < direct → answered t o.host 5) ∧
      (direct % 65536 = 0 → direct ≤ hbmBytes → (images.all fun x => Config.imageOk x.2) = false → answered t o.host 4) ∧
      (direct % 65536 = 0 → direct ≤ hbmBytes → (images.all fun x => Config.imageOk x.2) = true →
        answered t o.host 0 ∧ (t.pkg p).ready = true ∧ (t.pkg p).hbmEnd = direct / 65536 ∧
        ∀ h, h < 1024 → sget 0 t.poolmap h = BitVec.ofNat 8 (h % 72))

/-- R434, R490: the owner's RETRAIN of a link that may train leaves the named module whole, or OFF where it does not train, which is a free
value (log entry 78), and the link is not DOWN. -/
def Sys2Proof.Claims.RetrainTrainsAModule : Prop :=
  ∀ (s : State) (o : MailReq) (p l : Nat) (x : Link), Asks s o.host p → owns s o.host → (s.pkg p).ready = true →
    let d := s.mailData o.host 0 3
    let m := if isPort l then 0 else fieldAt d 2 1
    namedLink p (fieldAt d 0 1) (fieldAt d 1 1) (fieldAt d 2 1) = some l → s.trainable p (fieldAt d 0 1) l = true →
    kget s.links l = some x → m < x.modules.length →
    ∃ t y k, exec (.retrain o) s = .next t ∧ answered t o.host 0 ∧ kget t.links l = some y ∧ y.down = false ∧
      y.modules[m]? = some k ∧ k.low = Config.trains s.fresh l m ∧ k.high = Config.trains s.fresh l m ∧ k.check = none

/-- R495, R496: a host's store to the second tier, and one of the application cores to a physical address of memory, within a line that no
commit holds, writes its bytes at their home; a read changes nothing. -/
def Sys2Proof.Claims.HostsAccessMemory : Prop :=
  ∀ (s : State) (o : HostAccess), (s.pkg o.pkg).ready = true →
    let r := resolved o.pkg (0x80000000000 + o.off)
    (o.data = none → exec (.hostMemoryAccess o) s = .next s) ∧
    (∀ v, o.data = some v → o.app = false → 0 < o.len → o.off % 128 + o.len ≤ 128 → o.off < 2 ^ 40 → s.locked (lineOf r) = false →
      s.fenced.contains (homeDie r) = false → exec (.hostMemoryAccess o) s = .next (s.campStore r (natBytes o.len v))) ∧
    (∀ v q, o.data = some v → o.app = true → 0 < o.len → o.off % 128 + o.len ≤ 128 → s.resolve o.off = some q → isMmioOff (resOff q) = false →
      s.locked (lineOf q) = false → s.fenced.contains (homeDie q) = false →
      exec (.hostMemoryAccess o) s = .next (s.campStore q (natBytes o.len v)))

/-- R434, R468, R471, R486, R487, R490-R497: the events of the rack. -/
def Obligations.TheRackIsBroughtUpAndWatched : Prop :=
  Claims.DiesAreWatchedAndAdopted ∧ Claims.ColdResetResetsAPackage ∧ Claims.LoadfwBringsAPackageUp ∧ Claims.RetrainTrainsAModule ∧
    Claims.HostsAccessMemory

-- the command queue (R473-R485)

/-- The state with the packet in dispatch dequeued and admitted (R474 steps 4 and 5). -/
def Sys2Proof.Claims.taken (s : State) : State :=
  { s with bc := { s.bc.dequeued with stage := 6 } }
/-- A packet at step 2 that waits for no semaphore and no line that a commit holds, binds no operand, has class 0 without FENCE, and is
well formed with its first `n` operands (R284, R473, R474, R477). -/
structure Sys2Proof.Claims.Plain (s : State) (o : Cmd) (n : Nat) : Prop where
  stage : s.bc.stage = 2
  running : s.bc.stop = none
  unheld : s.commitsHold = false
  semaphore : o.sem = 0
  operation : o.op ≤ 0x0A
  unbound : ∀ k, k < 5 → o.bound k = false
  inOrder : o.dclass = 0 ∧ o.fence = false
  reserved : o.dw0.extractLsb' 18 14 = 0
  rest : o.zeroFrom n = true

/-- The commands, each with the number of its operands (R476). -/
def Sys2Proof.Claims.commands (o : Cmd) : List (Instr × Nat) :=
  [(.nopCommand o, 0), (.launch o, 5), (.preempt o, 2), (.resume o, 2), (.semsig o, 3), (.semwait o, 0), (.ibuf o, 2), (.mapupdate o, 4),
   (.hostcopy o, 3), (.timestamp o, 1), (.debugCmd o, 3)]

/-- R284, R474, R477, R480, R518: a packet waits while a commit holds any line (log entry 54), while the queue is halted, and while its semaphore reads below SEMVAL; one whose reserved bits or
unused operands are not zero completes with COMMAND_MALFORMED; NOP and SEMWAIT complete with no effect of their own. -/
def Sys2Proof.Claims.PacketsWaitAndAreChecked : Prop :=
  ∀ (s : State) (o : Cmd) (i : Instr) (n : Nat), (i, n) ∈ commands o →
    (s.commitsHold = true ∨ s.bc.stop.isSome = true → exec i s = .next (s.post i)) ∧
    (s.bc.stage = 2 → s.commitsHold = false → s.bc.stop = none →
    (∀ t v, o.sem ≠ 0 → o.sem.toNat % 8 = 0 → s.campWord o.sem = .ok (t, v) → v < o.semval → exec i s = .next (t.post i)) ∧
    (o.sem = 0 → (∀ k, k < 5 → o.bound k = false) → (o.dw0.extractLsb' 18 14 ≠ 0 ∨ o.zeroFrom n = false) →
      exec i s = .next (({ s with bc := { s.bc.dequeued with stage := 0 } }).finishCommand (cmdResult o .commandMalformed 0))) ∧
    (Plain s o 0 → i = .nopCommand o ∨ i = .semwait o → exec i s = .next ((taken s).complete o .none 0)))

/-- R476: SEMSIG with no earlier command outstanding sets the semaphore, or adds to it, else it waits beside the packets behind it (log entry
69); TIMESTAMP writes the rack time, which is the count of the rack controller's package (log entry 124); HOSTCOPY copies (log entry 72); IBUF of a buffer that meets no other of its chain opens it. -/
def Sys2Proof.Claims.SmallCommandsAct : Prop :=
  ∀ (s t : State) (o : Cmd) (n : Nat), let u := taken s
    (Plain s o 3 → o.dw3.toNat % 8 = 0 → o.dw5 = 0 → u.bc.earlierDone = true →
      u.campWrite u.bc.qroot o.dw3 (natBytes 8 o.dw4.toNat) = (t, n, none) → exec (.semsig o) s = .next (t.complete o .none 0)) ∧
    (∀ v w, Plain s o 3 → o.dw3.toNat % 8 = 0 → o.dw5 = 1 → u.bc.earlierDone = true → u.campWord o.dw3 = .ok (v, w) →
      v.campWrite v.bc.qroot o.dw3 (natBytes 8 (w + o.dw4).toNat) = (t, n, none) →
      exec (.semsig o) s = .next (t.complete o .none 0)) ∧
    (Plain s o 3 → o.dw3.toNat % 8 = 0 → o.dw5.toNat < 2 → u.bc.earlierDone = false → exec (.semsig o) s = .next
      (u.started o 0 (.signal o.dw3 o.dw4 (o.dw5.getLsbD 0) (u.bc.buffers.map Buffer.seq)))) ∧
    (Plain s o 1 → o.dw3.toNat % 8 = 0 → u.campWrite u.bc.qroot o.dw3 (natBytes 8 (s.rackTime s.rackHolder)) = (t, n, none) →
      exec (.timestamp o) s = .next (t.complete o .none (s.rackTime s.rackHolder))) ∧
    (∀ done, Plain s o 3 → o.dw5.toNat < 2 ^ 40 → copyBytes (o.dw5.toNat / 128 + 2) u o.dw3 o.dw4 o.dw5.toNat = (t, done) →
      exec (.hostcopy o) s = .next (t.complete o (if done then .none else .commandFault) 0)) ∧
    (Plain s o 2 → o.dw3.toNat % 64 = 0 → o.dw4 ≠ 0 → o.dw4.toNat ≤ 2 ^ 20 → o.depth < 4 →
      u.bc.selfRef o.dw3.toNat (64 * o.dw4.toNat) = false → exec (.ibuf o) s = .next { s with bc := { s.bc.dequeued with
        stage := 0
        active := s.bc.dequeued.active ++ [⟨o.seq, o.tag, BitVec.ofNat 8 o.op, o.irq, 0, .buffer none⟩]
        buffers := ⟨o.dw3.toNat, o.dw4.toNat, 0, o.seq⟩ :: s.bc.dequeued.buffers } })

/-- R234, R381, R386, R410, R476-R481: LAUNCH reads its header once; it waits while no core of its set is free, then starts its grid, or is
malformed where its save area is not mapped. PREEMPT begins the save of its parties, RESUME restores the suspended ones, DEBUG halts or
resumes; MAPUPDATE ends the translations of its range and answers the faults that it names. Which root operands are malformed, and when
MAPUPDATE makes its checks, is log entry 72. -/
def Sys2Proof.Claims.GridCommandsAct : Prop :=
  ∀ (s t u : State) (o : Cmd) (g : Grid), let s0 := s.modBc BaseCamp.dequeued
    let t6 := t.modBc fun b => { b with stage := 6 }
    (∀ h, Plain s o 5 → o.dw3.toNat % 64 = 0 → o.dw5.toNat % 65536 = 0 → o.dw5.toNat < 2 ^ 52 → s0.grid? o.tag = none →
      s0.readHeader o.dw3 = .ok (t, h) →
      let held := t.modBc fun b => { b with stage := 6, taken := some h }
      let v := t.modBc fun b => { b with stage := 6, taken := none }
      (held.canStart h = false → exec (.launch o) s = .next (held.post (.launch o))) ∧
      (held.canStart h = true → v.saveMapped o.dw7 (v.participants h).length = true →
        exec (.launch o) s = .next ((v.startGrid o.tag h o.dw4 (v.rootOf o.dw5) o.dw6 o.dw7).started o o.tag .launch)) ∧
      (held.canStart h = true → v.saveMapped o.dw7 (v.participants h).length = false →
        exec (.launch o) s = .next (v.complete o .commandMalformed 0))) ∧
    (∀ cs, Plain s o 2 → gridCheck true o s0 = .ok t → t6.coreSet o.dw4 = .ok (u, cs) → u.grid? (cmdGrid o) = some g →
      exec (.preempt o) s = .next (preemptStart o u g cs) ∧
      (resumeCan o t6 = true → exec (.resume o) s = .next (resumeStart o u g cs))) ∧
    (∀ cs, Plain s o 3 → debugCheck o s0 = .ok t → t6.coreSet o.dw4 = .ok (u, cs) → u.grid? (cmdGrid o) = some g →
      exec (.debugCmd o) s = .next ((if o.dw5.getLsbD 0 then debugResumeStart else debugHaltStart) o u g cs)) ∧
    (Plain s o 4 → mapCheck o s0 = .ok t →
      let root := t6.rootOf o.dw5
      let v := t6.endTranslations root o.dw3.toNat o.dw4.toNat
      exec (.mapupdate o) s = .next ((if o.dw6.getLsbD 0 then v.answerFaults root o.dw3.toNat o.dw4.toNat false
        else if o.dw6.getLsbD 1 then v.answerFaults root o.dw3.toNat o.dw4.toNat true else v).complete o .none 0))

/-- R284, R484: the record of a command at the head of the completed ones is written at CQTAIL when the ring has room and no commit holds
any line (log entry 54), with the time of its completion (log entry 70), unless a record has halted the queue (log entry 71); the tail moves, and a command that asked for it signals vector 0. -/
def Sys2Proof.Claims.CompletionsWriteTheirRecord : Prop :=
  ∀ (s t : State) (r : CmdResult) (time n : Nat) (rest : List (CmdResult × Nat)), s.bc.done = (r, time) :: rest → s.bc.stop = none →
    (s.bc.recordRoom = false ∨ s.commitsHold = true → exec (.commandCompletion r) s = .next (s.post (.commandCompletion r))) ∧
    (s.bc.recordRoom = true → s.commitsHold = false →
      s.campWrite s.bc.qroot (BitVec.ofNat 64 (s.bc.cqbase + 32 * (s.bc.cqtail % 2 ^ s.bc.cqsize))) (recordBytes r time) = (t, n, none) →
      let u := { t with
        bc := { t.bc with
          cqtail := (t.bc.cqtail + 1) % 2 ^ 32
          done := t.bc.done.drop 1
          active := t.bc.active.filter fun a => a.seq != r.seq }
        msix := if r.irq then t.msix ++ [0] else t.msix }
      exec (.commandCompletion r) s = .next (u.tendBuffers.tendSignals).dispatch)

/-- R284, R381, R473, R474, R476-R482, R484: the steps of a packet, the effect of each command, its record. -/
def Obligations.CommandsRunAndComplete : Prop :=
  Claims.PacketsWaitAndAreChecked ∧ Claims.SmallCommandsAct ∧ Claims.GridCommandsAct ∧ Claims.CompletionsWriteTheirRecord

-- registers (R267, R395, R471, R472, R480, R491)

/-- R471, R472: a register write by one who may make it writes the register's field, and Base Camp then looks at its queue or its ring;
by anyone else it does nothing. -/
def Obligations.RegisterWritesWriteTheirField : Prop :=
  ∀ (s : State) (o : RegWrite), let v := o.value.toNat
    let b := s.bc
    let put (b : BaseCamp) : Out := .next ({ s with bc := b } : State).dispatch
    let none_ := (s.partyIn o.pkg) = false
    let pkg (f : Pkg → Pkg) : Out := .next (s.modPkg o.pkg f).dispatch
    (s.mayWrite o.host = false → exec (.qtailWrite o) s = .next s ∧ exec (.qbaseWrite o) s = .next s ∧ exec (.qctlEn o) s = .next s ∧
      exec (.qctlSkip o) s = .next s ∧ exec (.cqheadWrite o) s = .next s ∧ exec (.fqheadWrite o) s = .next s ∧
      exec (.cohparamWrite o) s = .next s ∧ exec (.holdWrite o) s = .next s) ∧
    (s.mayWrite o.host = true →
      ((v % 2 ^ 32 + 2 ^ 32 - b.qhead) % 2 ^ 32 ≤ 2 ^ b.qsize → exec (.qtailWrite o) s = put { b with qtail := v % 2 ^ 32 }) ∧
      (2 ^ b.qsize < (v % 2 ^ 32 + 2 ^ 32 - b.qhead) % 2 ^ 32 → exec (.qtailWrite o) s = .next s.dispatch) ∧
      exec (.qbaseWrite o) s = put { b with
        qbase := v / 64 % 2 ^ 50 * 64
        seq := (b.seq / 2 ^ 64 + 1) * 2 ^ 64 } ∧
      (b.state ≠ 2 → exec (.qctlEn o) s = put { b with
        en := o.value.getLsbD 0
        state := if o.value.getLsbD 0 then 1 else 0 }) ∧
      (o.value.getLsbD 1 = true → exec (.qctlSkip o) s = .next s.skipHalt) ∧
      (o.value.getLsbD 1 = false → exec (.qctlSkip o) s = .next s) ∧
      exec (.cqheadWrite o) s = put { b with cqhead := v % 2 ^ 32 } ∧
      exec (.fqheadWrite o) s = .next ({ s with bc := { b with fqhead := v % 2 ^ 32 } } : State).tendRing ∧
      (15 ≤ v / 2 ^ 32 % 2 ^ 16 → v % 256 ≠ 0 → none_ → exec (.cohparamWrite o) s = pkg fun k => { k with
        driftM1 := v / 2 ^ 32 % 2 ^ 16
        lease := v % 256 }) ∧
      (v / 2 ^ 32 % 2 ^ 16 < 15 ∨ v % 256 = 0 ∨ ¬none_ → exec (.cohparamWrite o) s = .next s.dispatch) ∧
      (o.off = 0x108 → 60 ≤ v % 256 → v % 256 ≤ 110 → 50 ≤ v / 256 % 256 → v / 256 % 256 + 2 ≤ v % 256 → v / 65536 % 256 ≠ 0 → none_ →
        exec (.holdWrite o) s = pkg fun k => { k with
          tHi := v % 256
          tLo := v / 256 % 256
          droopMax := v / 65536 % 256 }) ∧
      (o.off = 0x110 → 40000 ≤ v / 2 ^ 32 → v / 2 ^ 32 ≤ 4000000 → 4096 ≤ v % 2 ^ 21 → v % 2 ^ 21 ≤ 1048576 → none_ →
        exec (.holdWrite o) s = pkg fun k => { k with
          holdMax := v / 2 ^ 32
          droopWin := v % 2 ^ 21 }) ∧
      (o.off = 0x020 → exec (.registerWrite o) s = put { b with qroot := v / 2 ^ 16 % 2 ^ 36 * 2 ^ 16 }) ∧
      (o.off = 0x128 → 1200 ≤ v % 4096 → v % 4096 ≤ 3600 → exec (.registerWrite o) s = pkg fun k => { k with pwrCap := v % 4096 })) ∧
    (o.off = 0x1000 → hostPkg o.host = some o.pkg → (s.mailbox o.host).busy = false → ∀ e, mailEvent (v % 256) o.host = some e →
      exec (.registerWrite o) s = .next (State.post { s.setMailbox o.host { s.mailbox o.host with busy := true } with
        mailQ := s.mailQ ++ [o.host] } e))

-- ownership, firmware, attestation (R488-R494)

/-- R488, R489: a CLAIM with a matching key hash, the copy's challenge and a valid signature stands as a claim of its host, and the
first one, with no owner, opens a window of 10 ms; at its end the best claim owns the rack. That form, challenge and signature are checked
in this order is the model's reading (log entry 75). -/
def Sys2Proof.Claims.ClaimsContend : Prop :=
  ∀ (s : State),
    (∀ (o : MailReq) (p : Nat), Asks s o.host p → (s.pkg p).ready = true →
      let bs := s.mailData o.host 0 200
      let m := s.mailbox o.host
      let key := (bs.drop 0x20).take 64
      let formed := bs.take 32 = Config.sm3 key ∧ (bs.drop 0x81).take 7 = zeros 7
      let fresh := (bs.drop 0x60).take 32 = padTo 32 (Config.challenge (copyNum o.host) m.challenge)
      ∃ t, exec (.claim o) s = .next t ∧ (¬formed → answered t o.host 5 ∧ t.own = s.own) ∧
        (formed → ¬fresh → answered t o.host 3 ∧ t.own = s.own) ∧
        (formed → fresh → Config.sm2Verify key bs = false → answered t o.host 2 ∧ t.own = s.own) ∧
        (formed → fresh → Config.sm2Verify key bs = true → answered t o.host 0 ∧ t.own.owner = s.own.owner ∧
          (t.mailbox o.host).challenge = m.challenge + 1 ∧
          t.own.claims = s.own.claims.filter (fun x => x.host != o.host) ++ [⟨o.host, bs.take 32, fieldAt bs 0x80 1⟩] ∧
          t.own.since = if s.own.owner.isNone && s.own.since.isNone then some s.now else s.own.since)) ∧
    (∀ n, s.own.owner = none → s.own.since = some n →
      (s.now < n + 40000000 → exec .claimWindowExpiry s = .next (s.post .claimWindowExpiry)) ∧
      (∀ c, n + 40000000 ≤ s.now → bestClaim s.own.claims = some c → ∃ t, exec .claimWindowExpiry s = .next t ∧
        t.own.owner = some c ∧ t.own.since = none ∧ t.own.claims = s.own.claims.filter fun x => x.host != c.host))

/-- R489, R490: HANDOVER makes the host with the named standing claim the owner; RELEASE ends ownership, and so does a link of the owner
that has been DOWN for 100 ms. A host that is not the owner gets code 1. -/
def Sys2Proof.Claims.OwnershipMoves : Prop :=
  ∀ (s : State),
    (∀ (o : MailReq) (p : Nat), Asks s o.host p → (s.pkg p).ready = true →
      (¬owns s o.host → ∃ t u, exec (.handover o) s = .next t ∧ answered t o.host 1 ∧ t.own = s.own ∧
        exec (.releaseOwner o) s = .next u ∧ answered u o.host 1 ∧ u.own = s.own) ∧
      (owns s o.host → (∀ c, s.own.claims.find? (fun c => c.ident == s.mailData o.host 0 32) = some c →
          ∃ t, exec (.handover o) s = .next t ∧ answered t o.host 0 ∧ t.own.owner = some c) ∧
        (s.own.claims.find? (fun c => c.ident == s.mailData o.host 0 32) = none →
          ∃ t, exec (.handover o) s = .next t ∧ answered t o.host 6 ∧ t.own = s.own) ∧
        ∃ t, exec (.releaseOwner o) s = .next t ∧ answered t o.host 0 ∧ t.own.owner = none ∧ t.own.claims = s.own.claims)) ∧
    (∀ c d, s.own.owner = some c → s.own.down.find? (fun d => d.1 == c.host) = some d →
      (s.now < d.2 + 400000000 → exec .ownerLinkTimeout s = .next (s.post .ownerLinkTimeout)) ∧
      (d.2 + 400000000 ≤ s.now → ∃ t, exec .ownerLinkTimeout s = .next t ∧ t.own.owner = none ∧ t.own.claims = s.own.claims)) ∧
    (∀ o : LinkChange, let others := s.own.down.filter fun d => d.1 != o.host
      (o.up = true → exec (.hostLinkChange o) s = .next { s with own := { s.own with down := others } }) ∧
      (o.up = false → (∀ d ∈ s.own.down, d.1 ≠ o.host) → exec (.hostLinkChange o) s = .next
        (State.post { s with own := { s.own with down := others ++ [(o.host, s.now)] } } .ownerLinkTimeout)))

/-- R493, R494: STAGE places a checked image for a die; SWITCH installs a staged one while no command is in dispatch and no party is
being saved; ATTEST counts a report. -/
def Sys2Proof.Claims.FirmwareIsStagedSwitchedAndAttested : Prop :=
  ∀ (s : State) (o : MailReq) (p : Nat), Asks s o.host p → (s.pkg p).ready = true →
    (owns s o.host →
      let d := s.mailData o.host 0 17
      let die := fieldAt d 16 1
      let bs := s.hostBytes o.host (fieldAt d 0 8) (fieldAt d 8 8)
      (die ≤ 8 → Config.imageOk bs = true → ∃ t x, exec (.stageFw o) s = .next t ∧ answered t o.host 0 ∧
        kget (t.pkg p).staged die = some x ∧ x.version = Config.imageVersion bs ∧ x.measure = Config.sm3 bs ∧
        (t.pkg p).images = (s.pkg p).images) ∧
      (die ≤ 8 → Config.imageOk bs = false → ∃ t, exec (.stageFw o) s = .next t ∧ answered t o.host 4 ∧ t.pkg p = s.pkg p)) ∧
    (owns s o.host → let die := fieldAt (s.mailData o.host 0 1) 0 1
      ∀ x, die ≤ 8 → kget (s.pkg p).staged die = some x →
      (s.switchable p = true → ∃ t, exec (.switchFw o) s = .next t ∧ answered t o.host 0 ∧
        kget (t.pkg p).images die = some x ∧ (t.pkg p).staged = serase die (s.pkg p).staged) ∧
      (s.switchable p = false → exec (.switchFw o) s = .next (s.post (.switchFw o)))) ∧
    (∃ t, exec (.attest o) s = .next t ∧ answered t o.host 0 ∧ (t.pkg p).reports = (s.pkg p).reports + 1 ∧
      (t.pkg p).images = (s.pkg p).images)

/-- R488-R494: who owns the rack, and what its firmware is. -/
def Obligations.OwnersAndFirmwareChangeAsAsked : Prop :=
  Claims.ClaimsContend ∧ Claims.OwnershipMoves ∧ Claims.FirmwareIsStagedSwitchedAndAttested

-- words that decode to no instruction (R71, R93-R96)

/-- R71, R91, R93, R96, R504: a word of a reserved opcode is ILLEGAL_OPCODE; one with a fixed field at another value is RESERVED_FIELD,
but a stream word in a strand is ILLEGAL_OPCODE first, and a write of SCOPE7-31 by an unprivileged grid PRIVILEGED; a fetch that fails takes
its own cause with TINSN 0 (log entry 43). The slot takes the trap once it is ready, a word with a bad field once the operands that its
fields name are ready too (R126, R202; the model's reading, log entry 12), at its own PC. -/
def Sys2Proof.Claims.RefusedWordsTrap : Prop :=
  ∀ (s : State) (w : SlotRef) (p : Party) (o : Words), s.focus = .slot w → s.party? w.core = some p → p.slotReady w = true →
    let l := p.slot w
    let trap (c : Cause) (words : Words) (lane : Option (BitVec 5)) (mask : Word) (addr : Dword) : Out :=
      .next (s.markIssued.takeTrap w ⟨c, l.pc, words, lane, mask, addr, ⟨0, 0⟩, l.pc, false⟩)
    let here (c : Cause) : Out := if halfBit o.w0 then trap c o none 0 0 else trap c o (lowLane l.m0) l.m0 0
    exec (.illegalOpcode o) s = here .illegalOpcode ∧
    (sequencerOnly o.w0 = true → exec (.reservedField o) s = here .illegalOpcode) ∧
    (∀ j, sequencerOnly o.w0 = false → decodeFields o.w0 o.w1 = some j →
      let scope := o.w0.extractLsb' 24 8 = 0xE1 ∧ 0x067 ≤ (o.w0.extractLsb' 0 9).toNat ∧ (o.w0.extractLsb' 0 9).toNat ≤ 0x07F
      (p.operandsReady w j = false → exec (.reservedField o) s = .next s) ∧
      (p.operandsReady w j = true → scope ∧ p.priv = false → exec (.reservedField o) s = here .privileged) ∧
      (p.operandsReady w j = true → ¬(scope ∧ p.priv = false) → exec (.reservedField o) s = here .reservedField)) ∧
    (∀ c addr, exec (.instructionFetchFault ⟨c, addr⟩) s = trap c ⟨0, 0⟩ none 0 addr)

/-- R71, R91, R93, R96, R176, R177, R504: TRAP, BRK, and words that are no instruction. -/
def Obligations.FaultingInstructionsTrap : Prop := Claims.TrapAndBrkEnterTheHandler ∧ Claims.RefusedWordsTrap

-- frames (R26, R75-R79, R151, R185)

/-- The specifiers that an instruction writes. -/
def Sys2Proof.Claims.written (i : Instr) : List Nat := ((roles i).dst.map Dst.regs).getD []

/-- R26, R76-R79, R151, R160, R185: what a lane or a uniform instruction of registers leaves: every register that its destination does not
cover; s23 but for CALL and CALLR; the masks and the execution mask, m0 but for a uniform destination of m0; the flags but for SCMP,
SCMPI and MTEST; the random state but for NCVT; every other slot and strand; the formats, anchors, barriers, the scratchpad and the
stream; and outside the party everything but the record of the issue. -/
def Obligations.RegisterInstructionsKeepEverythingElse : Prop :=
  ∀ (s : State) (w : SlotRef) (p q : Party) (i : Instr), w.strand < 16 →
    laneResult w (begun s w p i) i = some q ∨ uniformResult s w (p.slot w).pc (begun s w p i) i = some q →
    let st := p.strand w.strand
    let u := q.strand w.strand
    (∀ k, k ≠ w.strand → q.strand k = p.strand k) ∧
    (∀ r, r < 88 → r ∉ written i → u.vreg r = st.vreg r) ∧
    (∀ r, r < 23 → 88 + r ∉ written i → u.sreg r = st.sreg r) ∧
    ((∀ o, i ≠ .call o) → (∀ o, i ≠ .callr o) → 111 ∉ written i → u.sreg 23 = st.sreg 23 ∧ u.full = st.full) ∧
    (∀ r, 0 < r → r < 8 → 112 + r ∉ written i → u.mreg r = st.mreg r) ∧
    (112 ∉ written i → (q.slot w).m0 = (p.slot w).m0) ∧
    (q.slot w).em = (p.slot w).em ∧ (q.slot w).st = (p.slot w).st ∧ (q.slot w).wait = (p.slot w).wait ∧
    ((∀ o, i ≠ .scmp o ∧ i ≠ .mtest o) → (∀ o, i ≠ .scmpi o) → (q.slot w).flags = (p.slot w).flags) ∧
    u.slot (otherSlot w.slot) = st.slot (otherSlot w.slot) ∧
    ((∀ o, i ≠ .ncvt o) → u.rng = st.rng) ∧
    (u.fmt = st.fmt ∧ u.anc = st.anc ∧ u.trap = st.trap ∧ u.inh = st.inh ∧ u.txn = st.txn ∧ u.pitch = st.pitch ∧ u.wp = st.wp) ∧
    (q.bars = p.bars ∧ q.scratch = p.scratch ∧ q.spoison = p.spoison ∧ q.seq = p.seq ∧ q.thnd = p.thnd) ∧
    ((after s w q).mem = s.mem ∧ (after s w q).tags = s.tags ∧ (after s w q).poison = s.poison ∧
      ∀ c, c ≠ w.core → (after s w q).party? c = s.party? c)

-- readiness, faults at issue, q3, single step (R24, R96, R126, R131, R398, R399, R504, R505)

/-- R24, R96, R126, R131, R398, R504, R505: an instruction whose slot or operands are not ready leaves the state as it is. An instruction
of registers that is ready is ILLEGAL_OPERAND for an operand that its position does not admit, then takes the first fault of its sources,
each at its own PC with nothing done. With SINGLE_STEP on its slot owes that trap, and takes it at the end of a cycle once it waits for
nothing and its accesses have settled, with the next PC as TEPC. One that reads q3 fetches an item for each read, is a producer, and by a strand that has no dispenser is FETCH_NOT_BOUND. -/
def Obligations.IssuesWaitFaultStepAndFetch : Prop :=
  ∀ (s : State) (w : SlotRef) (p : Party) (i : Instr), s.focus = .slot w → s.party? w.core = some p →
    let ready := p.slotReady w = true ∧ p.operandsReady w i = true
    let result (t : State) (b : Party) : Option Party := (laneResult w b i).or (uniformResult t w (p.slot w).pc b i)
    (((roles i).pipe = .lane ∨ (roles i).pipe = .uniform ∨ (roles i).pipe = .access) → ¬ready → exec i s = .next s) ∧
    (∀ q, ready → fetchCount i = 0 → reservedOk i = true → result s (begun s w p i) = some q →
      (operandOk i = false ∨ p.rolesOk w (roles i) = false →
        exec i s = .next (s.markIssued.takeTrap w (faultAt w p i .illegalOperand 0))) ∧
      (∀ c, operandOk i = true → p.rolesOk w (roles i) = true → p.srcsFault w (roles i).srcs [] = some c →
        exec i s = .next (s.markIssued.takeTrap w (faultAt w p i c 0))) ∧
      (p.issueFault w i none = none → (p.strand w.strand).step = true → (p.strand w.strand).inh = false → w.strand < 16 →
        exec i s = .next ((after s w q).modSlot w fun l => { l with
          stepped := some ⟨(p.slot w).pc, instrWords i, s.nextId, s.nextId⟩ }))) ∧
    (∀ o : StepOwed, let l := p.slot w
      l.stepped = some o → (p.strand w.strand).live = true → (p.strand w.strand).inh = false → p.status = .running → l.st = .running →
      l.wait = .none →
      ((∀ a ∈ p.accesses, a.strand = w.strand → ¬(o.lo ≤ a.id ∧ a.id < o.hi)) →
        s.tendStep w = (s.modSlot w fun l => { l with stepped := none }).takeTrap w ⟨.singleStep, o.pc, o.words,
          if halfBit o.words.w0 then none else lowLane l.m0, if halfBit o.words.w0 then 0 else l.m0, 0, ⟨0, 0⟩, l.pc, false⟩) ∧
      ((∃ a ∈ p.accesses, a.strand = w.strand ∧ o.lo ≤ a.id ∧ a.id < o.hi) → s.tendStep w = s)) ∧
    (∀ n, ready → fetchCount i = n + 1 → p.issueFault w i none = none →
      ((p.strand w.strand).step && !(p.strand w.strand).inh) = false →
      let x := s.markIssued.popsOfQ3 w (n + 1) none
      (∀ it p1 q, p.bound w = true → s.fetchFree w.core p.grid (n + 1) = true → p.items.length + n < 16 → x.1 = some it →
        x.2.party? w.core = some p1 → result x.2 (p1.beginIssue (p.ctx w i) (roles i).pipe s.now) = some q →
        exec i s = .next ((x.2.setParty w.core q).deferQ3 w (p.strand w.strand) (deferDst i) it)) ∧
      (∀ q, p.bound w = false → result s (begun s w p i) = some q → exec i s = .next
        ((s.markIssued.setParty w.core (p.popSources w (roles i).srcs)).takeTrap w (faultAt w p i .fetchNotBound 0))))

-- reset and steps

/-- R265, R471: after reset every register that the spec gives a reset value has it, no core runs a party, and every clock is 0. That
memory, tags and poison list nothing, so that unlisted bytes read 0, is the model's choice (log entry 1). -/
def Obligations.ResetGivesTheResetValues : Prop :=
  (∀ p, let r := State.reset.regRead p
    r 0x000 = 0 ∧ r 0x008 = 4 ∧ r 0x010 = 0 ∧ r 0x018 = 0 ∧ r 0x020 = 0 ∧ r 0x028 = 0 ∧ r 0x030 = 0 ∧ r 0x038 = 0 ∧ r 0x040 = 0 ∧
    r 0x048 = 0 ∧ r 0x050 = 4 ∧ r 0x058 = 0 ∧ r 0x060 = 0 ∧ r 0x068 = 0 ∧ r 0x070 = 4 ∧ r 0x078 = 0 ∧ r 0x080 = 0 ∧ r 0x088 = 0 ∧
    r 0x090 = 0 ∧ r 0x100 = 255 * 2 ^ 32 + 16 ∧ r 0x108 = 8 * 2 ^ 16 + 88 * 2 ^ 8 + 95 ∧ r 0x110 = 400000 * 2 ^ 32 + 65536 ∧
    r 0x128 = 3600 ∧ r 0x130 = 0) ∧
  (∀ c, (State.reset.core c).pts = 0 ∧ State.reset.party? c = none) ∧ (∀ p, (State.reset.pkg p).era = 0) ∧
  State.reset.mapsOk = true ∧ ∀ a, State.reset.readByte a = 0

/-- R70, R71: what a PC's instruction is: the words that its page holds there, decoded; a PC that is no word address, or a page that may
not be fetched, is the fault of the fetch. -/
def Sys2Proof.Claims.ThePcNamesItsWords : Prop :=
  ∀ (s : State) (core root : Nat) (priv : Bool) (pc : Pc),
    (pc.extractLsb' 0 2 ≠ 0 → s.instrAt core root priv pc = some (.instructionFetchFault ⟨.misalignedFetch, pc.setWidth 64⟩)) ∧
    (∀ t r, s.tlbFind (clusterOfCore core) root pc.toNat = some t → pteX t.pte = true → (pteP t.pte = false ∨ priv = true) →
      pteHome t.pte ≠ 3 → pteMcast t.pte = false → s.resolve (leafPa t.level t.pte pc.toNat) = some r →
      s.routeUp (dieOfCore core) (homeDie r) = true → s.fetchWord core root priv pc = .word (BitVec.ofNat 32 (s.readMem r 4))) ∧
    (∀ w, pc.extractLsb' 0 2 = 0 → s.fetchWord core root priv pc = .word w →
      (∀ i, isLong w = false → decodeWords w 0 = .instr i → s.instrAt core root priv pc = some i) ∧
      (∀ i v, isLong w = true → s.fetchWord core root priv (pc + 4) = .word v → decodeWords w v = .instr i →
        s.instrAt core root priv pc = some i))

/-- The place of the cycle that a strand's instruction issues in, counted from 0. -/
def Sys2Proof.Claims.placeOf : Pipe → Option Nat
  | .lane => some 0
  | .uniform | .sequencer => some 2
  | .access => some 3
  | .event => none

/-- R125-R128: A STEP RUNS THE DECODED INSTRUCTION of the one slot that may issue: with no event left in the cycle and its lane pipes
free, the step is exec of the instruction at the slot's PC, then its place has issued in this cycle (or the whole core, when the
instruction halts its party). A stream instruction is run for the sequencer in the same way when the places have had their turn, and
an event of the agenda is run when the schedule picks it. -/
def Obligations.AStepRunsTheDecodedInstruction : Prop :=
  Claims.ThePcNamesItsWords ∧
  (∀ (s t : State) (w : SlotRef) (p : Party) (i : Instr) (n : Nat),
    s.pend = 0 → s.turn = 0 → s.phase = 0 → s.laneRegs = none → s.parties = [(w.core, p)] → w.strand < 16 → p.shadows = false →
    p.status = .running → (p.strand w.strand).live = true → (p.slot w).st = .running → (p.slot w).lastAt ≠ some s.now →
    (∀ u : SlotRef, u.core = w.core → u ≠ w → (p.strand u.strand).live = false ∨ (p.slot u).st ≠ .running) →
    (s.core w.core).pipe0 ≤ s.now → (s.core w.core).pipe1 ≤ s.now →
    s.instrAt w.core p.root p.priv (p.slot w).pc = some i → Claims.placeOf (pipeOf i) = some n →
    exec i { s with
      focus := .slot w
      issued := false } = .next t → t.issued = true →
    step s = .next { ({ t with
      focus := .none
      issued := false } : State).usePipe w.core (phaseOf n) (laneCycles i) with
      turn := 0
      phase := if (t.party? w.core).any (fun q => q.status == .halting) then 31 else 1 <<< n }) ∧
  (∀ (s t : State) (core : Nat) (p : Party) (i : Instr),
    s.pend = 0 → s.turn = 0 → s.phase = 15 → s.parties = [(core, p)] → p.status = .running →
    (p.seq.state = .running ∨ p.seq.state = .waiting) → p.seq.hold.onOp = false →
    s.instrAt core p.root p.priv p.seq.pc = some i →
    exec i { s with
      focus := .sequencer core
      issued := false } = .next t → t.issued = true →
    step s = .next { t with
      focus := .none
      issued := false
      turn := 0
      phase := 31 }) ∧
  (∀ (s : State) (i : Instr) (rest : List Instr) (n : Nat) (later : List Nat), s.pend ≠ 0 → s.sched = n :: later →
    n % (s.pend + 1) < s.pend → takeAt s.agenda (n % (s.pend + 1)) = some (i, rest) → s.evicts = [] →
    step s = exec i { s with
      sched := later
      agenda := rest
      pend := s.pend - 1
      focus := .none })

-- encodings (R70, R83, R85, R86, R91, R93, R94)

/-- R70, R83, R85, R86, R93, R94: words written out from the rulers and the opcode maps decode to the instructions that they stand for. -/
def Obligations.WordsOfTheSpecDecode : Prop :=
  decodeWords 0b0_00000001_0000011_0000100_0000101_00 0 = .instr (.vadd ⟨3, 4, 5, false, false⟩) ∧
  decodeWords 0b1_0000000_1011011_1011100_1011101_001 0 = .instr (.sadd ⟨91, 92, 93, false, false, true⟩) ∧
  decodeWords 0b1_1000000_10001_0000000000000000110 0 = .instr (.br ⟨17, 6⟩) ∧
  decodeWords 0b1_1000110_011_000000000000000000101 0 = .instr (.split ⟨3, 5⟩) ∧
  decodeWords 0b1_0101010_00110_0_10_1010101111001101 0 = .instr (.slimz ⟨6, false, 2, 0xABCD⟩) ∧
  decodeWords 0b0_00000000_00000000000000000000000 0 = .illegalOpcode ∧
  decodeWords 0b0_00011011_0000011_0000100_0000101_00 0 = .reservedField

/-- R70, R83-R94: DECODE OF ENCODE IS THE INSTRUCTION: every instruction that the maps encode, with every operand at every value, is read
back from its bytes, and the bytes after it are left. -/
def Obligations.DecodeReadsWhatEncodeWrites : Prop :=
  ∀ (i : Instr) (rest : List Byte), isEncoded i = true → reservedOk i = true →
    decodeBytes (encodeBytes i ++ rest) = some (.instr i, rest)

/-- R70, R83-R94: no word stands for two instructions and no bit is dropped: an instruction that is read from words encodes to those
words. -/
def Obligations.EncodeWritesWhatDecodeRead : Prop :=
  ∀ (w v : Word) (i : Instr), decodeWords w v = .instr i → encode i = if isLong w then [w, v] else [w]

-- whole machine

/-- The events that the agenda may hold: what the opcode table lists as steps of no slot. -/
def Sys2Proof.Claims.agendaEvent (i : Instr) : Bool :=
  !isEncoded i && (match i with
    | .illegalOpcode _ | .reservedField _ | .instructionFetchFault _ | .rngseedWrite _ | .barcfgWrite _ | .scopeWrite _ | .wpctlWrite _ =>
      false
    | _ => true)

/-- NO STEP STOPS: from every state whose agenda holds events alone, the step answers a next state: no fault, no refusal (R1, R3). -/
def Obligations.NoStepStops : Prop :=
  ∀ s : State, (∀ i ∈ s.agenda, Claims.agendaEvent i = true) → ∃ t, step s = .next t

/-- EVERY STEP KEEPS the canonical form of memory, of the tags, of the poison marks and of POOLMAP: equal contents are equal data. -/
def Obligations.EveryStepKeepsTheMaps : Prop :=
  ∀ s t : State, s.mapsOk = true → step s = .next t → t.mapsOk = true
end

