-- ==== Sys2Proof/Laws/Dispatch.lean ====
section
/-!
SUPPORT. Laws/Dispatch.lean: what exec of each constructor is, so that no proof unfolds exec.
-/

namespace Sys2Proof.Machine

@[simp] theorem exec_packageColdReset (o : PkgRef) (s : State) : exec (.packageColdReset o) s = execPackageColdReset o s := rfl
@[simp] theorem exec_illegalOpcode (o : Words) (s : State) : exec (.illegalOpcode o) s = execIllegalOpcode o s := rfl
@[simp] theorem exec_sleepExpiry (o : SlotRef) (s : State) : exec (.sleepExpiry o) s = execSleepExpiry o s := rfl
@[simp] theorem exec_rngseedWrite (o : SysValue) (s : State) : exec (.rngseedWrite o) s = execRngseedWrite o s := rfl
@[simp] theorem exec_barcfgWrite (o : SysValue) (s : State) : exec (.barcfgWrite o) s = execBarcfgWrite o s := rfl
@[simp] theorem exec_scopeWrite (o : SysValue) (s : State) : exec (.scopeWrite o) s = execScopeWrite o s := rfl
@[simp] theorem exec_wpctlWrite (o : SysValue) (s : State) : exec (.wpctlWrite o) s = execWpctlWrite o s := rfl
@[simp] theorem exec_matrixOpComplete (o : CoreItem) (s : State) : exec (.matrixOpComplete o) s = execMatrixOpComplete o s := rfl
@[simp] theorem exec_producerWriteback (o : CoreItem) (s : State) : exec (.producerWriteback o) s = execProducerWriteback o s := rfl
@[simp] theorem exec_trapDelivery (o : StrandRef) (s : State) : exec (.trapDelivery o) s = execTrapDelivery o s := rfl
@[simp] theorem exec_partyHalt (o : CoreRef) (s : State) : exec (.partyHalt o) s = execPartyHalt o s := rfl
@[simp] theorem exec_debugHalt (o : HaltReq) (s : State) : exec (.debugHalt o) s = execDebugHalt o s := rfl
@[simp] theorem exec_partyEnd (o : CoreRef) (s : State) : exec (.partyEnd o) s = execPartyEnd o s := rfl
@[simp] theorem exec_partySave (o : CoreRef) (s : State) : exec (.partySave o) s = execPartySave o s := rfl
@[simp] theorem exec_pageWalk (o : WalkReq) (s : State) : exec (.pageWalk o) s = execPageWalk o s := rfl
@[simp] theorem exec_faultService (o : FaultReq) (s : State) : exec (.faultService o) s = execFaultService o s := rfl
@[simp] theorem exec_faultTimeout (o : FaultRef) (s : State) : exec (.faultTimeout o) s = execFaultTimeout o s := rfl
@[simp] theorem exec_readRequest (o : ReadReq) (s : State) : exec (.readRequest o) s = execReadRequest o s := rfl
@[simp] theorem exec_readResponse (o : ReadResp) (s : State) : exec (.readResponse o) s = execReadResponse o s := rfl
@[simp] theorem exec_storeDrain (o : CoreItem) (s : State) : exec (.storeDrain o) s = execStoreDrain o s := rfl
@[simp] theorem exec_homeStore (o : StoreMsg) (s : State) : exec (.homeStore o) s = execHomeStore o s := rfl
@[simp] theorem exec_storeAcknowledgement (o : StoreAck) (s : State) : exec (.storeAcknowledgement o) s = execStoreAcknowledgement o s := rfl
@[simp] theorem exec_atomicRequest (o : AtomMsg) (s : State) : exec (.atomicRequest o) s = execAtomicRequest o s := rfl
@[simp] theorem exec_atomicResponse (o : AtomResp) (s : State) : exec (.atomicResponse o) s = execAtomicResponse o s := rfl
@[simp] theorem exec_addDrainLine (o : DrainLine) (s : State) : exec (.addDrainLine o) s = execAddDrainLine o s := rfl
@[simp] theorem exec_transactionCommitStep (o : CommitStep) (s : State) : exec (.transactionCommitStep o) s = execTransactionCommitStep o s := rfl
@[simp] theorem exec_coreBackedAccess (o : CoreBacked) (s : State) : exec (.coreBackedAccess o) s = execCoreBackedAccess o s := rfl
@[simp] theorem exec_poisonDetect (o : EccError) (s : State) : exec (.poisonDetect o) s = execPoisonDetect o s := rfl
@[simp] theorem exec_driftTick (o : CoreRef) (s : State) : exec (.driftTick o) s = execDriftTick o s := rfl
@[simp] theorem exec_rebase (o : PkgRef) (s : State) : exec (.rebase o) s = execRebase o s := rfl
@[simp] theorem exec_rebaseSweep (o : SweepReq) (s : State) : exec (.rebaseSweep o) s = execRebaseSweep o s := rfl
@[simp] theorem exec_segmentLand (o : SegRef) (s : State) : exec (.segmentLand o) s = execSegmentLand o s := rfl
@[simp] theorem exec_segmentFail (o : SegFail) (s : State) : exec (.segmentFail o) s = execSegmentFail o s := rfl
@[simp] theorem exec_copyCompletion (o : CoreItem) (s : State) : exec (.copyCompletion o) s = execCopyCompletion o s := rfl
@[simp] theorem exec_anchorCountEvent (o : CountEvent) (s : State) : exec (.anchorCountEvent o) s = execAnchorCountEvent o s := rfl
@[simp] theorem exec_thermalHoldEnter (o : ThermalRef) (s : State) : exec (.thermalHoldEnter o) s = execThermalHoldEnter o s := rfl
@[simp] theorem exec_thermalHoldEnd (o : ThermalRef) (s : State) : exec (.thermalHoldEnd o) s = execThermalHoldEnd o s := rfl
@[simp] theorem exec_droopEvent (o : CoreRef) (s : State) : exec (.droopEvent o) s = execDroopEvent o s := rfl
@[simp] theorem exec_binTimerExpiry (o : BinRef) (s : State) : exec (.binTimerExpiry o) s = execBinTimerExpiry o s := rfl
@[simp] theorem exec_hashedSteal (o : GridPkg) (s : State) : exec (.hashedSteal o) s = execHashedSteal o s := rfl
@[simp] theorem exec_packetAccept (o : PacketRef) (s : State) : exec (.packetAccept o) s = execPacketAccept o s := rfl
@[simp] theorem exec_collectivePacket (o : PacketRef) (s : State) : exec (.collectivePacket o) s = execCollectivePacket o s := rfl
@[simp] theorem exec_packetApply (o : PacketRef) (s : State) : exec (.packetApply o) s = execPacketApply o s := rfl
@[simp] theorem exec_packetOutcome (o : PacketRef) (s : State) : exec (.packetOutcome o) s = execPacketOutcome o s := rfl
@[simp] theorem exec_outcomeQueryTimer (o : OutcomeQuery) (s : State) : exec (.outcomeQueryTimer o) s = execOutcomeQueryTimer o s := rfl
@[simp] theorem exec_flitReceive (o : FlitRecv) (s : State) : exec (.flitReceive o) s = execFlitReceive o s := rfl
@[simp] theorem exec_ackTimeout (o : LinkRef) (s : State) : exec (.ackTimeout o) s = execAckTimeout o s := rfl
@[simp] theorem exec_moduleCheckEnd (o : ModuleCheck) (s : State) : exec (.moduleCheckEnd o) s = execModuleCheckEnd o s := rfl
@[simp] theorem exec_heartbeat (o : Heartbeat) (s : State) : exec (.heartbeat o) s = execHeartbeat o s := rfl
@[simp] theorem exec_dieAdoption (o : DieRef) (s : State) : exec (.dieAdoption o) s = execDieAdoption o s := rfl
@[simp] theorem exec_roleTakeover (o : RoleRef) (s : State) : exec (.roleTakeover o) s = execRoleTakeover o s := rfl
@[simp] theorem exec_powerCapCheck (o : PowerSample) (s : State) : exec (.powerCapCheck o) s = execPowerCapCheck o s := rfl
@[simp] theorem exec_nopCommand (o : Cmd) (s : State) : exec (.nopCommand o) s = execNopCommand o s := rfl
@[simp] theorem exec_launch (o : Cmd) (s : State) : exec (.launch o) s = execLaunch o s := rfl
@[simp] theorem exec_preempt (o : Cmd) (s : State) : exec (.preempt o) s = execPreempt o s := rfl
@[simp] theorem exec_resume (o : Cmd) (s : State) : exec (.resume o) s = execResume o s := rfl
@[simp] theorem exec_semsig (o : Cmd) (s : State) : exec (.semsig o) s = execSemsig o s := rfl
@[simp] theorem exec_semwait (o : Cmd) (s : State) : exec (.semwait o) s = execSemwait o s := rfl
@[simp] theorem exec_ibuf (o : Cmd) (s : State) : exec (.ibuf o) s = execIbuf o s := rfl
@[simp] theorem exec_mapupdate (o : Cmd) (s : State) : exec (.mapupdate o) s = execMapupdate o s := rfl
@[simp] theorem exec_hostcopy (o : Cmd) (s : State) : exec (.hostcopy o) s = execHostcopy o s := rfl
@[simp] theorem exec_timestamp (o : Cmd) (s : State) : exec (.timestamp o) s = execTimestamp o s := rfl
@[simp] theorem exec_debugCmd (o : Cmd) (s : State) : exec (.debugCmd o) s = execDebugCmd o s := rfl
@[simp] theorem exec_commandCompletion (o : CmdResult) (s : State) : exec (.commandCompletion o) s = execCommandCompletion o s := rfl
@[simp] theorem exec_qtailWrite (o : RegWrite) (s : State) : exec (.qtailWrite o) s = execQtailWrite o s := rfl
@[simp] theorem exec_qbaseWrite (o : RegWrite) (s : State) : exec (.qbaseWrite o) s = execQbaseWrite o s := rfl
@[simp] theorem exec_qctlEn (o : RegWrite) (s : State) : exec (.qctlEn o) s = execQctlEn o s := rfl
@[simp] theorem exec_qctlSkip (o : RegWrite) (s : State) : exec (.qctlSkip o) s = execQctlSkip o s := rfl
@[simp] theorem exec_cqheadWrite (o : RegWrite) (s : State) : exec (.cqheadWrite o) s = execCqheadWrite o s := rfl
@[simp] theorem exec_fqheadWrite (o : RegWrite) (s : State) : exec (.fqheadWrite o) s = execFqheadWrite o s := rfl
@[simp] theorem exec_cohparamWrite (o : RegWrite) (s : State) : exec (.cohparamWrite o) s = execCohparamWrite o s := rfl
@[simp] theorem exec_holdWrite (o : RegWrite) (s : State) : exec (.holdWrite o) s = execHoldWrite o s := rfl
@[simp] theorem exec_registerWrite (o : RegWrite) (s : State) : exec (.registerWrite o) s = execRegisterWrite o s := rfl
@[simp] theorem exec_claim (o : MailReq) (s : State) : exec (.claim o) s = execClaim o s := rfl
@[simp] theorem exec_claimWindowExpiry (s : State) : exec .claimWindowExpiry s = execClaimWindowExpiry s := rfl
@[simp] theorem exec_ownerLinkTimeout (s : State) : exec .ownerLinkTimeout s = execOwnerLinkTimeout s := rfl
@[simp] theorem exec_handover (o : MailReq) (s : State) : exec (.handover o) s = execHandover o s := rfl
@[simp] theorem exec_releaseOwner (o : MailReq) (s : State) : exec (.releaseOwner o) s = execReleaseOwner o s := rfl
@[simp] theorem exec_loadFw (o : MailReq) (s : State) : exec (.loadFw o) s = execLoadFw o s := rfl
@[simp] theorem exec_stageFw (o : MailReq) (s : State) : exec (.stageFw o) s = execStageFw o s := rfl
@[simp] theorem exec_switchFw (o : MailReq) (s : State) : exec (.switchFw o) s = execSwitchFw o s := rfl
@[simp] theorem exec_attest (o : MailReq) (s : State) : exec (.attest o) s = execAttest o s := rfl
@[simp] theorem exec_retrain (o : MailReq) (s : State) : exec (.retrain o) s = execRetrain o s := rfl
@[simp] theorem exec_hostMemoryAccess (o : HostAccess) (s : State) : exec (.hostMemoryAccess o) s = execHostMemoryAccess o s := rfl
@[simp] theorem exec_instructionFetchFault (o : FetchFault) (s : State) : exec (.instructionFetchFault o) s = execInstructionFetchFault o s := rfl
@[simp] theorem exec_reservedField (o : Words) (s : State) : exec (.reservedField o) s = execReservedField o s := rfl
@[simp] theorem exec_flitStart (o : LinkRef) (s : State) : exec (.flitStart o) s = execFlitStart o s := rfl
@[simp] theorem exec_hostLinkChange (o : LinkChange) (s : State) : exec (.hostLinkChange o) s = execHostLinkChange o s := rfl
@[simp] theorem exec_sensorRefresh (o : SensorSample) (s : State) : exec (.sensorRefresh o) s = execSensorRefresh o s := rfl
@[simp] theorem exec_ldb (o : LM) (s : State) : exec (.ldb o) s = execLdb o s := rfl
@[simp] theorem exec_ldbs (o : LM) (s : State) : exec (.ldbs o) s = execLdbs o s := rfl
@[simp] theorem exec_ldh (o : LM) (s : State) : exec (.ldh o) s = execLdh o s := rfl
@[simp] theorem exec_ldhs (o : LM) (s : State) : exec (.ldhs o) s = execLdhs o s := rfl
@[simp] theorem exec_ldw (o : LM) (s : State) : exec (.ldw o) s = execLdw o s := rfl
@[simp] theorem exec_ldd (o : LM) (s : State) : exec (.ldd o) s = execLdd o s := rfl
@[simp] theorem exec_ldq (o : LM) (s : State) : exec (.ldq o) s = execLdq o s := rfl
@[simp] theorem exec_stb (o : LM) (s : State) : exec (.stb o) s = execStb o s := rfl
@[simp] theorem exec_sth (o : LM) (s : State) : exec (.sth o) s = execSth o s := rfl
@[simp] theorem exec_stw (o : LM) (s : State) : exec (.stw o) s = execStw o s := rfl
@[simp] theorem exec_std (o : LM) (s : State) : exec (.std o) s = execStd o s := rfl
@[simp] theorem exec_stq (o : LM) (s : State) : exec (.stq o) s = execStq o s := rfl
@[simp] theorem exec_tagst (o : LM) (s : State) : exec (.tagst o) s = execTagst o s := rfl
@[simp] theorem exec_tagld (o : LM) (s : State) : exec (.tagld o) s = execTagld o s := rfl
@[simp] theorem exec_cpw (o : LM) (s : State) : exec (.cpw o) s = execCpw o s := rfl
@[simp] theorem exec_cpd (o : LM) (s : State) : exec (.cpd o) s = execCpd o s := rfl
@[simp] theorem exec_cpq (o : LM) (s : State) : exec (.cpq o) s = execCpq o s := rfl
@[simp] theorem exec_cpws (o : LM) (s : State) : exec (.cpws o) s = execCpws o s := rfl
@[simp] theorem exec_cpds (o : LM) (s : State) : exec (.cpds o) s = execCpds o s := rfl
@[simp] theorem exec_cpqs (o : LM) (s : State) : exec (.cpqs o) s = execCpqs o s := rfl
@[simp] theorem exec_tbegin (o : LR) (s : State) : exec (.tbegin o) s = execTbegin o s := rfl
@[simp] theorem exec_tcommit (o : LC) (s : State) : exec (.tcommit o) s = execTcommit o s := rfl
@[simp] theorem exec_tcancel (o : LR) (s : State) : exec (.tcancel o) s = execTcancel o s := rfl
@[simp] theorem exec_atom (o : LL) (s : State) : exec (.atom o) s = execAtom o s := rfl
@[simp] theorem exec_ldo (o : LL) (s : State) : exec (.ldo o) s = execLdo o s := rfl
@[simp] theorem exec_sto (o : LL) (s : State) : exec (.sto o) s = execSto o s := rfl
@[simp] theorem exec_cprow (o : LL) (s : State) : exec (.cprow o) s = execCprow o s := rfl
@[simp] theorem exec_xput (o : LL) (s : State) : exec (.xput o) s = execXput o s := rfl
@[simp] theorem exec_xget (o : LL) (s : State) : exec (.xget o) s = execXget o s := rfl
@[simp] theorem exec_xred (o : LL) (s : State) : exec (.xred o) s = execXred o s := rfl
@[simp] theorem exec_xamo (o : LL) (s : State) : exec (.xamo o) s = execXamo o s := rfl
@[simp] theorem exec_xsig (o : LL) (s : State) : exec (.xsig o) s = execXsig o s := rfl
@[simp] theorem exec_emit (o : LL) (s : State) : exec (.emit o) s = execEmit o s := rfl
@[simp] theorem exec_sadd (o : UR) (s : State) : exec (.sadd o) s = execSadd o s := rfl
@[simp] theorem exec_ssub (o : UR) (s : State) : exec (.ssub o) s = execSsub o s := rfl
@[simp] theorem exec_smul (o : UR) (s : State) : exec (.smul o) s = execSmul o s := rfl
@[simp] theorem exec_smulh (o : UR) (s : State) : exec (.smulh o) s = execSmulh o s := rfl
@[simp] theorem exec_smulhn (o : UR) (s : State) : exec (.smulhn o) s = execSmulhn o s := rfl
@[simp] theorem exec_sdiv (o : UR) (s : State) : exec (.sdiv o) s = execSdiv o s := rfl
@[simp] theorem exec_sdivn (o : UR) (s : State) : exec (.sdivn o) s = execSdivn o s := rfl
@[simp] theorem exec_srem (o : UR) (s : State) : exec (.srem o) s = execSrem o s := rfl
@[simp] theorem exec_sremn (o : UR) (s : State) : exec (.sremn o) s = execSremn o s := rfl
@[simp] theorem exec_sand (o : UR) (s : State) : exec (.sand o) s = execSand o s := rfl
@[simp] theorem exec_sor (o : UR) (s : State) : exec (.sor o) s = execSor o s := rfl
@[simp] theorem exec_sxor (o : UR) (s : State) : exec (.sxor o) s = execSxor o s := rfl
@[simp] theorem exec_sandn (o : UR) (s : State) : exec (.sandn o) s = execSandn o s := rfl
@[simp] theorem exec_sshl (o : UR) (s : State) : exec (.sshl o) s = execSshl o s := rfl
@[simp] theorem exec_sshr (o : UR) (s : State) : exec (.sshr o) s = execSshr o s := rfl
@[simp] theorem exec_ssar (o : UR) (s : State) : exec (.ssar o) s = execSsar o s := rfl
@[simp] theorem exec_smin (o : UR) (s : State) : exec (.smin o) s = execSmin o s := rfl
@[simp] theorem exec_smax (o : UR) (s : State) : exec (.smax o) s = execSmax o s := rfl
@[simp] theorem exec_sminn (o : UR) (s : State) : exec (.sminn o) s = execSminn o s := rfl
@[simp] theorem exec_smaxn (o : UR) (s : State) : exec (.smaxn o) s = execSmaxn o s := rfl
@[simp] theorem exec_sclz (o : UR) (s : State) : exec (.sclz o) s = execSclz o s := rfl
@[simp] theorem exec_spop (o : UR) (s : State) : exec (.spop o) s = execSpop o s := rfl
@[simp] theorem exec_sbfx (o : UR) (s : State) : exec (.sbfx o) s = execSbfx o s := rfl
@[simp] theorem exec_sbfi (o : UR) (s : State) : exec (.sbfi o) s = execSbfi o s := rfl
@[simp] theorem exec_scmp (o : UR) (s : State) : exec (.scmp o) s = execScmp o s := rfl
@[simp] theorem exec_ssel (o : UR) (s : State) : exec (.ssel o) s = execSsel o s := rfl
@[simp] theorem exec_smov (o : UR) (s : State) : exec (.smov o) s = execSmov o s := rfl
@[simp] theorem exec_srot (o : UR) (s : State) : exec (.srot o) s = execSrot o s := rfl
@[simp] theorem exec_saddi (o : UI) (s : State) : exec (.saddi o) s = execSaddi o s := rfl
@[simp] theorem exec_sandi (o : UI) (s : State) : exec (.sandi o) s = execSandi o s := rfl
@[simp] theorem exec_sori (o : UI) (s : State) : exec (.sori o) s = execSori o s := rfl
@[simp] theorem exec_sxori (o : UI) (s : State) : exec (.sxori o) s = execSxori o s := rfl
@[simp] theorem exec_sshli (o : UI) (s : State) : exec (.sshli o) s = execSshli o s := rfl
@[simp] theorem exec_sshri (o : UI) (s : State) : exec (.sshri o) s = execSshri o s := rfl
@[simp] theorem exec_ssari (o : UI) (s : State) : exec (.ssari o) s = execSsari o s := rfl
@[simp] theorem exec_scmpi (o : UI) (s : State) : exec (.scmpi o) s = execScmpi o s := rfl
@[simp] theorem exec_smuli (o : UI) (s : State) : exec (.smuli o) s = execSmuli o s := rfl
@[simp] theorem exec_scset (o : UI) (s : State) : exec (.scset o) s = execScset o s := rfl
@[simp] theorem exec_slimz (o : UK) (s : State) : exec (.slimz o) s = execSlimz o s := rfl
@[simp] theorem exec_slimk (o : UK) (s : State) : exec (.slimk o) s = execSlimk o s := rfl
@[simp] theorem exec_sldw (o : UI) (s : State) : exec (.sldw o) s = execSldw o s := rfl
@[simp] theorem exec_sldd (o : UI) (s : State) : exec (.sldd o) s = execSldd o s := rfl
@[simp] theorem exec_sstw (o : UI) (s : State) : exec (.sstw o) s = execSstw o s := rfl
@[simp] theorem exec_sstd (o : UI) (s : State) : exec (.sstd o) s = execSstd o s := rfl
@[simp] theorem exec_mand (o : UR) (s : State) : exec (.mand o) s = execMand o s := rfl
@[simp] theorem exec_mor (o : UR) (s : State) : exec (.mor o) s = execMor o s := rfl
@[simp] theorem exec_mxor (o : UR) (s : State) : exec (.mxor o) s = execMxor o s := rfl
@[simp] theorem exec_mandn (o : UR) (s : State) : exec (.mandn o) s = execMandn o s := rfl
@[simp] theorem exec_mnot (o : UR) (s : State) : exec (.mnot o) s = execMnot o s := rfl
@[simp] theorem exec_mpop (o : UR) (s : State) : exec (.mpop o) s = execMpop o s := rfl
@[simp] theorem exec_mffs (o : UR) (s : State) : exec (.mffs o) s = execMffs o s := rfl
@[simp] theorem exec_mtest (o : UR) (s : State) : exec (.mtest o) s = execMtest o s := rfl
@[simp] theorem exec_br (o : UB) (s : State) : exec (.br o) s = execBr o s := rfl
@[simp] theorem exec_jmp (o : UJ) (s : State) : exec (.jmp o) s = execJmp o s := rfl
@[simp] theorem exec_call (o : UJ) (s : State) : exec (.call o) s = execCall o s := rfl
@[simp] theorem exec_jmpr (o : UR) (s : State) : exec (.jmpr o) s = execJmpr o s := rfl
@[simp] theorem exec_callr (o : UR) (s : State) : exec (.callr o) s = execCallr o s := rfl
@[simp] theorem exec_ret (o : UR) (s : State) : exec (.ret o) s = execRet o s := rfl
@[simp] theorem exec_split (o : US) (s : State) : exec (.split o) s = execSplit o s := rfl
@[simp] theorem exec_join (o : UJ) (s : State) : exec (.join o) s = execJoin o s := rfl
@[simp] theorem exec_bar (o : UI) (s : State) : exec (.bar o) s = execBar o s := rfl
@[simp] theorem exec_waitp (o : UR) (s : State) : exec (.waitp o) s = execWaitp o s := rfl
@[simp] theorem exec_pclose (o : UR) (s : State) : exec (.pclose o) s = execPclose o s := rfl
@[simp] theorem exec_anset (o : UR) (s : State) : exec (.anset o) s = execAnset o s := rfl
@[simp] theorem exec_anwait (o : UR) (s : State) : exec (.anwait o) s = execAnwait o s := rfl
@[simp] theorem exec_anarr (o : UR) (s : State) : exec (.anarr o) s = execAnarr o s := rfl
@[simp] theorem exec_aninit (o : UR) (s : State) : exec (.aninit o) s = execAninit o s := rfl
@[simp] theorem exec_anexp (o : UR) (s : State) : exec (.anexp o) s = execAnexp o s := rfl
@[simp] theorem exec_fence (o : UI) (s : State) : exec (.fence o) s = execFence o s := rfl
@[simp] theorem exec_sleep (o : UI) (s : State) : exec (.sleep o) s = execSleep o s := rfl
@[simp] theorem exec_yield (o : UJ) (s : State) : exec (.yield o) s = execYield o s := rfl
@[simp] theorem exec_nop (o : UJ) (s : State) : exec (.nop o) s = execNop o s := rfl
@[simp] theorem exec_waitf (o : UR) (s : State) : exec (.waitf o) s = execWaitf o s := rfl
@[simp] theorem exec_fetch (o : UR) (s : State) : exec (.fetch o) s = execFetch o s := rfl
@[simp] theorem exec_fetchb (o : UR) (s : State) : exec (.fetchb o) s = execFetchb o s := rfl
@[simp] theorem exec_wdone (o : UR) (s : State) : exec (.wdone o) s = execWdone o s := rfl
@[simp] theorem exec_sysrd (o : UI) (s : State) : exec (.sysrd o) s = execSysrd o s := rfl
@[simp] theorem exec_syswr (o : UI) (s : State) : exec (.syswr o) s = execSyswr o s := rfl
@[simp] theorem exec_trap (o : UI) (s : State) : exec (.trap o) s = execTrap o s := rfl
@[simp] theorem exec_eret (o : UJ) (s : State) : exec (.eret o) s = execEret o s := rfl
@[simp] theorem exec_brk (o : UI) (s : State) : exec (.brk o) s = execBrk o s := rfl
@[simp] theorem exec_clkrd (o : UR) (s : State) : exec (.clkrd o) s = execClkrd o s := rfl
@[simp] theorem exec_endStrand (o : UJ) (s : State) : exec (.endStrand o) s = execEndStrand o s := rfl
@[simp] theorem exec_kadd (o : UR) (s : State) : exec (.kadd o) s = execKadd o s := rfl
@[simp] theorem exec_kaddi (o : UI) (s : State) : exec (.kaddi o) s = execKaddi o s := rfl
@[simp] theorem exec_klim (o : UI) (s : State) : exec (.klim o) s = execKlim o s := rfl
@[simp] theorem exec_kloop (o : UI) (s : State) : exec (.kloop o) s = execKloop o s := rfl
@[simp] theorem exec_kbar (o : UI) (s : State) : exec (.kbar o) s = execKbar o s := rfl
@[simp] theorem exec_tzero (o : UI) (s : State) : exec (.tzero o) s = execTzero o s := rfl
@[simp] theorem exec_mfence (o : UJ) (s : State) : exec (.mfence o) s = execMfence o s := rfl
@[simp] theorem exec_mend (o : UJ) (s : State) : exec (.mend o) s = execMend o s := rfl
@[simp] theorem exec_cpbox (o : UL) (s : State) : exec (.cpbox o) s = execCpbox o s := rfl
@[simp] theorem exec_txa (o : UL) (s : State) : exec (.txa o) s = execTxa o s := rfl
@[simp] theorem exec_xflow (o : UL) (s : State) : exec (.xflow o) s = execXflow o s := rfl
@[simp] theorem exec_mstart (o : UL) (s : State) : exec (.mstart o) s = execMstart o s := rfl
@[simp] theorem exec_xabort (o : UL) (s : State) : exec (.xabort o) s = execXabort o s := rfl
@[simp] theorem exec_tagfill (o : UL) (s : State) : exec (.tagfill o) s = execTagfill o s := rfl
@[simp] theorem exec_tcfg (o : UL) (s : State) : exec (.tcfg o) s = execTcfg o s := rfl
@[simp] theorem exec_wload (o : UL) (s : State) : exec (.wload o) s = execWload o s := rfl
@[simp] theorem exec_mma (o : UL) (s : State) : exec (.mma o) s = execMma o s := rfl
@[simp] theorem exec_mmar (o : UL) (s : State) : exec (.mmar o) s = execMmar o s := rfl
@[simp] theorem exec_drain (o : UL) (s : State) : exec (.drain o) s = execDrain o s := rfl
@[simp] theorem exec_tload (o : UL) (s : State) : exec (.tload o) s = execTload o s := rfl
@[simp] theorem exec_vadd (o : LR) (s : State) : exec (.vadd o) s = execVadd o s := rfl
@[simp] theorem exec_vsub (o : LR) (s : State) : exec (.vsub o) s = execVsub o s := rfl
@[simp] theorem exec_vadds (o : LR) (s : State) : exec (.vadds o) s = execVadds o s := rfl
@[simp] theorem exec_vsubs (o : LR) (s : State) : exec (.vsubs o) s = execVsubs o s := rfl
@[simp] theorem exec_vaddsn (o : LR) (s : State) : exec (.vaddsn o) s = execVaddsn o s := rfl
@[simp] theorem exec_vsubsn (o : LR) (s : State) : exec (.vsubsn o) s = execVsubsn o s := rfl
@[simp] theorem exec_vmul (o : LR) (s : State) : exec (.vmul o) s = execVmul o s := rfl
@[simp] theorem exec_vmulh (o : LR) (s : State) : exec (.vmulh o) s = execVmulh o s := rfl
@[simp] theorem exec_vmulhn (o : LR) (s : State) : exec (.vmulhn o) s = execVmulhn o s := rfl
@[simp] theorem exec_vmad (o : LR) (s : State) : exec (.vmad o) s = execVmad o s := rfl
@[simp] theorem exec_vdiv (o : LR) (s : State) : exec (.vdiv o) s = execVdiv o s := rfl
@[simp] theorem exec_vdivn (o : LR) (s : State) : exec (.vdivn o) s = execVdivn o s := rfl
@[simp] theorem exec_vrem (o : LR) (s : State) : exec (.vrem o) s = execVrem o s := rfl
@[simp] theorem exec_vremn (o : LR) (s : State) : exec (.vremn o) s = execVremn o s := rfl
@[simp] theorem exec_vmin (o : LR) (s : State) : exec (.vmin o) s = execVmin o s := rfl
@[simp] theorem exec_vmax (o : LR) (s : State) : exec (.vmax o) s = execVmax o s := rfl
@[simp] theorem exec_vminn (o : LR) (s : State) : exec (.vminn o) s = execVminn o s := rfl
@[simp] theorem exec_vmaxn (o : LR) (s : State) : exec (.vmaxn o) s = execVmaxn o s := rfl
@[simp] theorem exec_vand (o : LR) (s : State) : exec (.vand o) s = execVand o s := rfl
@[simp] theorem exec_vor (o : LR) (s : State) : exec (.vor o) s = execVor o s := rfl
@[simp] theorem exec_vxor (o : LR) (s : State) : exec (.vxor o) s = execVxor o s := rfl
@[simp] theorem exec_vandn (o : LR) (s : State) : exec (.vandn o) s = execVandn o s := rfl
@[simp] theorem exec_vshl (o : LR) (s : State) : exec (.vshl o) s = execVshl o s := rfl
@[simp] theorem exec_vshr (o : LR) (s : State) : exec (.vshr o) s = execVshr o s := rfl
@[simp] theorem exec_vsar (o : LR) (s : State) : exec (.vsar o) s = execVsar o s := rfl
@[simp] theorem exec_vrot (o : LR) (s : State) : exec (.vrot o) s = execVrot o s := rfl
@[simp] theorem exec_vabs (o : LR) (s : State) : exec (.vabs o) s = execVabs o s := rfl
@[simp] theorem exec_vneg (o : LR) (s : State) : exec (.vneg o) s = execVneg o s := rfl
@[simp] theorem exec_vclz (o : LR) (s : State) : exec (.vclz o) s = execVclz o s := rfl
@[simp] theorem exec_vpop (o : LR) (s : State) : exec (.vpop o) s = execVpop o s := rfl
@[simp] theorem exec_vbrev (o : LR) (s : State) : exec (.vbrev o) s = execVbrev o s := rfl
@[simp] theorem exec_vsel (o : LR) (s : State) : exec (.vsel o) s = execVsel o s := rfl
@[simp] theorem exec_vbfxn (o : LR) (s : State) : exec (.vbfxn o) s = execVbfxn o s := rfl
@[simp] theorem exec_vbfxs (o : LR) (s : State) : exec (.vbfxs o) s = execVbfxs o s := rfl
@[simp] theorem exec_vbfi (o : LR) (s : State) : exec (.vbfi o) s = execVbfi o s := rfl
@[simp] theorem exec_vmov (o : LR) (s : State) : exec (.vmov o) s = execVmov o s := rfl
@[simp] theorem exec_vmrank (o : LR) (s : State) : exec (.vmrank o) s = execVmrank o s := rfl
@[simp] theorem exec_vadd64 (o : LR) (s : State) : exec (.vadd64 o) s = execVadd64 o s := rfl
@[simp] theorem exec_vsub64 (o : LR) (s : State) : exec (.vsub64 o) s = execVsub64 o s := rfl
@[simp] theorem exec_vmul64 (o : LR) (s : State) : exec (.vmul64 o) s = execVmul64 o s := rfl
@[simp] theorem exec_vmulw (o : LR) (s : State) : exec (.vmulw o) s = execVmulw o s := rfl
@[simp] theorem exec_vmulwn (o : LR) (s : State) : exec (.vmulwn o) s = execVmulwn o s := rfl
@[simp] theorem exec_vshl64 (o : LR) (s : State) : exec (.vshl64 o) s = execVshl64 o s := rfl
@[simp] theorem exec_vshr64 (o : LR) (s : State) : exec (.vshr64 o) s = execVshr64 o s := rfl
@[simp] theorem exec_vsar64 (o : LR) (s : State) : exec (.vsar64 o) s = execVsar64 o s := rfl
@[simp] theorem exec_vaddi (o : LI) (s : State) : exec (.vaddi o) s = execVaddi o s := rfl
@[simp] theorem exec_vandi (o : LI) (s : State) : exec (.vandi o) s = execVandi o s := rfl
@[simp] theorem exec_vori (o : LI) (s : State) : exec (.vori o) s = execVori o s := rfl
@[simp] theorem exec_vxori (o : LI) (s : State) : exec (.vxori o) s = execVxori o s := rfl
@[simp] theorem exec_vshli (o : LI) (s : State) : exec (.vshli o) s = execVshli o s := rfl
@[simp] theorem exec_vshri (o : LI) (s : State) : exec (.vshri o) s = execVshri o s := rfl
@[simp] theorem exec_vsari (o : LI) (s : State) : exec (.vsari o) s = execVsari o s := rfl
@[simp] theorem exec_vmuli (o : LI) (s : State) : exec (.vmuli o) s = execVmuli o s := rfl
@[simp] theorem exec_vroti (o : LI) (s : State) : exec (.vroti o) s = execVroti o s := rfl
@[simp] theorem exec_vmovi (o : LI) (s : State) : exec (.vmovi o) s = execVmovi o s := rfl
@[simp] theorem exec_vcmp (o : LC) (s : State) : exec (.vcmp o) s = execVcmp o s := rfl
@[simp] theorem exec_vcmpi (o : LCI) (s : State) : exec (.vcmpi o) s = execVcmpi o s := rfl
@[simp] theorem exec_vcmp64 (o : LC) (s : State) : exec (.vcmp64 o) s = execVcmp64 o s := rfl
@[simp] theorem exec_fcmpF64 (o : LC) (s : State) : exec (.fcmpF64 o) s = execFcmpF64 o s := rfl
@[simp] theorem exec_fcmpF32 (o : LC) (s : State) : exec (.fcmpF32 o) s = execFcmpF32 o s := rfl
@[simp] theorem exec_fcmpF16 (o : LC) (s : State) : exec (.fcmpF16 o) s = execFcmpF16 o s := rfl
@[simp] theorem exec_fcmpB16 (o : LC) (s : State) : exec (.fcmpB16 o) s = execFcmpB16 o s := rfl
@[simp] theorem exec_fclass (o : LCI) (s : State) : exec (.fclass o) s = execFclass o s := rfl
@[simp] theorem exec_vshfl (o : LR) (s : State) : exec (.vshfl o) s = execVshfl o s := rfl
@[simp] theorem exec_vxch (o : LI) (s : State) : exec (.vxch o) s = execVxch o s := rfl
@[simp] theorem exec_vrotl (o : LI) (s : State) : exec (.vrotl o) s = execVrotl o s := rfl
@[simp] theorem exec_vbcast (o : LI) (s : State) : exec (.vbcast o) s = execVbcast o s := rfl
@[simp] theorem exec_vscan (o : LR) (s : State) : exec (.vscan o) s = execVscan o s := rfl
@[simp] theorem exec_vscanx (o : LR) (s : State) : exec (.vscanx o) s = execVscanx o s := rfl
@[simp] theorem exec_vredadd (o : LR) (s : State) : exec (.vredadd o) s = execVredadd o s := rfl
@[simp] theorem exec_vredmin (o : LR) (s : State) : exec (.vredmin o) s = execVredmin o s := rfl
@[simp] theorem exec_vredmax (o : LR) (s : State) : exec (.vredmax o) s = execVredmax o s := rfl
@[simp] theorem exec_vredminn (o : LR) (s : State) : exec (.vredminn o) s = execVredminn o s := rfl
@[simp] theorem exec_vredmaxn (o : LR) (s : State) : exec (.vredmaxn o) s = execVredmaxn o s := rfl
@[simp] theorem exec_vredand (o : LR) (s : State) : exec (.vredand o) s = execVredand o s := rfl
@[simp] theorem exec_vredor (o : LR) (s : State) : exec (.vredor o) s = execVredor o s := rfl
@[simp] theorem exec_vredxor (o : LR) (s : State) : exec (.vredxor o) s = execVredxor o s := rfl
@[simp] theorem exec_fredadd (o : LR) (s : State) : exec (.fredadd o) s = execFredadd o s := rfl
@[simp] theorem exec_faddF64 (o : LR) (s : State) : exec (.faddF64 o) s = execFaddF64 o s := rfl
@[simp] theorem exec_faddF32 (o : LR) (s : State) : exec (.faddF32 o) s = execFaddF32 o s := rfl
@[simp] theorem exec_faddF16 (o : LR) (s : State) : exec (.faddF16 o) s = execFaddF16 o s := rfl
@[simp] theorem exec_faddB16 (o : LR) (s : State) : exec (.faddB16 o) s = execFaddB16 o s := rfl
@[simp] theorem exec_fsubF64 (o : LR) (s : State) : exec (.fsubF64 o) s = execFsubF64 o s := rfl
@[simp] theorem exec_fsubF32 (o : LR) (s : State) : exec (.fsubF32 o) s = execFsubF32 o s := rfl
@[simp] theorem exec_fsubF16 (o : LR) (s : State) : exec (.fsubF16 o) s = execFsubF16 o s := rfl
@[simp] theorem exec_fsubB16 (o : LR) (s : State) : exec (.fsubB16 o) s = execFsubB16 o s := rfl
@[simp] theorem exec_fmulF64 (o : LR) (s : State) : exec (.fmulF64 o) s = execFmulF64 o s := rfl
@[simp] theorem exec_fmulF32 (o : LR) (s : State) : exec (.fmulF32 o) s = execFmulF32 o s := rfl
@[simp] theorem exec_fmulF16 (o : LR) (s : State) : exec (.fmulF16 o) s = execFmulF16 o s := rfl
@[simp] theorem exec_fmulB16 (o : LR) (s : State) : exec (.fmulB16 o) s = execFmulB16 o s := rfl
@[simp] theorem exec_ffmaF64 (o : LR) (s : State) : exec (.ffmaF64 o) s = execFfmaF64 o s := rfl
@[simp] theorem exec_ffmaF32 (o : LR) (s : State) : exec (.ffmaF32 o) s = execFfmaF32 o s := rfl
@[simp] theorem exec_ffmaF16 (o : LR) (s : State) : exec (.ffmaF16 o) s = execFfmaF16 o s := rfl
@[simp] theorem exec_ffmaB16 (o : LR) (s : State) : exec (.ffmaB16 o) s = execFfmaB16 o s := rfl
@[simp] theorem exec_fnmaF64 (o : LR) (s : State) : exec (.fnmaF64 o) s = execFnmaF64 o s := rfl
@[simp] theorem exec_fnmaF32 (o : LR) (s : State) : exec (.fnmaF32 o) s = execFnmaF32 o s := rfl
@[simp] theorem exec_fnmaF16 (o : LR) (s : State) : exec (.fnmaF16 o) s = execFnmaF16 o s := rfl
@[simp] theorem exec_fnmaB16 (o : LR) (s : State) : exec (.fnmaB16 o) s = execFnmaB16 o s := rfl
@[simp] theorem exec_fminF64 (o : LR) (s : State) : exec (.fminF64 o) s = execFminF64 o s := rfl
@[simp] theorem exec_fminF32 (o : LR) (s : State) : exec (.fminF32 o) s = execFminF32 o s := rfl
@[simp] theorem exec_fminF16 (o : LR) (s : State) : exec (.fminF16 o) s = execFminF16 o s := rfl
@[simp] theorem exec_fminB16 (o : LR) (s : State) : exec (.fminB16 o) s = execFminB16 o s := rfl
@[simp] theorem exec_fmaxF64 (o : LR) (s : State) : exec (.fmaxF64 o) s = execFmaxF64 o s := rfl
@[simp] theorem exec_fmaxF32 (o : LR) (s : State) : exec (.fmaxF32 o) s = execFmaxF32 o s := rfl
@[simp] theorem exec_fmaxF16 (o : LR) (s : State) : exec (.fmaxF16 o) s = execFmaxF16 o s := rfl
@[simp] theorem exec_fmaxB16 (o : LR) (s : State) : exec (.fmaxB16 o) s = execFmaxB16 o s := rfl
@[simp] theorem exec_fdivF64 (o : LR) (s : State) : exec (.fdivF64 o) s = execFdivF64 o s := rfl
@[simp] theorem exec_fdivF32 (o : LR) (s : State) : exec (.fdivF32 o) s = execFdivF32 o s := rfl
@[simp] theorem exec_fdivF16 (o : LR) (s : State) : exec (.fdivF16 o) s = execFdivF16 o s := rfl
@[simp] theorem exec_fdivB16 (o : LR) (s : State) : exec (.fdivB16 o) s = execFdivB16 o s := rfl
@[simp] theorem exec_fsqrtF64 (o : LR) (s : State) : exec (.fsqrtF64 o) s = execFsqrtF64 o s := rfl
@[simp] theorem exec_fsqrtF32 (o : LR) (s : State) : exec (.fsqrtF32 o) s = execFsqrtF32 o s := rfl
@[simp] theorem exec_fsqrtF16 (o : LR) (s : State) : exec (.fsqrtF16 o) s = execFsqrtF16 o s := rfl
@[simp] theorem exec_fsqrtB16 (o : LR) (s : State) : exec (.fsqrtB16 o) s = execFsqrtB16 o s := rfl
@[simp] theorem exec_frcp (o : LR) (s : State) : exec (.frcp o) s = execFrcp o s := rfl
@[simp] theorem exec_frsq (o : LR) (s : State) : exec (.frsq o) s = execFrsq o s := rfl
@[simp] theorem exec_fexp2 (o : LR) (s : State) : exec (.fexp2 o) s = execFexp2 o s := rfl
@[simp] theorem exec_flog2 (o : LR) (s : State) : exec (.flog2 o) s = execFlog2 o s := rfl
@[simp] theorem exec_fsin (o : LR) (s : State) : exec (.fsin o) s = execFsin o s := rfl
@[simp] theorem exec_fcos (o : LR) (s : State) : exec (.fcos o) s = execFcos o s := rfl
@[simp] theorem exec_fsincos (o : LR) (s : State) : exec (.fsincos o) s = execFsincos o s := rfl
@[simp] theorem exec_ftanh (o : LR) (s : State) : exec (.ftanh o) s = execFtanh o s := rfl
@[simp] theorem exec_hadd2 (o : LR) (s : State) : exec (.hadd2 o) s = execHadd2 o s := rfl
@[simp] theorem exec_hmul2 (o : LR) (s : State) : exec (.hmul2 o) s = execHmul2 o s := rfl
@[simp] theorem exec_hfma2 (o : LR) (s : State) : exec (.hfma2 o) s = execHfma2 o s := rfl
@[simp] theorem exec_badd2 (o : LR) (s : State) : exec (.badd2 o) s = execBadd2 o s := rfl
@[simp] theorem exec_bmul2 (o : LR) (s : State) : exec (.bmul2 o) s = execBmul2 o s := rfl
@[simp] theorem exec_bfma2 (o : LR) (s : State) : exec (.bfma2 o) s = execBfma2 o s := rfl
@[simp] theorem exec_b2pack (o : LR) (s : State) : exec (.b2pack o) s = execB2pack o s := rfl
@[simp] theorem exec_h2pack (o : LR) (s : State) : exec (.h2pack o) s = execH2pack o s := rfl
@[simp] theorem exec_fcvt (o : LI) (s : State) : exec (.fcvt o) s = execFcvt o s := rfl
@[simp] theorem exec_ncvt (o : LI) (s : State) : exec (.ncvt o) s = execNcvt o s := rfl
@[simp] theorem exec_nexp (o : LI) (s : State) : exec (.nexp o) s = execNexp o s := rfl

end Sys2Proof.Machine
end

