-- ==== Sys2Proof/Laws/Sparse.lean ====
section
/-!
SUPPORT. Laws/Sparse.lean: reading after writing a sparse map, and the canonical form, which every write keeps.
-/

namespace Sys2Proof.Machine

-- keyed records

theorem kget_serase_self {α : Type} (m : List (Nat × α)) (k : Nat) : kget (serase k m) k = none := by
  induction m with
  | nil => rfl
  | cons x t ih =>
    obtain ⟨j, v⟩ := x
    by_cases h : j = k <;> simp [serase, kget, h, ih]

theorem kget_serase_ne {α : Type} (m : List (Nat × α)) {k j : Nat} (h : j ≠ k) : kget (serase k m) j = kget m j := by
  induction m with
  | nil => rfl
  | cons x t ih =>
    obtain ⟨i, v⟩ := x
    by_cases hi : i = k
    · subst hi; simp [serase, kget, ih, Ne.symm h]
    · simp [serase, kget, hi, ih]

theorem kget_sinsert_self {α : Type} (m : List (Nat × α)) (k : Nat) (v : α) (h : kget m k = none) :
    kget (sinsert k v m) k = some v := by
  induction m with
  | nil => simp [sinsert, kget]
  | cons x t ih =>
    obtain ⟨i, w⟩ := x
    by_cases hi : i = k
    · simp [kget, hi] at h
    · simp only [kget, hi, if_false] at h
      by_cases hk : k < i <;> simp [sinsert, kget, hk, hi, ih h]

theorem kget_sinsert_ne {α : Type} (m : List (Nat × α)) (v : α) {k j : Nat} (h : j ≠ k) :
    kget (sinsert k v m) j = kget m j := by
  induction m with
  | nil => simp [sinsert, kget, Ne.symm h]
  | cons x t ih =>
    obtain ⟨i, w⟩ := x
    by_cases hk : k < i <;> simp [sinsert, kget, hk, Ne.symm h, ih]

@[simp] theorem kget_kput_self {α : Type} (m : List (Nat × α)) (k : Nat) (v : α) : kget (kput m k v) k = some v :=
  kget_sinsert_self _ _ _ (kget_serase_self _ _)

theorem kget_kput_ne {α : Type} (m : List (Nat × α)) (v : α) {k j : Nat} (h : j ≠ k) :
    kget (kput m k v) j = kget m j := by
  rw [kput, kget_sinsert_ne _ _ h, kget_serase_ne _ h]

theorem serase_serase {α : Type} (m : List (Nat × α)) (k : Nat) : serase k (serase k m) = serase k m := by
  induction m with
  | nil => rfl
  | cons x t ih =>
    obtain ⟨i, w⟩ := x
    by_cases hi : i = k <;> simp [serase, hi, ih]

theorem serase_sinsert {α : Type} (m : List (Nat × α)) (k : Nat) (v : α) : serase k (sinsert k v m) = serase k m := by
  induction m with
  | nil => simp [sinsert, serase]
  | cons x t ih =>
    obtain ⟨i, w⟩ := x
    by_cases hk : k < i
    · simp [sinsert, serase, hk]
    · by_cases hi : i = k <;> simp [sinsert, serase, hk, hi, ih]

@[simp] theorem kput_kput {α : Type} (m : List (Nat × α)) (k : Nat) (v w : α) : kput (kput m k v) k w = kput m k w := by
  simp [kput, serase_sinsert, serase_serase]

-- maps with a default

theorem sget_serase_self {α : Type} (d : α) (m : Sparse α) (k : Nat) : sget d (serase k m) k = d := by
  induction m with
  | nil => rfl
  | cons x t ih =>
    obtain ⟨j, v⟩ := x
    by_cases h : j = k <;> simp [serase, sget, h, ih]

theorem sget_serase_ne {α : Type} (d : α) (m : Sparse α) {k j : Nat} (h : j ≠ k) :
    sget d (serase k m) j = sget d m j := by
  induction m with
  | nil => rfl
  | cons x t ih =>
    obtain ⟨i, v⟩ := x
    by_cases hi : i = k
    · subst hi; simp [serase, sget, ih, Ne.symm h]
    · simp [serase, sget, hi, ih]

/-- No entry stands at a key. -/
def sfree {α : Type} (k : Nat) (m : Sparse α) : Prop := ∀ x ∈ m, x.1 ≠ k

theorem sfree_serase {α : Type} (k : Nat) (m : Sparse α) : sfree k (serase k m) := by
  induction m with
  | nil => intro x hx; simp [serase] at hx
  | cons y t ih =>
    obtain ⟨i, v⟩ := y
    by_cases hi : i = k
    · simpa [serase, hi] using ih
    · intro x hx
      simp only [serase, hi, if_false, List.mem_cons] at hx
      rcases hx with rfl | hx
      · exact hi
      · exact ih x hx

theorem sget_sinsert_self {α : Type} (d : α) (m : Sparse α) (k : Nat) (v : α) (h : sfree k m) :
    sget d (sinsert k v m) k = v := by
  induction m with
  | nil => simp [sinsert, sget]
  | cons x t ih =>
    obtain ⟨i, w⟩ := x
    have hi : i ≠ k := h (i, w) (by simp)
    have ht : sfree k t := fun y hy => h y (by simp [hy])
    by_cases hk : k < i <;> simp [sinsert, sget, hk, hi, ih ht]

theorem sget_sinsert_ne {α : Type} (d : α) (m : Sparse α) (v : α) {k j : Nat} (h : j ≠ k) :
    sget d (sinsert k v m) j = sget d m j := by
  induction m with
  | nil => simp [sinsert, sget, Ne.symm h]
  | cons x t ih =>
    obtain ⟨i, w⟩ := x
    by_cases hk : k < i <;> simp [sinsert, sget, hk, Ne.symm h, ih]

/-- A read after a write to the same key gives the value written. -/
@[simp] theorem sget_sput_self {α : Type} [DecidableEq α] (d : α) (m : Sparse α) (k : Nat) (v : α) :
    sget d (sput d m k v) k = v := by
  unfold sput
  split
  · next h => rw [sget_serase_self, h]
  · exact sget_sinsert_self _ _ _ _ (sfree_serase _ _)

/-- A write leaves every other key alone. -/
theorem sget_sput_ne {α : Type} [DecidableEq α] (d : α) (m : Sparse α) (v : α) {k j : Nat} (h : j ≠ k) :
    sget d (sput d m k v) j = sget d m j := by
  unfold sput
  split
  · rw [sget_serase_ne _ _ h]
  · rw [sget_sinsert_ne _ _ _ h, sget_serase_ne _ _ h]

theorem sget_sput {α : Type} [DecidableEq α] (d : α) (m : Sparse α) (k j : Nat) (v : α) :
    sget d (sput d m k v) j = if j = k then v else sget d m j := by
  split
  · next h => subst h; simp
  · next h => exact sget_sput_ne d m v h

-- the canonical form

theorem swfFrom_weaken {α : Type} [DecidableEq α] (d : α) (m : Sparse α) {lo hi : Nat} (h : swfFrom d (some hi) m = true)
    (hl : lo ≤ hi) : swfFrom d (some lo) m = true := by
  cases m with
  | nil => rfl
  | cons x t =>
    obtain ⟨k, v⟩ := x
    simp only [swfFrom, Bool.and_eq_true, decide_eq_true_eq] at h ⊢
    exact ⟨⟨by omega, h.1.2⟩, h.2⟩

theorem swfFrom_none {α : Type} [DecidableEq α] (d : α) (m : Sparse α) {lo : Nat} (h : swfFrom d (some lo) m = true) :
    swfFrom d none m = true := by
  cases m with
  | nil => rfl
  | cons x t =>
    obtain ⟨k, v⟩ := x
    simp only [swfFrom, Bool.and_eq_true, Bool.true_and] at h ⊢
    exact ⟨h.1.2, h.2⟩

theorem swfFrom_serase_some {α : Type} [DecidableEq α] (d : α) (k : Nat) (m : Sparse α) :
    ∀ lo : Nat, swfFrom d (some lo) m = true → swfFrom d (some lo) (serase k m) = true := by
  induction m with
  | nil => intro lo h; exact h
  | cons x t ih =>
    intro lo h
    obtain ⟨j, v⟩ := x
    simp only [swfFrom, Bool.and_eq_true, decide_eq_true_eq] at h
    by_cases hj : j = k
    · simp only [serase, hj, if_true]
      exact ih lo (swfFrom_weaken d t h.2 (by omega))
    · simp only [serase, hj, if_false, swfFrom, Bool.and_eq_true, decide_eq_true_eq]
      exact ⟨h.1, ih j h.2⟩

theorem swf_serase {α : Type} [DecidableEq α] (d : α) (k : Nat) (m : Sparse α) (h : swf d m = true) :
    swf d (serase k m) = true := by
  cases m with
  | nil => rfl
  | cons x t =>
    obtain ⟨j, v⟩ := x
    simp only [swf, swfFrom, Bool.true_and, Bool.and_eq_true] at h
    by_cases hj : j = k
    · simp only [serase, hj, if_true, swf]
      exact swfFrom_none d _ (swfFrom_serase_some d k t j h.2)
    · simp only [serase, hj, if_false, swf, swfFrom, Bool.true_and, Bool.and_eq_true]
      exact ⟨h.1, swfFrom_serase_some d k t j h.2⟩

theorem swfFrom_sinsert {α : Type} [DecidableEq α] (d : α) (k : Nat) (v : α) (hv : v ≠ d) (m : Sparse α) :
    ∀ lo : Nat, lo < k → sfree k m → swfFrom d (some lo) m = true → swfFrom d (some lo) (sinsert k v m) = true := by
  induction m with
  | nil => intro lo hl _ _; simp [sinsert, swfFrom, hl, hv]
  | cons x t ih =>
    intro lo hl hf h
    obtain ⟨j, w⟩ := x
    have hj : j ≠ k := hf (j, w) (by simp)
    simp only [swfFrom, Bool.and_eq_true, decide_eq_true_eq] at h
    by_cases hk : k < j
    · simp only [sinsert, hk, if_true, swfFrom, Bool.and_eq_true, decide_eq_true_eq]
      exact ⟨⟨hl, by simp [hv]⟩, ⟨trivial, h.1.2⟩, h.2⟩
    · simp only [sinsert, hk, if_false, swfFrom, Bool.and_eq_true, decide_eq_true_eq]
      exact ⟨h.1, ih j (by omega) (fun y hy => hf y (by simp [hy])) h.2⟩

theorem swf_sinsert {α : Type} [DecidableEq α] (d : α) (k : Nat) (v : α) (hv : v ≠ d) (m : Sparse α) (hf : sfree k m)
    (h : swf d m = true) : swf d (sinsert k v m) = true := by
  cases m with
  | nil => simp [sinsert, swf, swfFrom, hv]
  | cons x t =>
    obtain ⟨j, w⟩ := x
    have hj : j ≠ k := hf (j, w) (by simp)
    simp only [swf, swfFrom, Bool.true_and, Bool.and_eq_true] at h
    by_cases hk : k < j
    · simp only [sinsert, hk, if_true, swf, swfFrom, Bool.true_and, Bool.and_eq_true, decide_eq_true_eq]
      exact ⟨by simp [hv], ⟨trivial, h.1⟩, h.2⟩
    · simp only [sinsert, hk, if_false, swf, swfFrom, Bool.true_and, Bool.and_eq_true]
      exact ⟨h.1, swfFrom_sinsert d k v hv t j (by omega) (fun y hy => hf y (by simp [hy])) h.2⟩

/-- EVERY WRITE KEEPS THE CANONICAL FORM. -/
theorem swf_sput {α : Type} [DecidableEq α] (d : α) (m : Sparse α) (k : Nat) (v : α) (h : swf d m = true) :
    swf d (sput d m k v) = true := by
  unfold sput
  split
  · exact swf_serase d k m h
  · next hv => exact swf_sinsert d k v hv _ (sfree_serase k m) (swf_serase d k m h)

/-- Writes one after another keep it. -/
theorem swf_foldl_sput {α β : Type} [DecidableEq α] (d : α) (key : β → Nat) (val : β → α) (l : List β) :
    ∀ m : Sparse α, swf d m = true → swf d (l.foldl (fun m x => sput d m (key x) (val x)) m) = true := by
  induction l with
  | nil => intro m h; exact h
  | cons x t ih => intro m h; exact ih _ (swf_sput d m _ _ h)

end Sys2Proof.Machine
end

