-- ==== Sys2Proof/Laws/State.lean ====
section
/-!
SUPPORT. Laws/State.lean: what each named update of the state, of a party and of a strand leaves in every field, and the
reads after writes of parties, cores, packages, strands and slots.
-/

namespace Sys2Proof.Machine

-- the state

@[simp] theorem State.setParty_now (s : State) (c : Nat) (p : Party) : (s.setParty c p).now = s.now := rfl
@[simp] theorem State.setParty_agenda (s : State) (c : Nat) (p : Party) : (s.setParty c p).agenda = s.agenda := rfl
@[simp] theorem State.setParty_pend (s : State) (c : Nat) (p : Party) : (s.setParty c p).pend = s.pend := rfl
@[simp] theorem State.setParty_sched (s : State) (c : Nat) (p : Party) : (s.setParty c p).sched = s.sched := rfl
@[simp] theorem State.setParty_evicts (s : State) (c : Nat) (p : Party) : (s.setParty c p).evicts = s.evicts := rfl
@[simp] theorem State.setParty_issued (s : State) (c : Nat) (p : Party) : (s.setParty c p).issued = s.issued := rfl
@[simp] theorem State.setParty_fresh (s : State) (c : Nat) (p : Party) : (s.setParty c p).fresh = s.fresh := rfl
@[simp] theorem State.setParty_nextId (s : State) (c : Nat) (p : Party) : (s.setParty c p).nextId = s.nextId := rfl
@[simp] theorem State.setParty_focus (s : State) (c : Nat) (p : Party) : (s.setParty c p).focus = s.focus := rfl
@[simp] theorem State.setParty_phase (s : State) (c : Nat) (p : Party) : (s.setParty c p).phase = s.phase := rfl
@[simp] theorem State.setParty_turn (s : State) (c : Nat) (p : Party) : (s.setParty c p).turn = s.turn := rfl
@[simp] theorem State.setParty_laneRegs (s : State) (c : Nat) (p : Party) : (s.setParty c p).laneRegs = s.laneRegs := rfl
@[simp] theorem State.setParty_cores (s : State) (c : Nat) (p : Party) : (s.setParty c p).cores = s.cores := rfl
@[simp] theorem State.setParty_mem (s : State) (c : Nat) (p : Party) : (s.setParty c p).mem = s.mem := rfl
@[simp] theorem State.setParty_tags (s : State) (c : Nat) (p : Party) : (s.setParty c p).tags = s.tags := rfl
@[simp] theorem State.setParty_poison (s : State) (c : Nat) (p : Party) : (s.setParty c p).poison = s.poison := rfl
@[simp] theorem State.setParty_poolmap (s : State) (c : Nat) (p : Party) : (s.setParty c p).poolmap = s.poolmap := rfl
@[simp] theorem State.setParty_pkgs (s : State) (c : Nat) (p : Party) : (s.setParty c p).pkgs = s.pkgs := rfl
@[simp] theorem State.setParty_l2 (s : State) (c : Nat) (p : Party) : (s.setParty c p).l2 = s.l2 := rfl
@[simp] theorem State.setParty_mts (s : State) (c : Nat) (p : Party) : (s.setParty c p).mts = s.mts := rfl
@[simp] theorem State.setParty_remotes (s : State) (c : Nat) (p : Party) : (s.setParty c p).remotes = s.remotes := rfl
@[simp] theorem State.setParty_plogs (s : State) (c : Nat) (p : Party) : (s.setParty c p).plogs = s.plogs := rfl
@[simp] theorem State.setParty_plogReads (s : State) (c : Nat) (p : Party) : (s.setParty c p).plogReads = s.plogReads := rfl
@[simp] theorem State.setParty_plogSeen (s : State) (c : Nat) (p : Party) : (s.setParty c p).plogSeen = s.plogSeen := rfl
@[simp] theorem State.setParty_tlb (s : State) (c : Nat) (p : Party) : (s.setParty c p).tlb = s.tlb := rfl
@[simp] theorem State.setParty_walks (s : State) (c : Nat) (p : Party) : (s.setParty c p).walks = s.walks := rfl
@[simp] theorem State.setParty_walkFails (s : State) (c : Nat) (p : Party) : (s.setParty c p).walkFails = s.walkFails := rfl
@[simp] theorem State.setParty_msix (s : State) (c : Nat) (p : Party) : (s.setParty c p).msix = s.msix := rfl
@[simp] theorem State.setParty_saved (s : State) (c : Nat) (p : Party) : (s.setParty c p).saved = s.saved := rfl
@[simp] theorem State.setParty_grids (s : State) (c : Nat) (p : Party) : (s.setParty c p).grids = s.grids := rfl
@[simp] theorem State.setParty_holds (s : State) (c : Nat) (p : Party) : (s.setParty c p).holds = s.holds := rfl
@[simp] theorem State.setParty_droops (s : State) (c : Nat) (p : Party) : (s.setParty c p).droops = s.droops := rfl
@[simp] theorem State.setParty_bc (s : State) (c : Nat) (p : Party) : (s.setParty c p).bc = s.bc := rfl
@[simp] theorem State.setParty_mailboxes (s : State) (c : Nat) (p : Party) : (s.setParty c p).mailboxes = s.mailboxes := rfl
@[simp] theorem State.setParty_mailQ (s : State) (c : Nat) (p : Party) : (s.setParty c p).mailQ = s.mailQ := rfl
@[simp] theorem State.setParty_own (s : State) (c : Nat) (p : Party) : (s.setParty c p).own = s.own := rfl
@[simp] theorem State.setParty_fenced (s : State) (c : Nat) (p : Party) : (s.setParty c p).fenced = s.fenced := rfl
@[simp] theorem State.setParty_misses (s : State) (c : Nat) (p : Party) : (s.setParty c p).misses = s.misses := rfl
@[simp] theorem State.setParty_links (s : State) (c : Nat) (p : Party) : (s.setParty c p).links = s.links := rfl
@[simp] theorem State.setParty_requests (s : State) (c : Nat) (p : Party) : (s.setParty c p).requests = s.requests := rfl
@[simp] theorem State.setParty_windows (s : State) (c : Nat) (p : Party) : (s.setParty c p).windows = s.windows := rfl
@[simp] theorem State.setParty_txIds (s : State) (c : Nat) (p : Party) : (s.setParty c p).txIds = s.txIds := rfl
@[simp] theorem State.setParty_clocks (s : State) (c : Nat) (p : Party) : (s.setParty c p).clocks = s.clocks := rfl
@[simp] theorem State.setParty_packets (s : State) (c : Nat) (p : Party) : (s.setParty c p).packets = s.packets := rfl
@[simp] theorem State.setParty_flowRecs (s : State) (c : Nat) (p : Party) : (s.setParty c p).flowRecs = s.flowRecs := rfl

@[simp] theorem State.setCore_now (s : State) (c : Nat) (k : Core) : (s.setCore c k).now = s.now := rfl
@[simp] theorem State.setCore_agenda (s : State) (c : Nat) (k : Core) : (s.setCore c k).agenda = s.agenda := rfl
@[simp] theorem State.setCore_pend (s : State) (c : Nat) (k : Core) : (s.setCore c k).pend = s.pend := rfl
@[simp] theorem State.setCore_sched (s : State) (c : Nat) (k : Core) : (s.setCore c k).sched = s.sched := rfl
@[simp] theorem State.setCore_evicts (s : State) (c : Nat) (k : Core) : (s.setCore c k).evicts = s.evicts := rfl
@[simp] theorem State.setCore_issued (s : State) (c : Nat) (k : Core) : (s.setCore c k).issued = s.issued := rfl
@[simp] theorem State.setCore_fresh (s : State) (c : Nat) (k : Core) : (s.setCore c k).fresh = s.fresh := rfl
@[simp] theorem State.setCore_nextId (s : State) (c : Nat) (k : Core) : (s.setCore c k).nextId = s.nextId := rfl
@[simp] theorem State.setCore_focus (s : State) (c : Nat) (k : Core) : (s.setCore c k).focus = s.focus := rfl
@[simp] theorem State.setCore_phase (s : State) (c : Nat) (k : Core) : (s.setCore c k).phase = s.phase := rfl
@[simp] theorem State.setCore_turn (s : State) (c : Nat) (k : Core) : (s.setCore c k).turn = s.turn := rfl
@[simp] theorem State.setCore_laneRegs (s : State) (c : Nat) (k : Core) : (s.setCore c k).laneRegs = s.laneRegs := rfl
@[simp] theorem State.setCore_parties (s : State) (c : Nat) (k : Core) : (s.setCore c k).parties = s.parties := rfl
@[simp] theorem State.setCore_mem (s : State) (c : Nat) (k : Core) : (s.setCore c k).mem = s.mem := rfl
@[simp] theorem State.setCore_tags (s : State) (c : Nat) (k : Core) : (s.setCore c k).tags = s.tags := rfl
@[simp] theorem State.setCore_poison (s : State) (c : Nat) (k : Core) : (s.setCore c k).poison = s.poison := rfl
@[simp] theorem State.setCore_poolmap (s : State) (c : Nat) (k : Core) : (s.setCore c k).poolmap = s.poolmap := rfl
@[simp] theorem State.setCore_pkgs (s : State) (c : Nat) (k : Core) : (s.setCore c k).pkgs = s.pkgs := rfl
@[simp] theorem State.setCore_l2 (s : State) (c : Nat) (k : Core) : (s.setCore c k).l2 = s.l2 := rfl
@[simp] theorem State.setCore_mts (s : State) (c : Nat) (k : Core) : (s.setCore c k).mts = s.mts := rfl
@[simp] theorem State.setCore_remotes (s : State) (c : Nat) (k : Core) : (s.setCore c k).remotes = s.remotes := rfl
@[simp] theorem State.setCore_plogs (s : State) (c : Nat) (k : Core) : (s.setCore c k).plogs = s.plogs := rfl
@[simp] theorem State.setCore_plogReads (s : State) (c : Nat) (k : Core) : (s.setCore c k).plogReads = s.plogReads := rfl
@[simp] theorem State.setCore_plogSeen (s : State) (c : Nat) (k : Core) : (s.setCore c k).plogSeen = s.plogSeen := rfl
@[simp] theorem State.setCore_tlb (s : State) (c : Nat) (k : Core) : (s.setCore c k).tlb = s.tlb := rfl
@[simp] theorem State.setCore_walks (s : State) (c : Nat) (k : Core) : (s.setCore c k).walks = s.walks := rfl
@[simp] theorem State.setCore_walkFails (s : State) (c : Nat) (k : Core) : (s.setCore c k).walkFails = s.walkFails := rfl
@[simp] theorem State.setCore_msix (s : State) (c : Nat) (k : Core) : (s.setCore c k).msix = s.msix := rfl
@[simp] theorem State.setCore_saved (s : State) (c : Nat) (k : Core) : (s.setCore c k).saved = s.saved := rfl
@[simp] theorem State.setCore_grids (s : State) (c : Nat) (k : Core) : (s.setCore c k).grids = s.grids := rfl
@[simp] theorem State.setCore_holds (s : State) (c : Nat) (k : Core) : (s.setCore c k).holds = s.holds := rfl
@[simp] theorem State.setCore_droops (s : State) (c : Nat) (k : Core) : (s.setCore c k).droops = s.droops := rfl
@[simp] theorem State.setCore_bc (s : State) (c : Nat) (k : Core) : (s.setCore c k).bc = s.bc := rfl
@[simp] theorem State.setCore_mailboxes (s : State) (c : Nat) (k : Core) : (s.setCore c k).mailboxes = s.mailboxes := rfl
@[simp] theorem State.setCore_mailQ (s : State) (c : Nat) (k : Core) : (s.setCore c k).mailQ = s.mailQ := rfl
@[simp] theorem State.setCore_own (s : State) (c : Nat) (k : Core) : (s.setCore c k).own = s.own := rfl
@[simp] theorem State.setCore_fenced (s : State) (c : Nat) (k : Core) : (s.setCore c k).fenced = s.fenced := rfl
@[simp] theorem State.setCore_misses (s : State) (c : Nat) (k : Core) : (s.setCore c k).misses = s.misses := rfl
@[simp] theorem State.setCore_links (s : State) (c : Nat) (k : Core) : (s.setCore c k).links = s.links := rfl
@[simp] theorem State.setCore_requests (s : State) (c : Nat) (k : Core) : (s.setCore c k).requests = s.requests := rfl
@[simp] theorem State.setCore_windows (s : State) (c : Nat) (k : Core) : (s.setCore c k).windows = s.windows := rfl
@[simp] theorem State.setCore_txIds (s : State) (c : Nat) (k : Core) : (s.setCore c k).txIds = s.txIds := rfl
@[simp] theorem State.setCore_clocks (s : State) (c : Nat) (k : Core) : (s.setCore c k).clocks = s.clocks := rfl
@[simp] theorem State.setCore_packets (s : State) (c : Nat) (k : Core) : (s.setCore c k).packets = s.packets := rfl
@[simp] theorem State.setCore_flowRecs (s : State) (c : Nat) (k : Core) : (s.setCore c k).flowRecs = s.flowRecs := rfl

@[simp] theorem State.setPkg_now (s : State) (p : Nat) (k : Pkg) : (s.setPkg p k).now = s.now := rfl
@[simp] theorem State.setPkg_agenda (s : State) (p : Nat) (k : Pkg) : (s.setPkg p k).agenda = s.agenda := rfl
@[simp] theorem State.setPkg_pend (s : State) (p : Nat) (k : Pkg) : (s.setPkg p k).pend = s.pend := rfl
@[simp] theorem State.setPkg_sched (s : State) (p : Nat) (k : Pkg) : (s.setPkg p k).sched = s.sched := rfl
@[simp] theorem State.setPkg_evicts (s : State) (p : Nat) (k : Pkg) : (s.setPkg p k).evicts = s.evicts := rfl
@[simp] theorem State.setPkg_issued (s : State) (p : Nat) (k : Pkg) : (s.setPkg p k).issued = s.issued := rfl
@[simp] theorem State.setPkg_fresh (s : State) (p : Nat) (k : Pkg) : (s.setPkg p k).fresh = s.fresh := rfl
@[simp] theorem State.setPkg_nextId (s : State) (p : Nat) (k : Pkg) : (s.setPkg p k).nextId = s.nextId := rfl
@[simp] theorem State.setPkg_focus (s : State) (p : Nat) (k : Pkg) : (s.setPkg p k).focus = s.focus := rfl
@[simp] theorem State.setPkg_phase (s : State) (p : Nat) (k : Pkg) : (s.setPkg p k).phase = s.phase := rfl
@[simp] theorem State.setPkg_turn (s : State) (p : Nat) (k : Pkg) : (s.setPkg p k).turn = s.turn := rfl
@[simp] theorem State.setPkg_laneRegs (s : State) (p : Nat) (k : Pkg) : (s.setPkg p k).laneRegs = s.laneRegs := rfl
@[simp] theorem State.setPkg_cores (s : State) (p : Nat) (k : Pkg) : (s.setPkg p k).cores = s.cores := rfl
@[simp] theorem State.setPkg_parties (s : State) (p : Nat) (k : Pkg) : (s.setPkg p k).parties = s.parties := rfl
@[simp] theorem State.setPkg_mem (s : State) (p : Nat) (k : Pkg) : (s.setPkg p k).mem = s.mem := rfl
@[simp] theorem State.setPkg_tags (s : State) (p : Nat) (k : Pkg) : (s.setPkg p k).tags = s.tags := rfl
@[simp] theorem State.setPkg_poison (s : State) (p : Nat) (k : Pkg) : (s.setPkg p k).poison = s.poison := rfl
@[simp] theorem State.setPkg_poolmap (s : State) (p : Nat) (k : Pkg) : (s.setPkg p k).poolmap = s.poolmap := rfl
@[simp] theorem State.setPkg_l2 (s : State) (p : Nat) (k : Pkg) : (s.setPkg p k).l2 = s.l2 := rfl
@[simp] theorem State.setPkg_mts (s : State) (p : Nat) (k : Pkg) : (s.setPkg p k).mts = s.mts := rfl
@[simp] theorem State.setPkg_remotes (s : State) (p : Nat) (k : Pkg) : (s.setPkg p k).remotes = s.remotes := rfl
@[simp] theorem State.setPkg_plogs (s : State) (p : Nat) (k : Pkg) : (s.setPkg p k).plogs = s.plogs := rfl
@[simp] theorem State.setPkg_plogReads (s : State) (p : Nat) (k : Pkg) : (s.setPkg p k).plogReads = s.plogReads := rfl
@[simp] theorem State.setPkg_plogSeen (s : State) (p : Nat) (k : Pkg) : (s.setPkg p k).plogSeen = s.plogSeen := rfl
@[simp] theorem State.setPkg_tlb (s : State) (p : Nat) (k : Pkg) : (s.setPkg p k).tlb = s.tlb := rfl
@[simp] theorem State.setPkg_walks (s : State) (p : Nat) (k : Pkg) : (s.setPkg p k).walks = s.walks := rfl
@[simp] theorem State.setPkg_walkFails (s : State) (p : Nat) (k : Pkg) : (s.setPkg p k).walkFails = s.walkFails := rfl
@[simp] theorem State.setPkg_msix (s : State) (p : Nat) (k : Pkg) : (s.setPkg p k).msix = s.msix := rfl
@[simp] theorem State.setPkg_saved (s : State) (p : Nat) (k : Pkg) : (s.setPkg p k).saved = s.saved := rfl
@[simp] theorem State.setPkg_grids (s : State) (p : Nat) (k : Pkg) : (s.setPkg p k).grids = s.grids := rfl
@[simp] theorem State.setPkg_holds (s : State) (p : Nat) (k : Pkg) : (s.setPkg p k).holds = s.holds := rfl
@[simp] theorem State.setPkg_droops (s : State) (p : Nat) (k : Pkg) : (s.setPkg p k).droops = s.droops := rfl
@[simp] theorem State.setPkg_bc (s : State) (p : Nat) (k : Pkg) : (s.setPkg p k).bc = s.bc := rfl
@[simp] theorem State.setPkg_mailboxes (s : State) (p : Nat) (k : Pkg) : (s.setPkg p k).mailboxes = s.mailboxes := rfl
@[simp] theorem State.setPkg_mailQ (s : State) (p : Nat) (k : Pkg) : (s.setPkg p k).mailQ = s.mailQ := rfl
@[simp] theorem State.setPkg_own (s : State) (p : Nat) (k : Pkg) : (s.setPkg p k).own = s.own := rfl
@[simp] theorem State.setPkg_fenced (s : State) (p : Nat) (k : Pkg) : (s.setPkg p k).fenced = s.fenced := rfl
@[simp] theorem State.setPkg_misses (s : State) (p : Nat) (k : Pkg) : (s.setPkg p k).misses = s.misses := rfl
@[simp] theorem State.setPkg_links (s : State) (p : Nat) (k : Pkg) : (s.setPkg p k).links = s.links := rfl
@[simp] theorem State.setPkg_requests (s : State) (p : Nat) (k : Pkg) : (s.setPkg p k).requests = s.requests := rfl
@[simp] theorem State.setPkg_windows (s : State) (p : Nat) (k : Pkg) : (s.setPkg p k).windows = s.windows := rfl
@[simp] theorem State.setPkg_txIds (s : State) (p : Nat) (k : Pkg) : (s.setPkg p k).txIds = s.txIds := rfl
@[simp] theorem State.setPkg_clocks (s : State) (p : Nat) (k : Pkg) : (s.setPkg p k).clocks = s.clocks := rfl
@[simp] theorem State.setPkg_packets (s : State) (p : Nat) (k : Pkg) : (s.setPkg p k).packets = s.packets := rfl
@[simp] theorem State.setPkg_flowRecs (s : State) (p : Nat) (k : Pkg) : (s.setPkg p k).flowRecs = s.flowRecs := rfl

@[simp] theorem State.post_now (s : State) (i : Instr) : (s.post i).now = s.now := rfl
@[simp] theorem State.post_pend (s : State) (i : Instr) : (s.post i).pend = s.pend := rfl
@[simp] theorem State.post_sched (s : State) (i : Instr) : (s.post i).sched = s.sched := rfl
@[simp] theorem State.post_evicts (s : State) (i : Instr) : (s.post i).evicts = s.evicts := rfl
@[simp] theorem State.post_issued (s : State) (i : Instr) : (s.post i).issued = s.issued := rfl
@[simp] theorem State.post_fresh (s : State) (i : Instr) : (s.post i).fresh = s.fresh := rfl
@[simp] theorem State.post_nextId (s : State) (i : Instr) : (s.post i).nextId = s.nextId := rfl
@[simp] theorem State.post_focus (s : State) (i : Instr) : (s.post i).focus = s.focus := rfl
@[simp] theorem State.post_phase (s : State) (i : Instr) : (s.post i).phase = s.phase := rfl
@[simp] theorem State.post_turn (s : State) (i : Instr) : (s.post i).turn = s.turn := rfl
@[simp] theorem State.post_laneRegs (s : State) (i : Instr) : (s.post i).laneRegs = s.laneRegs := rfl
@[simp] theorem State.post_cores (s : State) (i : Instr) : (s.post i).cores = s.cores := rfl
@[simp] theorem State.post_parties (s : State) (i : Instr) : (s.post i).parties = s.parties := rfl
@[simp] theorem State.post_mem (s : State) (i : Instr) : (s.post i).mem = s.mem := rfl
@[simp] theorem State.post_tags (s : State) (i : Instr) : (s.post i).tags = s.tags := rfl
@[simp] theorem State.post_poison (s : State) (i : Instr) : (s.post i).poison = s.poison := rfl
@[simp] theorem State.post_poolmap (s : State) (i : Instr) : (s.post i).poolmap = s.poolmap := rfl
@[simp] theorem State.post_pkgs (s : State) (i : Instr) : (s.post i).pkgs = s.pkgs := rfl
@[simp] theorem State.post_l2 (s : State) (i : Instr) : (s.post i).l2 = s.l2 := rfl
@[simp] theorem State.post_mts (s : State) (i : Instr) : (s.post i).mts = s.mts := rfl
@[simp] theorem State.post_remotes (s : State) (i : Instr) : (s.post i).remotes = s.remotes := rfl
@[simp] theorem State.post_plogs (s : State) (i : Instr) : (s.post i).plogs = s.plogs := rfl
@[simp] theorem State.post_plogReads (s : State) (i : Instr) : (s.post i).plogReads = s.plogReads := rfl
@[simp] theorem State.post_plogSeen (s : State) (i : Instr) : (s.post i).plogSeen = s.plogSeen := rfl
@[simp] theorem State.post_tlb (s : State) (i : Instr) : (s.post i).tlb = s.tlb := rfl
@[simp] theorem State.post_walks (s : State) (i : Instr) : (s.post i).walks = s.walks := rfl
@[simp] theorem State.post_walkFails (s : State) (i : Instr) : (s.post i).walkFails = s.walkFails := rfl
@[simp] theorem State.post_msix (s : State) (i : Instr) : (s.post i).msix = s.msix := rfl
@[simp] theorem State.post_saved (s : State) (i : Instr) : (s.post i).saved = s.saved := rfl
@[simp] theorem State.post_grids (s : State) (i : Instr) : (s.post i).grids = s.grids := rfl
@[simp] theorem State.post_holds (s : State) (i : Instr) : (s.post i).holds = s.holds := rfl
@[simp] theorem State.post_droops (s : State) (i : Instr) : (s.post i).droops = s.droops := rfl
@[simp] theorem State.post_bc (s : State) (i : Instr) : (s.post i).bc = s.bc := rfl
@[simp] theorem State.post_mailboxes (s : State) (i : Instr) : (s.post i).mailboxes = s.mailboxes := rfl
@[simp] theorem State.post_mailQ (s : State) (i : Instr) : (s.post i).mailQ = s.mailQ := rfl
@[simp] theorem State.post_own (s : State) (i : Instr) : (s.post i).own = s.own := rfl
@[simp] theorem State.post_fenced (s : State) (i : Instr) : (s.post i).fenced = s.fenced := rfl
@[simp] theorem State.post_misses (s : State) (i : Instr) : (s.post i).misses = s.misses := rfl
@[simp] theorem State.post_links (s : State) (i : Instr) : (s.post i).links = s.links := rfl
@[simp] theorem State.post_requests (s : State) (i : Instr) : (s.post i).requests = s.requests := rfl
@[simp] theorem State.post_windows (s : State) (i : Instr) : (s.post i).windows = s.windows := rfl
@[simp] theorem State.post_txIds (s : State) (i : Instr) : (s.post i).txIds = s.txIds := rfl
@[simp] theorem State.post_clocks (s : State) (i : Instr) : (s.post i).clocks = s.clocks := rfl
@[simp] theorem State.post_packets (s : State) (i : Instr) : (s.post i).packets = s.packets := rfl
@[simp] theorem State.post_flowRecs (s : State) (i : Instr) : (s.post i).flowRecs = s.flowRecs := rfl

@[simp] theorem State.bump_now (s : State)  : (s.bump).now = s.now := rfl
@[simp] theorem State.bump_agenda (s : State)  : (s.bump).agenda = s.agenda := rfl
@[simp] theorem State.bump_pend (s : State)  : (s.bump).pend = s.pend := rfl
@[simp] theorem State.bump_sched (s : State)  : (s.bump).sched = s.sched := rfl
@[simp] theorem State.bump_evicts (s : State)  : (s.bump).evicts = s.evicts := rfl
@[simp] theorem State.bump_issued (s : State)  : (s.bump).issued = s.issued := rfl
@[simp] theorem State.bump_fresh (s : State)  : (s.bump).fresh = s.fresh := rfl
@[simp] theorem State.bump_focus (s : State)  : (s.bump).focus = s.focus := rfl
@[simp] theorem State.bump_phase (s : State)  : (s.bump).phase = s.phase := rfl
@[simp] theorem State.bump_turn (s : State)  : (s.bump).turn = s.turn := rfl
@[simp] theorem State.bump_laneRegs (s : State)  : (s.bump).laneRegs = s.laneRegs := rfl
@[simp] theorem State.bump_cores (s : State)  : (s.bump).cores = s.cores := rfl
@[simp] theorem State.bump_parties (s : State)  : (s.bump).parties = s.parties := rfl
@[simp] theorem State.bump_mem (s : State)  : (s.bump).mem = s.mem := rfl
@[simp] theorem State.bump_tags (s : State)  : (s.bump).tags = s.tags := rfl
@[simp] theorem State.bump_poison (s : State)  : (s.bump).poison = s.poison := rfl
@[simp] theorem State.bump_poolmap (s : State)  : (s.bump).poolmap = s.poolmap := rfl
@[simp] theorem State.bump_pkgs (s : State)  : (s.bump).pkgs = s.pkgs := rfl
@[simp] theorem State.bump_l2 (s : State)  : (s.bump).l2 = s.l2 := rfl
@[simp] theorem State.bump_mts (s : State)  : (s.bump).mts = s.mts := rfl
@[simp] theorem State.bump_remotes (s : State)  : (s.bump).remotes = s.remotes := rfl
@[simp] theorem State.bump_plogs (s : State)  : (s.bump).plogs = s.plogs := rfl
@[simp] theorem State.bump_plogReads (s : State)  : (s.bump).plogReads = s.plogReads := rfl
@[simp] theorem State.bump_plogSeen (s : State)  : (s.bump).plogSeen = s.plogSeen := rfl
@[simp] theorem State.bump_tlb (s : State)  : (s.bump).tlb = s.tlb := rfl
@[simp] theorem State.bump_walks (s : State)  : (s.bump).walks = s.walks := rfl
@[simp] theorem State.bump_walkFails (s : State)  : (s.bump).walkFails = s.walkFails := rfl
@[simp] theorem State.bump_msix (s : State)  : (s.bump).msix = s.msix := rfl
@[simp] theorem State.bump_saved (s : State)  : (s.bump).saved = s.saved := rfl
@[simp] theorem State.bump_grids (s : State)  : (s.bump).grids = s.grids := rfl
@[simp] theorem State.bump_holds (s : State)  : (s.bump).holds = s.holds := rfl
@[simp] theorem State.bump_droops (s : State)  : (s.bump).droops = s.droops := rfl
@[simp] theorem State.bump_bc (s : State)  : (s.bump).bc = s.bc := rfl
@[simp] theorem State.bump_mailboxes (s : State)  : (s.bump).mailboxes = s.mailboxes := rfl
@[simp] theorem State.bump_mailQ (s : State)  : (s.bump).mailQ = s.mailQ := rfl
@[simp] theorem State.bump_own (s : State)  : (s.bump).own = s.own := rfl
@[simp] theorem State.bump_fenced (s : State)  : (s.bump).fenced = s.fenced := rfl
@[simp] theorem State.bump_misses (s : State)  : (s.bump).misses = s.misses := rfl
@[simp] theorem State.bump_links (s : State)  : (s.bump).links = s.links := rfl
@[simp] theorem State.bump_requests (s : State)  : (s.bump).requests = s.requests := rfl
@[simp] theorem State.bump_windows (s : State)  : (s.bump).windows = s.windows := rfl
@[simp] theorem State.bump_txIds (s : State)  : (s.bump).txIds = s.txIds := rfl
@[simp] theorem State.bump_clocks (s : State)  : (s.bump).clocks = s.clocks := rfl
@[simp] theorem State.bump_packets (s : State)  : (s.bump).packets = s.packets := rfl
@[simp] theorem State.bump_flowRecs (s : State)  : (s.bump).flowRecs = s.flowRecs := rfl

@[simp] theorem State.markIssued_now (s : State)  : (s.markIssued).now = s.now := rfl
@[simp] theorem State.markIssued_agenda (s : State)  : (s.markIssued).agenda = s.agenda := rfl
@[simp] theorem State.markIssued_pend (s : State)  : (s.markIssued).pend = s.pend := rfl
@[simp] theorem State.markIssued_sched (s : State)  : (s.markIssued).sched = s.sched := rfl
@[simp] theorem State.markIssued_evicts (s : State)  : (s.markIssued).evicts = s.evicts := rfl
@[simp] theorem State.markIssued_fresh (s : State)  : (s.markIssued).fresh = s.fresh := rfl
@[simp] theorem State.markIssued_nextId (s : State)  : (s.markIssued).nextId = s.nextId := rfl
@[simp] theorem State.markIssued_focus (s : State)  : (s.markIssued).focus = s.focus := rfl
@[simp] theorem State.markIssued_phase (s : State)  : (s.markIssued).phase = s.phase := rfl
@[simp] theorem State.markIssued_turn (s : State)  : (s.markIssued).turn = s.turn := rfl
@[simp] theorem State.markIssued_laneRegs (s : State)  : (s.markIssued).laneRegs = s.laneRegs := rfl
@[simp] theorem State.markIssued_cores (s : State)  : (s.markIssued).cores = s.cores := rfl
@[simp] theorem State.markIssued_parties (s : State)  : (s.markIssued).parties = s.parties := rfl
@[simp] theorem State.markIssued_mem (s : State)  : (s.markIssued).mem = s.mem := rfl
@[simp] theorem State.markIssued_tags (s : State)  : (s.markIssued).tags = s.tags := rfl
@[simp] theorem State.markIssued_poison (s : State)  : (s.markIssued).poison = s.poison := rfl
@[simp] theorem State.markIssued_poolmap (s : State)  : (s.markIssued).poolmap = s.poolmap := rfl
@[simp] theorem State.markIssued_pkgs (s : State)  : (s.markIssued).pkgs = s.pkgs := rfl
@[simp] theorem State.markIssued_l2 (s : State)  : (s.markIssued).l2 = s.l2 := rfl
@[simp] theorem State.markIssued_mts (s : State)  : (s.markIssued).mts = s.mts := rfl
@[simp] theorem State.markIssued_remotes (s : State)  : (s.markIssued).remotes = s.remotes := rfl
@[simp] theorem State.markIssued_plogs (s : State)  : (s.markIssued).plogs = s.plogs := rfl
@[simp] theorem State.markIssued_plogReads (s : State)  : (s.markIssued).plogReads = s.plogReads := rfl
@[simp] theorem State.markIssued_plogSeen (s : State)  : (s.markIssued).plogSeen = s.plogSeen := rfl
@[simp] theorem State.markIssued_tlb (s : State)  : (s.markIssued).tlb = s.tlb := rfl
@[simp] theorem State.markIssued_walks (s : State)  : (s.markIssued).walks = s.walks := rfl
@[simp] theorem State.markIssued_walkFails (s : State)  : (s.markIssued).walkFails = s.walkFails := rfl
@[simp] theorem State.markIssued_msix (s : State)  : (s.markIssued).msix = s.msix := rfl
@[simp] theorem State.markIssued_saved (s : State)  : (s.markIssued).saved = s.saved := rfl
@[simp] theorem State.markIssued_grids (s : State)  : (s.markIssued).grids = s.grids := rfl
@[simp] theorem State.markIssued_holds (s : State)  : (s.markIssued).holds = s.holds := rfl
@[simp] theorem State.markIssued_droops (s : State)  : (s.markIssued).droops = s.droops := rfl
@[simp] theorem State.markIssued_bc (s : State)  : (s.markIssued).bc = s.bc := rfl
@[simp] theorem State.markIssued_mailboxes (s : State)  : (s.markIssued).mailboxes = s.mailboxes := rfl
@[simp] theorem State.markIssued_mailQ (s : State)  : (s.markIssued).mailQ = s.mailQ := rfl
@[simp] theorem State.markIssued_own (s : State)  : (s.markIssued).own = s.own := rfl
@[simp] theorem State.markIssued_fenced (s : State)  : (s.markIssued).fenced = s.fenced := rfl
@[simp] theorem State.markIssued_misses (s : State)  : (s.markIssued).misses = s.misses := rfl
@[simp] theorem State.markIssued_links (s : State)  : (s.markIssued).links = s.links := rfl
@[simp] theorem State.markIssued_requests (s : State)  : (s.markIssued).requests = s.requests := rfl
@[simp] theorem State.markIssued_windows (s : State)  : (s.markIssued).windows = s.windows := rfl
@[simp] theorem State.markIssued_txIds (s : State)  : (s.markIssued).txIds = s.txIds := rfl
@[simp] theorem State.markIssued_clocks (s : State)  : (s.markIssued).clocks = s.clocks := rfl
@[simp] theorem State.markIssued_packets (s : State)  : (s.markIssued).packets = s.packets := rfl
@[simp] theorem State.markIssued_flowRecs (s : State)  : (s.markIssued).flowRecs = s.flowRecs := rfl

@[simp] theorem State.modBc_now (s : State) (f : BaseCamp → BaseCamp) : (s.modBc f).now = s.now := rfl
@[simp] theorem State.modBc_agenda (s : State) (f : BaseCamp → BaseCamp) : (s.modBc f).agenda = s.agenda := rfl
@[simp] theorem State.modBc_pend (s : State) (f : BaseCamp → BaseCamp) : (s.modBc f).pend = s.pend := rfl
@[simp] theorem State.modBc_sched (s : State) (f : BaseCamp → BaseCamp) : (s.modBc f).sched = s.sched := rfl
@[simp] theorem State.modBc_evicts (s : State) (f : BaseCamp → BaseCamp) : (s.modBc f).evicts = s.evicts := rfl
@[simp] theorem State.modBc_issued (s : State) (f : BaseCamp → BaseCamp) : (s.modBc f).issued = s.issued := rfl
@[simp] theorem State.modBc_fresh (s : State) (f : BaseCamp → BaseCamp) : (s.modBc f).fresh = s.fresh := rfl
@[simp] theorem State.modBc_nextId (s : State) (f : BaseCamp → BaseCamp) : (s.modBc f).nextId = s.nextId := rfl
@[simp] theorem State.modBc_focus (s : State) (f : BaseCamp → BaseCamp) : (s.modBc f).focus = s.focus := rfl
@[simp] theorem State.modBc_phase (s : State) (f : BaseCamp → BaseCamp) : (s.modBc f).phase = s.phase := rfl
@[simp] theorem State.modBc_turn (s : State) (f : BaseCamp → BaseCamp) : (s.modBc f).turn = s.turn := rfl
@[simp] theorem State.modBc_laneRegs (s : State) (f : BaseCamp → BaseCamp) : (s.modBc f).laneRegs = s.laneRegs := rfl
@[simp] theorem State.modBc_cores (s : State) (f : BaseCamp → BaseCamp) : (s.modBc f).cores = s.cores := rfl
@[simp] theorem State.modBc_parties (s : State) (f : BaseCamp → BaseCamp) : (s.modBc f).parties = s.parties := rfl
@[simp] theorem State.modBc_mem (s : State) (f : BaseCamp → BaseCamp) : (s.modBc f).mem = s.mem := rfl
@[simp] theorem State.modBc_tags (s : State) (f : BaseCamp → BaseCamp) : (s.modBc f).tags = s.tags := rfl
@[simp] theorem State.modBc_poison (s : State) (f : BaseCamp → BaseCamp) : (s.modBc f).poison = s.poison := rfl
@[simp] theorem State.modBc_poolmap (s : State) (f : BaseCamp → BaseCamp) : (s.modBc f).poolmap = s.poolmap := rfl
@[simp] theorem State.modBc_pkgs (s : State) (f : BaseCamp → BaseCamp) : (s.modBc f).pkgs = s.pkgs := rfl
@[simp] theorem State.modBc_l2 (s : State) (f : BaseCamp → BaseCamp) : (s.modBc f).l2 = s.l2 := rfl
@[simp] theorem State.modBc_mts (s : State) (f : BaseCamp → BaseCamp) : (s.modBc f).mts = s.mts := rfl
@[simp] theorem State.modBc_remotes (s : State) (f : BaseCamp → BaseCamp) : (s.modBc f).remotes = s.remotes := rfl
@[simp] theorem State.modBc_plogs (s : State) (f : BaseCamp → BaseCamp) : (s.modBc f).plogs = s.plogs := rfl
@[simp] theorem State.modBc_plogReads (s : State) (f : BaseCamp → BaseCamp) : (s.modBc f).plogReads = s.plogReads := rfl
@[simp] theorem State.modBc_plogSeen (s : State) (f : BaseCamp → BaseCamp) : (s.modBc f).plogSeen = s.plogSeen := rfl
@[simp] theorem State.modBc_tlb (s : State) (f : BaseCamp → BaseCamp) : (s.modBc f).tlb = s.tlb := rfl
@[simp] theorem State.modBc_walks (s : State) (f : BaseCamp → BaseCamp) : (s.modBc f).walks = s.walks := rfl
@[simp] theorem State.modBc_walkFails (s : State) (f : BaseCamp → BaseCamp) : (s.modBc f).walkFails = s.walkFails := rfl
@[simp] theorem State.modBc_msix (s : State) (f : BaseCamp → BaseCamp) : (s.modBc f).msix = s.msix := rfl
@[simp] theorem State.modBc_saved (s : State) (f : BaseCamp → BaseCamp) : (s.modBc f).saved = s.saved := rfl
@[simp] theorem State.modBc_grids (s : State) (f : BaseCamp → BaseCamp) : (s.modBc f).grids = s.grids := rfl
@[simp] theorem State.modBc_holds (s : State) (f : BaseCamp → BaseCamp) : (s.modBc f).holds = s.holds := rfl
@[simp] theorem State.modBc_droops (s : State) (f : BaseCamp → BaseCamp) : (s.modBc f).droops = s.droops := rfl
@[simp] theorem State.modBc_mailboxes (s : State) (f : BaseCamp → BaseCamp) : (s.modBc f).mailboxes = s.mailboxes := rfl
@[simp] theorem State.modBc_mailQ (s : State) (f : BaseCamp → BaseCamp) : (s.modBc f).mailQ = s.mailQ := rfl
@[simp] theorem State.modBc_own (s : State) (f : BaseCamp → BaseCamp) : (s.modBc f).own = s.own := rfl
@[simp] theorem State.modBc_fenced (s : State) (f : BaseCamp → BaseCamp) : (s.modBc f).fenced = s.fenced := rfl
@[simp] theorem State.modBc_misses (s : State) (f : BaseCamp → BaseCamp) : (s.modBc f).misses = s.misses := rfl
@[simp] theorem State.modBc_links (s : State) (f : BaseCamp → BaseCamp) : (s.modBc f).links = s.links := rfl
@[simp] theorem State.modBc_requests (s : State) (f : BaseCamp → BaseCamp) : (s.modBc f).requests = s.requests := rfl
@[simp] theorem State.modBc_windows (s : State) (f : BaseCamp → BaseCamp) : (s.modBc f).windows = s.windows := rfl
@[simp] theorem State.modBc_txIds (s : State) (f : BaseCamp → BaseCamp) : (s.modBc f).txIds = s.txIds := rfl
@[simp] theorem State.modBc_clocks (s : State) (f : BaseCamp → BaseCamp) : (s.modBc f).clocks = s.clocks := rfl
@[simp] theorem State.modBc_packets (s : State) (f : BaseCamp → BaseCamp) : (s.modBc f).packets = s.packets := rfl
@[simp] theorem State.modBc_flowRecs (s : State) (f : BaseCamp → BaseCamp) : (s.modBc f).flowRecs = s.flowRecs := rfl

@[simp] theorem State.writeByte_now (s : State) (r : Nat) (b : Byte) : (s.writeByte r b).now = s.now := rfl
@[simp] theorem State.writeByte_agenda (s : State) (r : Nat) (b : Byte) : (s.writeByte r b).agenda = s.agenda := rfl
@[simp] theorem State.writeByte_pend (s : State) (r : Nat) (b : Byte) : (s.writeByte r b).pend = s.pend := rfl
@[simp] theorem State.writeByte_sched (s : State) (r : Nat) (b : Byte) : (s.writeByte r b).sched = s.sched := rfl
@[simp] theorem State.writeByte_evicts (s : State) (r : Nat) (b : Byte) : (s.writeByte r b).evicts = s.evicts := rfl
@[simp] theorem State.writeByte_issued (s : State) (r : Nat) (b : Byte) : (s.writeByte r b).issued = s.issued := rfl
@[simp] theorem State.writeByte_fresh (s : State) (r : Nat) (b : Byte) : (s.writeByte r b).fresh = s.fresh := rfl
@[simp] theorem State.writeByte_nextId (s : State) (r : Nat) (b : Byte) : (s.writeByte r b).nextId = s.nextId := rfl
@[simp] theorem State.writeByte_focus (s : State) (r : Nat) (b : Byte) : (s.writeByte r b).focus = s.focus := rfl
@[simp] theorem State.writeByte_phase (s : State) (r : Nat) (b : Byte) : (s.writeByte r b).phase = s.phase := rfl
@[simp] theorem State.writeByte_turn (s : State) (r : Nat) (b : Byte) : (s.writeByte r b).turn = s.turn := rfl
@[simp] theorem State.writeByte_laneRegs (s : State) (r : Nat) (b : Byte) : (s.writeByte r b).laneRegs = s.laneRegs := rfl
@[simp] theorem State.writeByte_cores (s : State) (r : Nat) (b : Byte) : (s.writeByte r b).cores = s.cores := rfl
@[simp] theorem State.writeByte_parties (s : State) (r : Nat) (b : Byte) : (s.writeByte r b).parties = s.parties := rfl
@[simp] theorem State.writeByte_tags (s : State) (r : Nat) (b : Byte) : (s.writeByte r b).tags = s.tags := rfl
@[simp] theorem State.writeByte_poison (s : State) (r : Nat) (b : Byte) : (s.writeByte r b).poison = s.poison := rfl
@[simp] theorem State.writeByte_poolmap (s : State) (r : Nat) (b : Byte) : (s.writeByte r b).poolmap = s.poolmap := rfl
@[simp] theorem State.writeByte_pkgs (s : State) (r : Nat) (b : Byte) : (s.writeByte r b).pkgs = s.pkgs := rfl
@[simp] theorem State.writeByte_l2 (s : State) (r : Nat) (b : Byte) : (s.writeByte r b).l2 = s.l2 := rfl
@[simp] theorem State.writeByte_mts (s : State) (r : Nat) (b : Byte) : (s.writeByte r b).mts = s.mts := rfl
@[simp] theorem State.writeByte_remotes (s : State) (r : Nat) (b : Byte) : (s.writeByte r b).remotes = s.remotes := rfl
@[simp] theorem State.writeByte_plogs (s : State) (r : Nat) (b : Byte) : (s.writeByte r b).plogs = s.plogs := rfl
@[simp] theorem State.writeByte_plogReads (s : State) (r : Nat) (b : Byte) : (s.writeByte r b).plogReads = s.plogReads := rfl
@[simp] theorem State.writeByte_plogSeen (s : State) (r : Nat) (b : Byte) : (s.writeByte r b).plogSeen = s.plogSeen := rfl
@[simp] theorem State.writeByte_tlb (s : State) (r : Nat) (b : Byte) : (s.writeByte r b).tlb = s.tlb := rfl
@[simp] theorem State.writeByte_walks (s : State) (r : Nat) (b : Byte) : (s.writeByte r b).walks = s.walks := rfl
@[simp] theorem State.writeByte_walkFails (s : State) (r : Nat) (b : Byte) : (s.writeByte r b).walkFails = s.walkFails := rfl
@[simp] theorem State.writeByte_msix (s : State) (r : Nat) (b : Byte) : (s.writeByte r b).msix = s.msix := rfl
@[simp] theorem State.writeByte_saved (s : State) (r : Nat) (b : Byte) : (s.writeByte r b).saved = s.saved := rfl
@[simp] theorem State.writeByte_grids (s : State) (r : Nat) (b : Byte) : (s.writeByte r b).grids = s.grids := rfl
@[simp] theorem State.writeByte_holds (s : State) (r : Nat) (b : Byte) : (s.writeByte r b).holds = s.holds := rfl
@[simp] theorem State.writeByte_droops (s : State) (r : Nat) (b : Byte) : (s.writeByte r b).droops = s.droops := rfl
@[simp] theorem State.writeByte_bc (s : State) (r : Nat) (b : Byte) : (s.writeByte r b).bc = s.bc := rfl
@[simp] theorem State.writeByte_mailboxes (s : State) (r : Nat) (b : Byte) : (s.writeByte r b).mailboxes = s.mailboxes := rfl
@[simp] theorem State.writeByte_mailQ (s : State) (r : Nat) (b : Byte) : (s.writeByte r b).mailQ = s.mailQ := rfl
@[simp] theorem State.writeByte_own (s : State) (r : Nat) (b : Byte) : (s.writeByte r b).own = s.own := rfl
@[simp] theorem State.writeByte_fenced (s : State) (r : Nat) (b : Byte) : (s.writeByte r b).fenced = s.fenced := rfl
@[simp] theorem State.writeByte_misses (s : State) (r : Nat) (b : Byte) : (s.writeByte r b).misses = s.misses := rfl
@[simp] theorem State.writeByte_links (s : State) (r : Nat) (b : Byte) : (s.writeByte r b).links = s.links := rfl
@[simp] theorem State.writeByte_requests (s : State) (r : Nat) (b : Byte) : (s.writeByte r b).requests = s.requests := rfl
@[simp] theorem State.writeByte_windows (s : State) (r : Nat) (b : Byte) : (s.writeByte r b).windows = s.windows := rfl
@[simp] theorem State.writeByte_txIds (s : State) (r : Nat) (b : Byte) : (s.writeByte r b).txIds = s.txIds := rfl
@[simp] theorem State.writeByte_clocks (s : State) (r : Nat) (b : Byte) : (s.writeByte r b).clocks = s.clocks := rfl
@[simp] theorem State.writeByte_packets (s : State) (r : Nat) (b : Byte) : (s.writeByte r b).packets = s.packets := rfl
@[simp] theorem State.writeByte_flowRecs (s : State) (r : Nat) (b : Byte) : (s.writeByte r b).flowRecs = s.flowRecs := rfl

@[simp] theorem State.writeMem_now (s : State) (r : Nat) (bs : List Byte) : (s.writeMem r bs).now = s.now := rfl
@[simp] theorem State.writeMem_agenda (s : State) (r : Nat) (bs : List Byte) : (s.writeMem r bs).agenda = s.agenda := rfl
@[simp] theorem State.writeMem_pend (s : State) (r : Nat) (bs : List Byte) : (s.writeMem r bs).pend = s.pend := rfl
@[simp] theorem State.writeMem_sched (s : State) (r : Nat) (bs : List Byte) : (s.writeMem r bs).sched = s.sched := rfl
@[simp] theorem State.writeMem_evicts (s : State) (r : Nat) (bs : List Byte) : (s.writeMem r bs).evicts = s.evicts := rfl
@[simp] theorem State.writeMem_issued (s : State) (r : Nat) (bs : List Byte) : (s.writeMem r bs).issued = s.issued := rfl
@[simp] theorem State.writeMem_fresh (s : State) (r : Nat) (bs : List Byte) : (s.writeMem r bs).fresh = s.fresh := rfl
@[simp] theorem State.writeMem_nextId (s : State) (r : Nat) (bs : List Byte) : (s.writeMem r bs).nextId = s.nextId := rfl
@[simp] theorem State.writeMem_focus (s : State) (r : Nat) (bs : List Byte) : (s.writeMem r bs).focus = s.focus := rfl
@[simp] theorem State.writeMem_phase (s : State) (r : Nat) (bs : List Byte) : (s.writeMem r bs).phase = s.phase := rfl
@[simp] theorem State.writeMem_turn (s : State) (r : Nat) (bs : List Byte) : (s.writeMem r bs).turn = s.turn := rfl
@[simp] theorem State.writeMem_laneRegs (s : State) (r : Nat) (bs : List Byte) : (s.writeMem r bs).laneRegs = s.laneRegs := rfl
@[simp] theorem State.writeMem_cores (s : State) (r : Nat) (bs : List Byte) : (s.writeMem r bs).cores = s.cores := rfl
@[simp] theorem State.writeMem_parties (s : State) (r : Nat) (bs : List Byte) : (s.writeMem r bs).parties = s.parties := rfl
@[simp] theorem State.writeMem_tags (s : State) (r : Nat) (bs : List Byte) : (s.writeMem r bs).tags = s.tags := rfl
@[simp] theorem State.writeMem_poison (s : State) (r : Nat) (bs : List Byte) : (s.writeMem r bs).poison = s.poison := rfl
@[simp] theorem State.writeMem_poolmap (s : State) (r : Nat) (bs : List Byte) : (s.writeMem r bs).poolmap = s.poolmap := rfl
@[simp] theorem State.writeMem_pkgs (s : State) (r : Nat) (bs : List Byte) : (s.writeMem r bs).pkgs = s.pkgs := rfl
@[simp] theorem State.writeMem_l2 (s : State) (r : Nat) (bs : List Byte) : (s.writeMem r bs).l2 = s.l2 := rfl
@[simp] theorem State.writeMem_mts (s : State) (r : Nat) (bs : List Byte) : (s.writeMem r bs).mts = s.mts := rfl
@[simp] theorem State.writeMem_remotes (s : State) (r : Nat) (bs : List Byte) : (s.writeMem r bs).remotes = s.remotes := rfl
@[simp] theorem State.writeMem_plogs (s : State) (r : Nat) (bs : List Byte) : (s.writeMem r bs).plogs = s.plogs := rfl
@[simp] theorem State.writeMem_plogReads (s : State) (r : Nat) (bs : List Byte) : (s.writeMem r bs).plogReads = s.plogReads := rfl
@[simp] theorem State.writeMem_plogSeen (s : State) (r : Nat) (bs : List Byte) : (s.writeMem r bs).plogSeen = s.plogSeen := rfl
@[simp] theorem State.writeMem_tlb (s : State) (r : Nat) (bs : List Byte) : (s.writeMem r bs).tlb = s.tlb := rfl
@[simp] theorem State.writeMem_walks (s : State) (r : Nat) (bs : List Byte) : (s.writeMem r bs).walks = s.walks := rfl
@[simp] theorem State.writeMem_walkFails (s : State) (r : Nat) (bs : List Byte) : (s.writeMem r bs).walkFails = s.walkFails := rfl
@[simp] theorem State.writeMem_msix (s : State) (r : Nat) (bs : List Byte) : (s.writeMem r bs).msix = s.msix := rfl
@[simp] theorem State.writeMem_saved (s : State) (r : Nat) (bs : List Byte) : (s.writeMem r bs).saved = s.saved := rfl
@[simp] theorem State.writeMem_grids (s : State) (r : Nat) (bs : List Byte) : (s.writeMem r bs).grids = s.grids := rfl
@[simp] theorem State.writeMem_holds (s : State) (r : Nat) (bs : List Byte) : (s.writeMem r bs).holds = s.holds := rfl
@[simp] theorem State.writeMem_droops (s : State) (r : Nat) (bs : List Byte) : (s.writeMem r bs).droops = s.droops := rfl
@[simp] theorem State.writeMem_bc (s : State) (r : Nat) (bs : List Byte) : (s.writeMem r bs).bc = s.bc := rfl
@[simp] theorem State.writeMem_mailboxes (s : State) (r : Nat) (bs : List Byte) : (s.writeMem r bs).mailboxes = s.mailboxes := rfl
@[simp] theorem State.writeMem_mailQ (s : State) (r : Nat) (bs : List Byte) : (s.writeMem r bs).mailQ = s.mailQ := rfl
@[simp] theorem State.writeMem_own (s : State) (r : Nat) (bs : List Byte) : (s.writeMem r bs).own = s.own := rfl
@[simp] theorem State.writeMem_fenced (s : State) (r : Nat) (bs : List Byte) : (s.writeMem r bs).fenced = s.fenced := rfl
@[simp] theorem State.writeMem_misses (s : State) (r : Nat) (bs : List Byte) : (s.writeMem r bs).misses = s.misses := rfl
@[simp] theorem State.writeMem_links (s : State) (r : Nat) (bs : List Byte) : (s.writeMem r bs).links = s.links := rfl
@[simp] theorem State.writeMem_requests (s : State) (r : Nat) (bs : List Byte) : (s.writeMem r bs).requests = s.requests := rfl
@[simp] theorem State.writeMem_windows (s : State) (r : Nat) (bs : List Byte) : (s.writeMem r bs).windows = s.windows := rfl
@[simp] theorem State.writeMem_txIds (s : State) (r : Nat) (bs : List Byte) : (s.writeMem r bs).txIds = s.txIds := rfl
@[simp] theorem State.writeMem_clocks (s : State) (r : Nat) (bs : List Byte) : (s.writeMem r bs).clocks = s.clocks := rfl
@[simp] theorem State.writeMem_packets (s : State) (r : Nat) (bs : List Byte) : (s.writeMem r bs).packets = s.packets := rfl
@[simp] theorem State.writeMem_flowRecs (s : State) (r : Nat) (bs : List Byte) : (s.writeMem r bs).flowRecs = s.flowRecs := rfl

@[simp] theorem State.setTag_now (s : State) (g : Nat) (t : BitVec 4) : (s.setTag g t).now = s.now := rfl
@[simp] theorem State.setTag_agenda (s : State) (g : Nat) (t : BitVec 4) : (s.setTag g t).agenda = s.agenda := rfl
@[simp] theorem State.setTag_pend (s : State) (g : Nat) (t : BitVec 4) : (s.setTag g t).pend = s.pend := rfl
@[simp] theorem State.setTag_sched (s : State) (g : Nat) (t : BitVec 4) : (s.setTag g t).sched = s.sched := rfl
@[simp] theorem State.setTag_evicts (s : State) (g : Nat) (t : BitVec 4) : (s.setTag g t).evicts = s.evicts := rfl
@[simp] theorem State.setTag_issued (s : State) (g : Nat) (t : BitVec 4) : (s.setTag g t).issued = s.issued := rfl
@[simp] theorem State.setTag_fresh (s : State) (g : Nat) (t : BitVec 4) : (s.setTag g t).fresh = s.fresh := rfl
@[simp] theorem State.setTag_nextId (s : State) (g : Nat) (t : BitVec 4) : (s.setTag g t).nextId = s.nextId := rfl
@[simp] theorem State.setTag_focus (s : State) (g : Nat) (t : BitVec 4) : (s.setTag g t).focus = s.focus := rfl
@[simp] theorem State.setTag_phase (s : State) (g : Nat) (t : BitVec 4) : (s.setTag g t).phase = s.phase := rfl
@[simp] theorem State.setTag_turn (s : State) (g : Nat) (t : BitVec 4) : (s.setTag g t).turn = s.turn := rfl
@[simp] theorem State.setTag_laneRegs (s : State) (g : Nat) (t : BitVec 4) : (s.setTag g t).laneRegs = s.laneRegs := rfl
@[simp] theorem State.setTag_cores (s : State) (g : Nat) (t : BitVec 4) : (s.setTag g t).cores = s.cores := rfl
@[simp] theorem State.setTag_parties (s : State) (g : Nat) (t : BitVec 4) : (s.setTag g t).parties = s.parties := rfl
@[simp] theorem State.setTag_mem (s : State) (g : Nat) (t : BitVec 4) : (s.setTag g t).mem = s.mem := rfl
@[simp] theorem State.setTag_poison (s : State) (g : Nat) (t : BitVec 4) : (s.setTag g t).poison = s.poison := rfl
@[simp] theorem State.setTag_poolmap (s : State) (g : Nat) (t : BitVec 4) : (s.setTag g t).poolmap = s.poolmap := rfl
@[simp] theorem State.setTag_pkgs (s : State) (g : Nat) (t : BitVec 4) : (s.setTag g t).pkgs = s.pkgs := rfl
@[simp] theorem State.setTag_l2 (s : State) (g : Nat) (t : BitVec 4) : (s.setTag g t).l2 = s.l2 := rfl
@[simp] theorem State.setTag_mts (s : State) (g : Nat) (t : BitVec 4) : (s.setTag g t).mts = s.mts := rfl
@[simp] theorem State.setTag_remotes (s : State) (g : Nat) (t : BitVec 4) : (s.setTag g t).remotes = s.remotes := rfl
@[simp] theorem State.setTag_plogs (s : State) (g : Nat) (t : BitVec 4) : (s.setTag g t).plogs = s.plogs := rfl
@[simp] theorem State.setTag_plogReads (s : State) (g : Nat) (t : BitVec 4) : (s.setTag g t).plogReads = s.plogReads := rfl
@[simp] theorem State.setTag_plogSeen (s : State) (g : Nat) (t : BitVec 4) : (s.setTag g t).plogSeen = s.plogSeen := rfl
@[simp] theorem State.setTag_tlb (s : State) (g : Nat) (t : BitVec 4) : (s.setTag g t).tlb = s.tlb := rfl
@[simp] theorem State.setTag_walks (s : State) (g : Nat) (t : BitVec 4) : (s.setTag g t).walks = s.walks := rfl
@[simp] theorem State.setTag_walkFails (s : State) (g : Nat) (t : BitVec 4) : (s.setTag g t).walkFails = s.walkFails := rfl
@[simp] theorem State.setTag_msix (s : State) (g : Nat) (t : BitVec 4) : (s.setTag g t).msix = s.msix := rfl
@[simp] theorem State.setTag_saved (s : State) (g : Nat) (t : BitVec 4) : (s.setTag g t).saved = s.saved := rfl
@[simp] theorem State.setTag_grids (s : State) (g : Nat) (t : BitVec 4) : (s.setTag g t).grids = s.grids := rfl
@[simp] theorem State.setTag_holds (s : State) (g : Nat) (t : BitVec 4) : (s.setTag g t).holds = s.holds := rfl
@[simp] theorem State.setTag_droops (s : State) (g : Nat) (t : BitVec 4) : (s.setTag g t).droops = s.droops := rfl
@[simp] theorem State.setTag_bc (s : State) (g : Nat) (t : BitVec 4) : (s.setTag g t).bc = s.bc := rfl
@[simp] theorem State.setTag_mailboxes (s : State) (g : Nat) (t : BitVec 4) : (s.setTag g t).mailboxes = s.mailboxes := rfl
@[simp] theorem State.setTag_mailQ (s : State) (g : Nat) (t : BitVec 4) : (s.setTag g t).mailQ = s.mailQ := rfl
@[simp] theorem State.setTag_own (s : State) (g : Nat) (t : BitVec 4) : (s.setTag g t).own = s.own := rfl
@[simp] theorem State.setTag_fenced (s : State) (g : Nat) (t : BitVec 4) : (s.setTag g t).fenced = s.fenced := rfl
@[simp] theorem State.setTag_misses (s : State) (g : Nat) (t : BitVec 4) : (s.setTag g t).misses = s.misses := rfl
@[simp] theorem State.setTag_links (s : State) (g : Nat) (t : BitVec 4) : (s.setTag g t).links = s.links := rfl
@[simp] theorem State.setTag_requests (s : State) (g : Nat) (t : BitVec 4) : (s.setTag g t).requests = s.requests := rfl
@[simp] theorem State.setTag_windows (s : State) (g : Nat) (t : BitVec 4) : (s.setTag g t).windows = s.windows := rfl
@[simp] theorem State.setTag_txIds (s : State) (g : Nat) (t : BitVec 4) : (s.setTag g t).txIds = s.txIds := rfl
@[simp] theorem State.setTag_clocks (s : State) (g : Nat) (t : BitVec 4) : (s.setTag g t).clocks = s.clocks := rfl
@[simp] theorem State.setTag_packets (s : State) (g : Nat) (t : BitVec 4) : (s.setTag g t).packets = s.packets := rfl
@[simp] theorem State.setTag_flowRecs (s : State) (g : Nat) (t : BitVec 4) : (s.setTag g t).flowRecs = s.flowRecs := rfl

@[simp] theorem State.setPoison_now (s : State) (k : Nat) (b : Bool) : (s.setPoison k b).now = s.now := rfl
@[simp] theorem State.setPoison_agenda (s : State) (k : Nat) (b : Bool) : (s.setPoison k b).agenda = s.agenda := rfl
@[simp] theorem State.setPoison_pend (s : State) (k : Nat) (b : Bool) : (s.setPoison k b).pend = s.pend := rfl
@[simp] theorem State.setPoison_sched (s : State) (k : Nat) (b : Bool) : (s.setPoison k b).sched = s.sched := rfl
@[simp] theorem State.setPoison_evicts (s : State) (k : Nat) (b : Bool) : (s.setPoison k b).evicts = s.evicts := rfl
@[simp] theorem State.setPoison_issued (s : State) (k : Nat) (b : Bool) : (s.setPoison k b).issued = s.issued := rfl
@[simp] theorem State.setPoison_fresh (s : State) (k : Nat) (b : Bool) : (s.setPoison k b).fresh = s.fresh := rfl
@[simp] theorem State.setPoison_nextId (s : State) (k : Nat) (b : Bool) : (s.setPoison k b).nextId = s.nextId := rfl
@[simp] theorem State.setPoison_focus (s : State) (k : Nat) (b : Bool) : (s.setPoison k b).focus = s.focus := rfl
@[simp] theorem State.setPoison_phase (s : State) (k : Nat) (b : Bool) : (s.setPoison k b).phase = s.phase := rfl
@[simp] theorem State.setPoison_turn (s : State) (k : Nat) (b : Bool) : (s.setPoison k b).turn = s.turn := rfl
@[simp] theorem State.setPoison_laneRegs (s : State) (k : Nat) (b : Bool) : (s.setPoison k b).laneRegs = s.laneRegs := rfl
@[simp] theorem State.setPoison_cores (s : State) (k : Nat) (b : Bool) : (s.setPoison k b).cores = s.cores := rfl
@[simp] theorem State.setPoison_parties (s : State) (k : Nat) (b : Bool) : (s.setPoison k b).parties = s.parties := rfl
@[simp] theorem State.setPoison_mem (s : State) (k : Nat) (b : Bool) : (s.setPoison k b).mem = s.mem := rfl
@[simp] theorem State.setPoison_tags (s : State) (k : Nat) (b : Bool) : (s.setPoison k b).tags = s.tags := rfl
@[simp] theorem State.setPoison_poolmap (s : State) (k : Nat) (b : Bool) : (s.setPoison k b).poolmap = s.poolmap := rfl
@[simp] theorem State.setPoison_pkgs (s : State) (k : Nat) (b : Bool) : (s.setPoison k b).pkgs = s.pkgs := rfl
@[simp] theorem State.setPoison_l2 (s : State) (k : Nat) (b : Bool) : (s.setPoison k b).l2 = s.l2 := rfl
@[simp] theorem State.setPoison_mts (s : State) (k : Nat) (b : Bool) : (s.setPoison k b).mts = s.mts := rfl
@[simp] theorem State.setPoison_remotes (s : State) (k : Nat) (b : Bool) : (s.setPoison k b).remotes = s.remotes := rfl
@[simp] theorem State.setPoison_plogs (s : State) (k : Nat) (b : Bool) : (s.setPoison k b).plogs = s.plogs := rfl
@[simp] theorem State.setPoison_plogReads (s : State) (k : Nat) (b : Bool) : (s.setPoison k b).plogReads = s.plogReads := rfl
@[simp] theorem State.setPoison_plogSeen (s : State) (k : Nat) (b : Bool) : (s.setPoison k b).plogSeen = s.plogSeen := rfl
@[simp] theorem State.setPoison_tlb (s : State) (k : Nat) (b : Bool) : (s.setPoison k b).tlb = s.tlb := rfl
@[simp] theorem State.setPoison_walks (s : State) (k : Nat) (b : Bool) : (s.setPoison k b).walks = s.walks := rfl
@[simp] theorem State.setPoison_walkFails (s : State) (k : Nat) (b : Bool) : (s.setPoison k b).walkFails = s.walkFails := rfl
@[simp] theorem State.setPoison_msix (s : State) (k : Nat) (b : Bool) : (s.setPoison k b).msix = s.msix := rfl
@[simp] theorem State.setPoison_saved (s : State) (k : Nat) (b : Bool) : (s.setPoison k b).saved = s.saved := rfl
@[simp] theorem State.setPoison_grids (s : State) (k : Nat) (b : Bool) : (s.setPoison k b).grids = s.grids := rfl
@[simp] theorem State.setPoison_holds (s : State) (k : Nat) (b : Bool) : (s.setPoison k b).holds = s.holds := rfl
@[simp] theorem State.setPoison_droops (s : State) (k : Nat) (b : Bool) : (s.setPoison k b).droops = s.droops := rfl
@[simp] theorem State.setPoison_bc (s : State) (k : Nat) (b : Bool) : (s.setPoison k b).bc = s.bc := rfl
@[simp] theorem State.setPoison_mailboxes (s : State) (k : Nat) (b : Bool) : (s.setPoison k b).mailboxes = s.mailboxes := rfl
@[simp] theorem State.setPoison_mailQ (s : State) (k : Nat) (b : Bool) : (s.setPoison k b).mailQ = s.mailQ := rfl
@[simp] theorem State.setPoison_own (s : State) (k : Nat) (b : Bool) : (s.setPoison k b).own = s.own := rfl
@[simp] theorem State.setPoison_fenced (s : State) (k : Nat) (b : Bool) : (s.setPoison k b).fenced = s.fenced := rfl
@[simp] theorem State.setPoison_misses (s : State) (k : Nat) (b : Bool) : (s.setPoison k b).misses = s.misses := rfl
@[simp] theorem State.setPoison_links (s : State) (k : Nat) (b : Bool) : (s.setPoison k b).links = s.links := rfl
@[simp] theorem State.setPoison_requests (s : State) (k : Nat) (b : Bool) : (s.setPoison k b).requests = s.requests := rfl
@[simp] theorem State.setPoison_windows (s : State) (k : Nat) (b : Bool) : (s.setPoison k b).windows = s.windows := rfl
@[simp] theorem State.setPoison_txIds (s : State) (k : Nat) (b : Bool) : (s.setPoison k b).txIds = s.txIds := rfl
@[simp] theorem State.setPoison_clocks (s : State) (k : Nat) (b : Bool) : (s.setPoison k b).clocks = s.clocks := rfl
@[simp] theorem State.setPoison_packets (s : State) (k : Nat) (b : Bool) : (s.setPoison k b).packets = s.packets := rfl
@[simp] theorem State.setPoison_flowRecs (s : State) (k : Nat) (b : Bool) : (s.setPoison k b).flowRecs = s.flowRecs := rfl

-- a party

@[simp] theorem Party.setStrand_grid (p : Party) (i : Nat) (st : Strand) : (p.setStrand i st).grid = p.grid := rfl
@[simp] theorem Party.setStrand_index (p : Party) (i : Nat) (st : Strand) : (p.setStrand i st).index = p.index := rfl
@[simp] theorem Party.setStrand_collective (p : Party) (i : Nat) (st : Strand) : (p.setStrand i st).collective = p.collective := rfl
@[simp] theorem Party.setStrand_movable (p : Party) (i : Nat) (st : Strand) : (p.setStrand i st).movable = p.movable := rfl
@[simp] theorem Party.setStrand_priv (p : Party) (i : Nat) (st : Strand) : (p.setStrand i st).priv = p.priv := rfl
@[simp] theorem Party.setStrand_root (p : Party) (i : Nat) (st : Strand) : (p.setStrand i st).root = p.root := rfl
@[simp] theorem Party.setStrand_scratchSize (p : Party) (i : Nat) (st : Strand) : (p.setStrand i st).scratchSize = p.scratchSize := rfl
@[simp] theorem Party.setStrand_shadows (p : Party) (i : Nat) (st : Strand) : (p.setStrand i st).shadows = p.shadows := rfl
@[simp] theorem Party.setStrand_status (p : Party) (i : Nat) (st : Strand) : (p.setStrand i st).status = p.status := rfl
@[simp] theorem Party.setStrand_q0 (p : Party) (i : Nat) (st : Strand) : (p.setStrand i st).q0 = p.q0 := rfl
@[simp] theorem Party.setStrand_q1in (p : Party) (i : Nat) (st : Strand) : (p.setStrand i st).q1in = p.q1in := rfl
@[simp] theorem Party.setStrand_q1out (p : Party) (i : Nat) (st : Strand) : (p.setStrand i st).q1out = p.q1out := rfl
@[simp] theorem Party.setStrand_q5 (p : Party) (i : Nat) (st : Strand) : (p.setStrand i st).q5 = p.q5 := rfl
@[simp] theorem Party.setStrand_newQ (p : Party) (i : Nat) (st : Strand) : (p.setStrand i st).newQ = p.newQ := rfl
@[simp] theorem Party.setStrand_q2 (p : Party) (i : Nat) (st : Strand) : (p.setStrand i st).q2 = p.q2 := rfl
@[simp] theorem Party.setStrand_dsq (p : Party) (i : Nat) (st : Strand) : (p.setStrand i st).dsq = p.dsq := rfl
@[simp] theorem Party.setStrand_q4 (p : Party) (i : Nat) (st : Strand) : (p.setStrand i st).q4 = p.q4 := rfl
@[simp] theorem Party.setStrand_q4lost (p : Party) (i : Nat) (st : Strand) : (p.setStrand i st).q4lost = p.q4lost := rfl
@[simp] theorem Party.setStrand_bars (p : Party) (i : Nat) (st : Strand) : (p.setStrand i st).bars = p.bars := rfl
@[simp] theorem Party.setStrand_thnd (p : Party) (i : Nat) (st : Strand) : (p.setStrand i st).thnd = p.thnd := rfl
@[simp] theorem Party.setStrand_flowOpen (p : Party) (i : Nat) (st : Strand) : (p.setStrand i st).flowOpen = p.flowOpen := rfl
@[simp] theorem Party.setStrand_flowOrd (p : Party) (i : Nat) (st : Strand) : (p.setStrand i st).flowOrd = p.flowOrd := rfl
@[simp] theorem Party.setStrand_scopes (p : Party) (i : Nat) (st : Strand) : (p.setStrand i st).scopes = p.scopes := rfl
@[simp] theorem Party.setStrand_scratch (p : Party) (i : Nat) (st : Strand) : (p.setStrand i st).scratch = p.scratch := rfl
@[simp] theorem Party.setStrand_swz (p : Party) (i : Nat) (st : Strand) : (p.setStrand i st).swz = p.swz := rfl
@[simp] theorem Party.setStrand_spoison (p : Party) (i : Nat) (st : Strand) : (p.setStrand i st).spoison = p.spoison := rfl
@[simp] theorem Party.setStrand_accesses (p : Party) (i : Nat) (st : Strand) : (p.setStrand i st).accesses = p.accesses := rfl
@[simp] theorem Party.setStrand_producers (p : Party) (i : Nat) (st : Strand) : (p.setStrand i st).producers = p.producers := rfl
@[simp] theorem Party.setStrand_cmds (p : Party) (i : Nat) (st : Strand) : (p.setStrand i st).cmds = p.cmds := rfl
@[simp] theorem Party.setStrand_fixups (p : Party) (i : Nat) (st : Strand) : (p.setStrand i st).fixups = p.fixups := rfl
@[simp] theorem Party.setStrand_serial (p : Party) (i : Nat) (st : Strand) : (p.setStrand i st).serial = p.serial := rfl
@[simp] theorem Party.setStrand_seq (p : Party) (i : Nat) (st : Strand) : (p.setStrand i st).seq = p.seq := rfl
@[simp] theorem Party.setStrand_halt (p : Party) (i : Nat) (st : Strand) : (p.setStrand i st).halt = p.halt := rfl
@[simp] theorem Party.setStrand_dbg (p : Party) (i : Nat) (st : Strand) : (p.setStrand i st).dbg = p.dbg := rfl
@[simp] theorem Party.setStrand_dbgWant (p : Party) (i : Nat) (st : Strand) : (p.setStrand i st).dbgWant = p.dbgWant := rfl
@[simp] theorem Party.setStrand_items (p : Party) (i : Nat) (st : Strand) : (p.setStrand i st).items = p.items := rfl
@[simp] theorem Party.setStrand_batches (p : Party) (i : Nat) (st : Strand) : (p.setStrand i st).batches = p.batches := rfl
@[simp] theorem Party.setStrand_flows (p : Party) (i : Nat) (st : Strand) : (p.setStrand i st).flows = p.flows := rfl
@[simp] theorem Party.setStrand_txas (p : Party) (i : Nat) (st : Strand) : (p.setStrand i st).txas = p.txas := rfl
@[simp] theorem Party.setStrand_aborts (p : Party) (i : Nat) (st : Strand) : (p.setStrand i st).aborts = p.aborts := rfl

@[simp] theorem Party.modStrand_grid (p : Party) (i : Nat) (f : Strand → Strand) : (p.modStrand i f).grid = p.grid := rfl
@[simp] theorem Party.modStrand_index (p : Party) (i : Nat) (f : Strand → Strand) : (p.modStrand i f).index = p.index := rfl
@[simp] theorem Party.modStrand_collective (p : Party) (i : Nat) (f : Strand → Strand) : (p.modStrand i f).collective = p.collective := rfl
@[simp] theorem Party.modStrand_movable (p : Party) (i : Nat) (f : Strand → Strand) : (p.modStrand i f).movable = p.movable := rfl
@[simp] theorem Party.modStrand_priv (p : Party) (i : Nat) (f : Strand → Strand) : (p.modStrand i f).priv = p.priv := rfl
@[simp] theorem Party.modStrand_root (p : Party) (i : Nat) (f : Strand → Strand) : (p.modStrand i f).root = p.root := rfl
@[simp] theorem Party.modStrand_scratchSize (p : Party) (i : Nat) (f : Strand → Strand) : (p.modStrand i f).scratchSize = p.scratchSize := rfl
@[simp] theorem Party.modStrand_shadows (p : Party) (i : Nat) (f : Strand → Strand) : (p.modStrand i f).shadows = p.shadows := rfl
@[simp] theorem Party.modStrand_status (p : Party) (i : Nat) (f : Strand → Strand) : (p.modStrand i f).status = p.status := rfl
@[simp] theorem Party.modStrand_q0 (p : Party) (i : Nat) (f : Strand → Strand) : (p.modStrand i f).q0 = p.q0 := rfl
@[simp] theorem Party.modStrand_q1in (p : Party) (i : Nat) (f : Strand → Strand) : (p.modStrand i f).q1in = p.q1in := rfl
@[simp] theorem Party.modStrand_q1out (p : Party) (i : Nat) (f : Strand → Strand) : (p.modStrand i f).q1out = p.q1out := rfl
@[simp] theorem Party.modStrand_q5 (p : Party) (i : Nat) (f : Strand → Strand) : (p.modStrand i f).q5 = p.q5 := rfl
@[simp] theorem Party.modStrand_newQ (p : Party) (i : Nat) (f : Strand → Strand) : (p.modStrand i f).newQ = p.newQ := rfl
@[simp] theorem Party.modStrand_q2 (p : Party) (i : Nat) (f : Strand → Strand) : (p.modStrand i f).q2 = p.q2 := rfl
@[simp] theorem Party.modStrand_dsq (p : Party) (i : Nat) (f : Strand → Strand) : (p.modStrand i f).dsq = p.dsq := rfl
@[simp] theorem Party.modStrand_q4 (p : Party) (i : Nat) (f : Strand → Strand) : (p.modStrand i f).q4 = p.q4 := rfl
@[simp] theorem Party.modStrand_q4lost (p : Party) (i : Nat) (f : Strand → Strand) : (p.modStrand i f).q4lost = p.q4lost := rfl
@[simp] theorem Party.modStrand_bars (p : Party) (i : Nat) (f : Strand → Strand) : (p.modStrand i f).bars = p.bars := rfl
@[simp] theorem Party.modStrand_thnd (p : Party) (i : Nat) (f : Strand → Strand) : (p.modStrand i f).thnd = p.thnd := rfl
@[simp] theorem Party.modStrand_flowOpen (p : Party) (i : Nat) (f : Strand → Strand) : (p.modStrand i f).flowOpen = p.flowOpen := rfl
@[simp] theorem Party.modStrand_flowOrd (p : Party) (i : Nat) (f : Strand → Strand) : (p.modStrand i f).flowOrd = p.flowOrd := rfl
@[simp] theorem Party.modStrand_scopes (p : Party) (i : Nat) (f : Strand → Strand) : (p.modStrand i f).scopes = p.scopes := rfl
@[simp] theorem Party.modStrand_scratch (p : Party) (i : Nat) (f : Strand → Strand) : (p.modStrand i f).scratch = p.scratch := rfl
@[simp] theorem Party.modStrand_swz (p : Party) (i : Nat) (f : Strand → Strand) : (p.modStrand i f).swz = p.swz := rfl
@[simp] theorem Party.modStrand_spoison (p : Party) (i : Nat) (f : Strand → Strand) : (p.modStrand i f).spoison = p.spoison := rfl
@[simp] theorem Party.modStrand_accesses (p : Party) (i : Nat) (f : Strand → Strand) : (p.modStrand i f).accesses = p.accesses := rfl
@[simp] theorem Party.modStrand_producers (p : Party) (i : Nat) (f : Strand → Strand) : (p.modStrand i f).producers = p.producers := rfl
@[simp] theorem Party.modStrand_cmds (p : Party) (i : Nat) (f : Strand → Strand) : (p.modStrand i f).cmds = p.cmds := rfl
@[simp] theorem Party.modStrand_fixups (p : Party) (i : Nat) (f : Strand → Strand) : (p.modStrand i f).fixups = p.fixups := rfl
@[simp] theorem Party.modStrand_serial (p : Party) (i : Nat) (f : Strand → Strand) : (p.modStrand i f).serial = p.serial := rfl
@[simp] theorem Party.modStrand_seq (p : Party) (i : Nat) (f : Strand → Strand) : (p.modStrand i f).seq = p.seq := rfl
@[simp] theorem Party.modStrand_halt (p : Party) (i : Nat) (f : Strand → Strand) : (p.modStrand i f).halt = p.halt := rfl
@[simp] theorem Party.modStrand_dbg (p : Party) (i : Nat) (f : Strand → Strand) : (p.modStrand i f).dbg = p.dbg := rfl
@[simp] theorem Party.modStrand_dbgWant (p : Party) (i : Nat) (f : Strand → Strand) : (p.modStrand i f).dbgWant = p.dbgWant := rfl
@[simp] theorem Party.modStrand_items (p : Party) (i : Nat) (f : Strand → Strand) : (p.modStrand i f).items = p.items := rfl
@[simp] theorem Party.modStrand_batches (p : Party) (i : Nat) (f : Strand → Strand) : (p.modStrand i f).batches = p.batches := rfl
@[simp] theorem Party.modStrand_flows (p : Party) (i : Nat) (f : Strand → Strand) : (p.modStrand i f).flows = p.flows := rfl
@[simp] theorem Party.modStrand_txas (p : Party) (i : Nat) (f : Strand → Strand) : (p.modStrand i f).txas = p.txas := rfl
@[simp] theorem Party.modStrand_aborts (p : Party) (i : Nat) (f : Strand → Strand) : (p.modStrand i f).aborts = p.aborts := rfl

@[simp] theorem Party.modSlot_grid (p : Party) (w : SlotRef) (f : Slot → Slot) : (p.modSlot w f).grid = p.grid := rfl
@[simp] theorem Party.modSlot_index (p : Party) (w : SlotRef) (f : Slot → Slot) : (p.modSlot w f).index = p.index := rfl
@[simp] theorem Party.modSlot_collective (p : Party) (w : SlotRef) (f : Slot → Slot) : (p.modSlot w f).collective = p.collective := rfl
@[simp] theorem Party.modSlot_movable (p : Party) (w : SlotRef) (f : Slot → Slot) : (p.modSlot w f).movable = p.movable := rfl
@[simp] theorem Party.modSlot_priv (p : Party) (w : SlotRef) (f : Slot → Slot) : (p.modSlot w f).priv = p.priv := rfl
@[simp] theorem Party.modSlot_root (p : Party) (w : SlotRef) (f : Slot → Slot) : (p.modSlot w f).root = p.root := rfl
@[simp] theorem Party.modSlot_scratchSize (p : Party) (w : SlotRef) (f : Slot → Slot) : (p.modSlot w f).scratchSize = p.scratchSize := rfl
@[simp] theorem Party.modSlot_shadows (p : Party) (w : SlotRef) (f : Slot → Slot) : (p.modSlot w f).shadows = p.shadows := rfl
@[simp] theorem Party.modSlot_status (p : Party) (w : SlotRef) (f : Slot → Slot) : (p.modSlot w f).status = p.status := rfl
@[simp] theorem Party.modSlot_q0 (p : Party) (w : SlotRef) (f : Slot → Slot) : (p.modSlot w f).q0 = p.q0 := rfl
@[simp] theorem Party.modSlot_q1in (p : Party) (w : SlotRef) (f : Slot → Slot) : (p.modSlot w f).q1in = p.q1in := rfl
@[simp] theorem Party.modSlot_q1out (p : Party) (w : SlotRef) (f : Slot → Slot) : (p.modSlot w f).q1out = p.q1out := rfl
@[simp] theorem Party.modSlot_q5 (p : Party) (w : SlotRef) (f : Slot → Slot) : (p.modSlot w f).q5 = p.q5 := rfl
@[simp] theorem Party.modSlot_newQ (p : Party) (w : SlotRef) (f : Slot → Slot) : (p.modSlot w f).newQ = p.newQ := rfl
@[simp] theorem Party.modSlot_q2 (p : Party) (w : SlotRef) (f : Slot → Slot) : (p.modSlot w f).q2 = p.q2 := rfl
@[simp] theorem Party.modSlot_dsq (p : Party) (w : SlotRef) (f : Slot → Slot) : (p.modSlot w f).dsq = p.dsq := rfl
@[simp] theorem Party.modSlot_q4 (p : Party) (w : SlotRef) (f : Slot → Slot) : (p.modSlot w f).q4 = p.q4 := rfl
@[simp] theorem Party.modSlot_q4lost (p : Party) (w : SlotRef) (f : Slot → Slot) : (p.modSlot w f).q4lost = p.q4lost := rfl
@[simp] theorem Party.modSlot_bars (p : Party) (w : SlotRef) (f : Slot → Slot) : (p.modSlot w f).bars = p.bars := rfl
@[simp] theorem Party.modSlot_thnd (p : Party) (w : SlotRef) (f : Slot → Slot) : (p.modSlot w f).thnd = p.thnd := rfl
@[simp] theorem Party.modSlot_flowOpen (p : Party) (w : SlotRef) (f : Slot → Slot) : (p.modSlot w f).flowOpen = p.flowOpen := rfl
@[simp] theorem Party.modSlot_flowOrd (p : Party) (w : SlotRef) (f : Slot → Slot) : (p.modSlot w f).flowOrd = p.flowOrd := rfl
@[simp] theorem Party.modSlot_scopes (p : Party) (w : SlotRef) (f : Slot → Slot) : (p.modSlot w f).scopes = p.scopes := rfl
@[simp] theorem Party.modSlot_scratch (p : Party) (w : SlotRef) (f : Slot → Slot) : (p.modSlot w f).scratch = p.scratch := rfl
@[simp] theorem Party.modSlot_swz (p : Party) (w : SlotRef) (f : Slot → Slot) : (p.modSlot w f).swz = p.swz := rfl
@[simp] theorem Party.modSlot_spoison (p : Party) (w : SlotRef) (f : Slot → Slot) : (p.modSlot w f).spoison = p.spoison := rfl
@[simp] theorem Party.modSlot_accesses (p : Party) (w : SlotRef) (f : Slot → Slot) : (p.modSlot w f).accesses = p.accesses := rfl
@[simp] theorem Party.modSlot_producers (p : Party) (w : SlotRef) (f : Slot → Slot) : (p.modSlot w f).producers = p.producers := rfl
@[simp] theorem Party.modSlot_cmds (p : Party) (w : SlotRef) (f : Slot → Slot) : (p.modSlot w f).cmds = p.cmds := rfl
@[simp] theorem Party.modSlot_fixups (p : Party) (w : SlotRef) (f : Slot → Slot) : (p.modSlot w f).fixups = p.fixups := rfl
@[simp] theorem Party.modSlot_serial (p : Party) (w : SlotRef) (f : Slot → Slot) : (p.modSlot w f).serial = p.serial := rfl
@[simp] theorem Party.modSlot_seq (p : Party) (w : SlotRef) (f : Slot → Slot) : (p.modSlot w f).seq = p.seq := rfl
@[simp] theorem Party.modSlot_halt (p : Party) (w : SlotRef) (f : Slot → Slot) : (p.modSlot w f).halt = p.halt := rfl
@[simp] theorem Party.modSlot_dbg (p : Party) (w : SlotRef) (f : Slot → Slot) : (p.modSlot w f).dbg = p.dbg := rfl
@[simp] theorem Party.modSlot_dbgWant (p : Party) (w : SlotRef) (f : Slot → Slot) : (p.modSlot w f).dbgWant = p.dbgWant := rfl
@[simp] theorem Party.modSlot_items (p : Party) (w : SlotRef) (f : Slot → Slot) : (p.modSlot w f).items = p.items := rfl
@[simp] theorem Party.modSlot_batches (p : Party) (w : SlotRef) (f : Slot → Slot) : (p.modSlot w f).batches = p.batches := rfl
@[simp] theorem Party.modSlot_flows (p : Party) (w : SlotRef) (f : Slot → Slot) : (p.modSlot w f).flows = p.flows := rfl
@[simp] theorem Party.modSlot_txas (p : Party) (w : SlotRef) (f : Slot → Slot) : (p.modSlot w f).txas = p.txas := rfl
@[simp] theorem Party.modSlot_aborts (p : Party) (w : SlotRef) (f : Slot → Slot) : (p.modSlot w f).aborts = p.aborts := rfl

@[simp] theorem Party.modSeq_grid (p : Party) (f : Sequencer → Sequencer) : (p.modSeq f).grid = p.grid := rfl
@[simp] theorem Party.modSeq_index (p : Party) (f : Sequencer → Sequencer) : (p.modSeq f).index = p.index := rfl
@[simp] theorem Party.modSeq_collective (p : Party) (f : Sequencer → Sequencer) : (p.modSeq f).collective = p.collective := rfl
@[simp] theorem Party.modSeq_movable (p : Party) (f : Sequencer → Sequencer) : (p.modSeq f).movable = p.movable := rfl
@[simp] theorem Party.modSeq_priv (p : Party) (f : Sequencer → Sequencer) : (p.modSeq f).priv = p.priv := rfl
@[simp] theorem Party.modSeq_root (p : Party) (f : Sequencer → Sequencer) : (p.modSeq f).root = p.root := rfl
@[simp] theorem Party.modSeq_scratchSize (p : Party) (f : Sequencer → Sequencer) : (p.modSeq f).scratchSize = p.scratchSize := rfl
@[simp] theorem Party.modSeq_shadows (p : Party) (f : Sequencer → Sequencer) : (p.modSeq f).shadows = p.shadows := rfl
@[simp] theorem Party.modSeq_status (p : Party) (f : Sequencer → Sequencer) : (p.modSeq f).status = p.status := rfl
@[simp] theorem Party.modSeq_strands (p : Party) (f : Sequencer → Sequencer) : (p.modSeq f).strands = p.strands := rfl
@[simp] theorem Party.modSeq_q0 (p : Party) (f : Sequencer → Sequencer) : (p.modSeq f).q0 = p.q0 := rfl
@[simp] theorem Party.modSeq_q1in (p : Party) (f : Sequencer → Sequencer) : (p.modSeq f).q1in = p.q1in := rfl
@[simp] theorem Party.modSeq_q1out (p : Party) (f : Sequencer → Sequencer) : (p.modSeq f).q1out = p.q1out := rfl
@[simp] theorem Party.modSeq_q5 (p : Party) (f : Sequencer → Sequencer) : (p.modSeq f).q5 = p.q5 := rfl
@[simp] theorem Party.modSeq_newQ (p : Party) (f : Sequencer → Sequencer) : (p.modSeq f).newQ = p.newQ := rfl
@[simp] theorem Party.modSeq_q2 (p : Party) (f : Sequencer → Sequencer) : (p.modSeq f).q2 = p.q2 := rfl
@[simp] theorem Party.modSeq_dsq (p : Party) (f : Sequencer → Sequencer) : (p.modSeq f).dsq = p.dsq := rfl
@[simp] theorem Party.modSeq_q4 (p : Party) (f : Sequencer → Sequencer) : (p.modSeq f).q4 = p.q4 := rfl
@[simp] theorem Party.modSeq_q4lost (p : Party) (f : Sequencer → Sequencer) : (p.modSeq f).q4lost = p.q4lost := rfl
@[simp] theorem Party.modSeq_bars (p : Party) (f : Sequencer → Sequencer) : (p.modSeq f).bars = p.bars := rfl
@[simp] theorem Party.modSeq_thnd (p : Party) (f : Sequencer → Sequencer) : (p.modSeq f).thnd = p.thnd := rfl
@[simp] theorem Party.modSeq_flowOpen (p : Party) (f : Sequencer → Sequencer) : (p.modSeq f).flowOpen = p.flowOpen := rfl
@[simp] theorem Party.modSeq_flowOrd (p : Party) (f : Sequencer → Sequencer) : (p.modSeq f).flowOrd = p.flowOrd := rfl
@[simp] theorem Party.modSeq_scopes (p : Party) (f : Sequencer → Sequencer) : (p.modSeq f).scopes = p.scopes := rfl
@[simp] theorem Party.modSeq_scratch (p : Party) (f : Sequencer → Sequencer) : (p.modSeq f).scratch = p.scratch := rfl
@[simp] theorem Party.modSeq_swz (p : Party) (f : Sequencer → Sequencer) : (p.modSeq f).swz = p.swz := rfl
@[simp] theorem Party.modSeq_spoison (p : Party) (f : Sequencer → Sequencer) : (p.modSeq f).spoison = p.spoison := rfl
@[simp] theorem Party.modSeq_accesses (p : Party) (f : Sequencer → Sequencer) : (p.modSeq f).accesses = p.accesses := rfl
@[simp] theorem Party.modSeq_producers (p : Party) (f : Sequencer → Sequencer) : (p.modSeq f).producers = p.producers := rfl
@[simp] theorem Party.modSeq_cmds (p : Party) (f : Sequencer → Sequencer) : (p.modSeq f).cmds = p.cmds := rfl
@[simp] theorem Party.modSeq_fixups (p : Party) (f : Sequencer → Sequencer) : (p.modSeq f).fixups = p.fixups := rfl
@[simp] theorem Party.modSeq_serial (p : Party) (f : Sequencer → Sequencer) : (p.modSeq f).serial = p.serial := rfl
@[simp] theorem Party.modSeq_halt (p : Party) (f : Sequencer → Sequencer) : (p.modSeq f).halt = p.halt := rfl
@[simp] theorem Party.modSeq_dbg (p : Party) (f : Sequencer → Sequencer) : (p.modSeq f).dbg = p.dbg := rfl
@[simp] theorem Party.modSeq_dbgWant (p : Party) (f : Sequencer → Sequencer) : (p.modSeq f).dbgWant = p.dbgWant := rfl
@[simp] theorem Party.modSeq_items (p : Party) (f : Sequencer → Sequencer) : (p.modSeq f).items = p.items := rfl
@[simp] theorem Party.modSeq_batches (p : Party) (f : Sequencer → Sequencer) : (p.modSeq f).batches = p.batches := rfl
@[simp] theorem Party.modSeq_flows (p : Party) (f : Sequencer → Sequencer) : (p.modSeq f).flows = p.flows := rfl
@[simp] theorem Party.modSeq_txas (p : Party) (f : Sequencer → Sequencer) : (p.modSeq f).txas = p.txas := rfl
@[simp] theorem Party.modSeq_aborts (p : Party) (f : Sequencer → Sequencer) : (p.modSeq f).aborts = p.aborts := rfl

-- a strand

@[simp] theorem Strand.setSlot_live (st : Strand) (x : SlotId) (l : Slot) : (st.setSlot x l).live = st.live := rfl
@[simp] theorem Strand.setSlot_ended (st : Strand) (x : SlotId) (l : Slot) : (st.setSlot x l).ended = st.ended := rfl
@[simp] theorem Strand.setSlot_v (st : Strand) (x : SlotId) (l : Slot) : (st.setSlot x l).v = st.v := rfl
@[simp] theorem Strand.setSlot_s (st : Strand) (x : SlotId) (l : Slot) : (st.setSlot x l).s = st.s := rfl
@[simp] theorem Strand.setSlot_m (st : Strand) (x : SlotId) (l : Slot) : (st.setSlot x l).m = st.m := rfl
@[simp] theorem Strand.setSlot_full (st : Strand) (x : SlotId) (l : Slot) : (st.setSlot x l).full = st.full := rfl
@[simp] theorem Strand.setSlot_depth (st : Strand) (x : SlotId) (l : Slot) : (st.setSlot x l).depth = st.depth := rfl
@[simp] theorem Strand.setSlot_dspBase (st : Strand) (x : SlotId) (l : Slot) : (st.setSlot x l).dspBase = st.dspBase := rfl
@[simp] theorem Strand.setSlot_shd (st : Strand) (x : SlotId) (l : Slot) : (st.setSlot x l).shd = st.shd := rfl
@[simp] theorem Strand.setSlot_partner (st : Strand) (x : SlotId) (l : Slot) : (st.setSlot x l).partner = st.partner := rfl
@[simp] theorem Strand.setSlot_step (st : Strand) (x : SlotId) (l : Slot) : (st.setSlot x l).step = st.step := rfl
@[simp] theorem Strand.setSlot_inh (st : Strand) (x : SlotId) (l : Slot) : (st.setSlot x l).inh = st.inh := rfl
@[simp] theorem Strand.setSlot_trap (st : Strand) (x : SlotId) (l : Slot) : (st.setSlot x l).trap = st.trap := rfl
@[simp] theorem Strand.setSlot_rngseed (st : Strand) (x : SlotId) (l : Slot) : (st.setSlot x l).rngseed = st.rngseed := rfl
@[simp] theorem Strand.setSlot_rng (st : Strand) (x : SlotId) (l : Slot) : (st.setSlot x l).rng = st.rng := rfl
@[simp] theorem Strand.setSlot_fmt (st : Strand) (x : SlotId) (l : Slot) : (st.setSlot x l).fmt = st.fmt := rfl
@[simp] theorem Strand.setSlot_anc (st : Strand) (x : SlotId) (l : Slot) : (st.setSlot x l).anc = st.anc := rfl
@[simp] theorem Strand.setSlot_pitch (st : Strand) (x : SlotId) (l : Slot) : (st.setSlot x l).pitch = st.pitch := rfl
@[simp] theorem Strand.setSlot_wp (st : Strand) (x : SlotId) (l : Slot) : (st.setSlot x l).wp = st.wp := rfl
@[simp] theorem Strand.setSlot_pastWp (st : Strand) (x : SlotId) (l : Slot) : (st.setSlot x l).pastWp = st.pastWp := rfl
@[simp] theorem Strand.setSlot_held (st : Strand) (x : SlotId) (l : Slot) : (st.setSlot x l).held = st.held := rfl
@[simp] theorem Strand.setSlot_txn (st : Strand) (x : SlotId) (l : Slot) : (st.setSlot x l).txn = st.txn := rfl
@[simp] theorem Strand.setSlot_fence (st : Strand) (x : SlotId) (l : Slot) : (st.setSlot x l).fence = st.fence := rfl
@[simp] theorem Strand.setSlot_logOver (st : Strand) (x : SlotId) (l : Slot) : (st.setSlot x l).logOver = st.logOver := rfl
@[simp] theorem Strand.setSlot_pendingFault (st : Strand) (x : SlotId) (l : Slot) : (st.setSlot x l).pendingFault = st.pendingFault := rfl
@[simp] theorem Strand.setSlot_owed (st : Strand) (x : SlotId) (l : Slot) : (st.setSlot x l).owed = st.owed := rfl

@[simp] theorem Strand.modSlot_live (st : Strand) (x : SlotId) (f : Slot → Slot) : (st.modSlot x f).live = st.live := rfl
@[simp] theorem Strand.modSlot_ended (st : Strand) (x : SlotId) (f : Slot → Slot) : (st.modSlot x f).ended = st.ended := rfl
@[simp] theorem Strand.modSlot_v (st : Strand) (x : SlotId) (f : Slot → Slot) : (st.modSlot x f).v = st.v := rfl
@[simp] theorem Strand.modSlot_s (st : Strand) (x : SlotId) (f : Slot → Slot) : (st.modSlot x f).s = st.s := rfl
@[simp] theorem Strand.modSlot_m (st : Strand) (x : SlotId) (f : Slot → Slot) : (st.modSlot x f).m = st.m := rfl
@[simp] theorem Strand.modSlot_full (st : Strand) (x : SlotId) (f : Slot → Slot) : (st.modSlot x f).full = st.full := rfl
@[simp] theorem Strand.modSlot_depth (st : Strand) (x : SlotId) (f : Slot → Slot) : (st.modSlot x f).depth = st.depth := rfl
@[simp] theorem Strand.modSlot_dspBase (st : Strand) (x : SlotId) (f : Slot → Slot) : (st.modSlot x f).dspBase = st.dspBase := rfl
@[simp] theorem Strand.modSlot_shd (st : Strand) (x : SlotId) (f : Slot → Slot) : (st.modSlot x f).shd = st.shd := rfl
@[simp] theorem Strand.modSlot_partner (st : Strand) (x : SlotId) (f : Slot → Slot) : (st.modSlot x f).partner = st.partner := rfl
@[simp] theorem Strand.modSlot_step (st : Strand) (x : SlotId) (f : Slot → Slot) : (st.modSlot x f).step = st.step := rfl
@[simp] theorem Strand.modSlot_inh (st : Strand) (x : SlotId) (f : Slot → Slot) : (st.modSlot x f).inh = st.inh := rfl
@[simp] theorem Strand.modSlot_trap (st : Strand) (x : SlotId) (f : Slot → Slot) : (st.modSlot x f).trap = st.trap := rfl
@[simp] theorem Strand.modSlot_rngseed (st : Strand) (x : SlotId) (f : Slot → Slot) : (st.modSlot x f).rngseed = st.rngseed := rfl
@[simp] theorem Strand.modSlot_rng (st : Strand) (x : SlotId) (f : Slot → Slot) : (st.modSlot x f).rng = st.rng := rfl
@[simp] theorem Strand.modSlot_fmt (st : Strand) (x : SlotId) (f : Slot → Slot) : (st.modSlot x f).fmt = st.fmt := rfl
@[simp] theorem Strand.modSlot_anc (st : Strand) (x : SlotId) (f : Slot → Slot) : (st.modSlot x f).anc = st.anc := rfl
@[simp] theorem Strand.modSlot_pitch (st : Strand) (x : SlotId) (f : Slot → Slot) : (st.modSlot x f).pitch = st.pitch := rfl
@[simp] theorem Strand.modSlot_wp (st : Strand) (x : SlotId) (f : Slot → Slot) : (st.modSlot x f).wp = st.wp := rfl
@[simp] theorem Strand.modSlot_pastWp (st : Strand) (x : SlotId) (f : Slot → Slot) : (st.modSlot x f).pastWp = st.pastWp := rfl
@[simp] theorem Strand.modSlot_held (st : Strand) (x : SlotId) (f : Slot → Slot) : (st.modSlot x f).held = st.held := rfl
@[simp] theorem Strand.modSlot_txn (st : Strand) (x : SlotId) (f : Slot → Slot) : (st.modSlot x f).txn = st.txn := rfl
@[simp] theorem Strand.modSlot_fence (st : Strand) (x : SlotId) (f : Slot → Slot) : (st.modSlot x f).fence = st.fence := rfl
@[simp] theorem Strand.modSlot_logOver (st : Strand) (x : SlotId) (f : Slot → Slot) : (st.modSlot x f).logOver = st.logOver := rfl
@[simp] theorem Strand.modSlot_pendingFault (st : Strand) (x : SlotId) (f : Slot → Slot) : (st.modSlot x f).pendingFault = st.pendingFault := rfl
@[simp] theorem Strand.modSlot_owed (st : Strand) (x : SlotId) (f : Slot → Slot) : (st.modSlot x f).owed = st.owed := rfl

@[simp] theorem Strand.setV_live (st : Strand) (n : Nat) (x : Lanes Word) : (st.setV n x).live = st.live := rfl
@[simp] theorem Strand.setV_ended (st : Strand) (n : Nat) (x : Lanes Word) : (st.setV n x).ended = st.ended := rfl
@[simp] theorem Strand.setV_s (st : Strand) (n : Nat) (x : Lanes Word) : (st.setV n x).s = st.s := rfl
@[simp] theorem Strand.setV_m (st : Strand) (n : Nat) (x : Lanes Word) : (st.setV n x).m = st.m := rfl
@[simp] theorem Strand.setV_full (st : Strand) (n : Nat) (x : Lanes Word) : (st.setV n x).full = st.full := rfl
@[simp] theorem Strand.setV_slots (st : Strand) (n : Nat) (x : Lanes Word) : (st.setV n x).slots = st.slots := rfl
@[simp] theorem Strand.setV_depth (st : Strand) (n : Nat) (x : Lanes Word) : (st.setV n x).depth = st.depth := rfl
@[simp] theorem Strand.setV_dspBase (st : Strand) (n : Nat) (x : Lanes Word) : (st.setV n x).dspBase = st.dspBase := rfl
@[simp] theorem Strand.setV_shd (st : Strand) (n : Nat) (x : Lanes Word) : (st.setV n x).shd = st.shd := rfl
@[simp] theorem Strand.setV_partner (st : Strand) (n : Nat) (x : Lanes Word) : (st.setV n x).partner = st.partner := rfl
@[simp] theorem Strand.setV_step (st : Strand) (n : Nat) (x : Lanes Word) : (st.setV n x).step = st.step := rfl
@[simp] theorem Strand.setV_inh (st : Strand) (n : Nat) (x : Lanes Word) : (st.setV n x).inh = st.inh := rfl
@[simp] theorem Strand.setV_trap (st : Strand) (n : Nat) (x : Lanes Word) : (st.setV n x).trap = st.trap := rfl
@[simp] theorem Strand.setV_rngseed (st : Strand) (n : Nat) (x : Lanes Word) : (st.setV n x).rngseed = st.rngseed := rfl
@[simp] theorem Strand.setV_rng (st : Strand) (n : Nat) (x : Lanes Word) : (st.setV n x).rng = st.rng := rfl
@[simp] theorem Strand.setV_fmt (st : Strand) (n : Nat) (x : Lanes Word) : (st.setV n x).fmt = st.fmt := rfl
@[simp] theorem Strand.setV_anc (st : Strand) (n : Nat) (x : Lanes Word) : (st.setV n x).anc = st.anc := rfl
@[simp] theorem Strand.setV_pitch (st : Strand) (n : Nat) (x : Lanes Word) : (st.setV n x).pitch = st.pitch := rfl
@[simp] theorem Strand.setV_wp (st : Strand) (n : Nat) (x : Lanes Word) : (st.setV n x).wp = st.wp := rfl
@[simp] theorem Strand.setV_pastWp (st : Strand) (n : Nat) (x : Lanes Word) : (st.setV n x).pastWp = st.pastWp := rfl
@[simp] theorem Strand.setV_held (st : Strand) (n : Nat) (x : Lanes Word) : (st.setV n x).held = st.held := rfl
@[simp] theorem Strand.setV_txn (st : Strand) (n : Nat) (x : Lanes Word) : (st.setV n x).txn = st.txn := rfl
@[simp] theorem Strand.setV_fence (st : Strand) (n : Nat) (x : Lanes Word) : (st.setV n x).fence = st.fence := rfl
@[simp] theorem Strand.setV_logOver (st : Strand) (n : Nat) (x : Lanes Word) : (st.setV n x).logOver = st.logOver := rfl
@[simp] theorem Strand.setV_pendingFault (st : Strand) (n : Nat) (x : Lanes Word) : (st.setV n x).pendingFault = st.pendingFault := rfl
@[simp] theorem Strand.setV_owed (st : Strand) (n : Nat) (x : Lanes Word) : (st.setV n x).owed = st.owed := rfl

@[simp] theorem Strand.setS_live (st : Strand) (n : Nat) (x : Dword) : (st.setS n x).live = st.live := rfl
@[simp] theorem Strand.setS_ended (st : Strand) (n : Nat) (x : Dword) : (st.setS n x).ended = st.ended := rfl
@[simp] theorem Strand.setS_v (st : Strand) (n : Nat) (x : Dword) : (st.setS n x).v = st.v := rfl
@[simp] theorem Strand.setS_m (st : Strand) (n : Nat) (x : Dword) : (st.setS n x).m = st.m := rfl
@[simp] theorem Strand.setS_full (st : Strand) (n : Nat) (x : Dword) : (st.setS n x).full = st.full := rfl
@[simp] theorem Strand.setS_slots (st : Strand) (n : Nat) (x : Dword) : (st.setS n x).slots = st.slots := rfl
@[simp] theorem Strand.setS_depth (st : Strand) (n : Nat) (x : Dword) : (st.setS n x).depth = st.depth := rfl
@[simp] theorem Strand.setS_dspBase (st : Strand) (n : Nat) (x : Dword) : (st.setS n x).dspBase = st.dspBase := rfl
@[simp] theorem Strand.setS_shd (st : Strand) (n : Nat) (x : Dword) : (st.setS n x).shd = st.shd := rfl
@[simp] theorem Strand.setS_partner (st : Strand) (n : Nat) (x : Dword) : (st.setS n x).partner = st.partner := rfl
@[simp] theorem Strand.setS_step (st : Strand) (n : Nat) (x : Dword) : (st.setS n x).step = st.step := rfl
@[simp] theorem Strand.setS_inh (st : Strand) (n : Nat) (x : Dword) : (st.setS n x).inh = st.inh := rfl
@[simp] theorem Strand.setS_trap (st : Strand) (n : Nat) (x : Dword) : (st.setS n x).trap = st.trap := rfl
@[simp] theorem Strand.setS_rngseed (st : Strand) (n : Nat) (x : Dword) : (st.setS n x).rngseed = st.rngseed := rfl
@[simp] theorem Strand.setS_rng (st : Strand) (n : Nat) (x : Dword) : (st.setS n x).rng = st.rng := rfl
@[simp] theorem Strand.setS_fmt (st : Strand) (n : Nat) (x : Dword) : (st.setS n x).fmt = st.fmt := rfl
@[simp] theorem Strand.setS_anc (st : Strand) (n : Nat) (x : Dword) : (st.setS n x).anc = st.anc := rfl
@[simp] theorem Strand.setS_pitch (st : Strand) (n : Nat) (x : Dword) : (st.setS n x).pitch = st.pitch := rfl
@[simp] theorem Strand.setS_wp (st : Strand) (n : Nat) (x : Dword) : (st.setS n x).wp = st.wp := rfl
@[simp] theorem Strand.setS_pastWp (st : Strand) (n : Nat) (x : Dword) : (st.setS n x).pastWp = st.pastWp := rfl
@[simp] theorem Strand.setS_held (st : Strand) (n : Nat) (x : Dword) : (st.setS n x).held = st.held := rfl
@[simp] theorem Strand.setS_txn (st : Strand) (n : Nat) (x : Dword) : (st.setS n x).txn = st.txn := rfl
@[simp] theorem Strand.setS_fence (st : Strand) (n : Nat) (x : Dword) : (st.setS n x).fence = st.fence := rfl
@[simp] theorem Strand.setS_logOver (st : Strand) (n : Nat) (x : Dword) : (st.setS n x).logOver = st.logOver := rfl
@[simp] theorem Strand.setS_pendingFault (st : Strand) (n : Nat) (x : Dword) : (st.setS n x).pendingFault = st.pendingFault := rfl
@[simp] theorem Strand.setS_owed (st : Strand) (n : Nat) (x : Dword) : (st.setS n x).owed = st.owed := rfl

@[simp] theorem Strand.setM_live (st : Strand) (n : Nat) (x : Word) : (st.setM n x).live = st.live := rfl
@[simp] theorem Strand.setM_ended (st : Strand) (n : Nat) (x : Word) : (st.setM n x).ended = st.ended := rfl
@[simp] theorem Strand.setM_v (st : Strand) (n : Nat) (x : Word) : (st.setM n x).v = st.v := rfl
@[simp] theorem Strand.setM_s (st : Strand) (n : Nat) (x : Word) : (st.setM n x).s = st.s := rfl
@[simp] theorem Strand.setM_full (st : Strand) (n : Nat) (x : Word) : (st.setM n x).full = st.full := rfl
@[simp] theorem Strand.setM_slots (st : Strand) (n : Nat) (x : Word) : (st.setM n x).slots = st.slots := rfl
@[simp] theorem Strand.setM_depth (st : Strand) (n : Nat) (x : Word) : (st.setM n x).depth = st.depth := rfl
@[simp] theorem Strand.setM_dspBase (st : Strand) (n : Nat) (x : Word) : (st.setM n x).dspBase = st.dspBase := rfl
@[simp] theorem Strand.setM_shd (st : Strand) (n : Nat) (x : Word) : (st.setM n x).shd = st.shd := rfl
@[simp] theorem Strand.setM_partner (st : Strand) (n : Nat) (x : Word) : (st.setM n x).partner = st.partner := rfl
@[simp] theorem Strand.setM_step (st : Strand) (n : Nat) (x : Word) : (st.setM n x).step = st.step := rfl
@[simp] theorem Strand.setM_inh (st : Strand) (n : Nat) (x : Word) : (st.setM n x).inh = st.inh := rfl
@[simp] theorem Strand.setM_trap (st : Strand) (n : Nat) (x : Word) : (st.setM n x).trap = st.trap := rfl
@[simp] theorem Strand.setM_rngseed (st : Strand) (n : Nat) (x : Word) : (st.setM n x).rngseed = st.rngseed := rfl
@[simp] theorem Strand.setM_rng (st : Strand) (n : Nat) (x : Word) : (st.setM n x).rng = st.rng := rfl
@[simp] theorem Strand.setM_fmt (st : Strand) (n : Nat) (x : Word) : (st.setM n x).fmt = st.fmt := rfl
@[simp] theorem Strand.setM_anc (st : Strand) (n : Nat) (x : Word) : (st.setM n x).anc = st.anc := rfl
@[simp] theorem Strand.setM_pitch (st : Strand) (n : Nat) (x : Word) : (st.setM n x).pitch = st.pitch := rfl
@[simp] theorem Strand.setM_wp (st : Strand) (n : Nat) (x : Word) : (st.setM n x).wp = st.wp := rfl
@[simp] theorem Strand.setM_pastWp (st : Strand) (n : Nat) (x : Word) : (st.setM n x).pastWp = st.pastWp := rfl
@[simp] theorem Strand.setM_held (st : Strand) (n : Nat) (x : Word) : (st.setM n x).held = st.held := rfl
@[simp] theorem Strand.setM_txn (st : Strand) (n : Nat) (x : Word) : (st.setM n x).txn = st.txn := rfl
@[simp] theorem Strand.setM_fence (st : Strand) (n : Nat) (x : Word) : (st.setM n x).fence = st.fence := rfl
@[simp] theorem Strand.setM_logOver (st : Strand) (n : Nat) (x : Word) : (st.setM n x).logOver = st.logOver := rfl
@[simp] theorem Strand.setM_pendingFault (st : Strand) (n : Nat) (x : Word) : (st.setM n x).pendingFault = st.pendingFault := rfl
@[simp] theorem Strand.setM_owed (st : Strand) (n : Nat) (x : Word) : (st.setM n x).owed = st.owed := rfl

-- reads after writes

@[simp] theorem State.setParty_party?_self (s : State) (c : Nat) (p : Party) : (s.setParty c p).party? c = some p := by
  simp [State.setParty, State.party?]
theorem State.setParty_party?_ne (s : State) (p : Party) {c d : Nat} (h : d ≠ c) :
    (s.setParty c p).party? d = s.party? d := by
  simp [State.setParty, State.party?, kget_kput_ne _ _ h]
@[simp] theorem State.setParty_setParty (s : State) (c : Nat) (p q : Party) :
    (s.setParty c p).setParty c q = s.setParty c q := by
  simp [State.setParty]
@[simp] theorem State.markIssued_party? (s : State) (c : Nat) : s.markIssued.party? c = s.party? c := rfl
@[simp] theorem State.post_party? (s : State) (i : Instr) (c : Nat) : (s.post i).party? c = s.party? c := rfl
@[simp] theorem State.bump_party? (s : State) (c : Nat) : s.bump.party? c = s.party? c := rfl
theorem State.modParty_eq {s : State} {c : Nat} {p : Party} (h : s.party? c = some p) (f : Party → Party) :
    s.modParty c f = s.setParty c (f p) := by
  simp [State.modParty, h]
@[simp] theorem State.setParty_modParty (s : State) (c : Nat) (p : Party) (f : Party → Party) :
    (s.setParty c p).modParty c f = s.setParty c (f p) := by
  rw [State.modParty_eq (State.setParty_party?_self s c p), State.setParty_setParty]

@[simp] theorem State.setCore_core_self (s : State) (c : Nat) (k : Core) : (s.setCore c k).core c = k := by
  simp [State.setCore, State.core]
theorem State.setCore_core_ne (s : State) (k : Core) {c d : Nat} (h : d ≠ c) : (s.setCore c k).core d = s.core d := by
  simp [State.setCore, State.core, kget_kput_ne _ _ h]
@[simp] theorem State.setPkg_pkg_self (s : State) (p : Nat) (k : Pkg) : (s.setPkg p k).pkg p = k := by
  simp [State.setPkg, State.pkg]
theorem State.setPkg_pkg_ne (s : State) (k : Pkg) {p q : Nat} (h : q ≠ p) : (s.setPkg p k).pkg q = s.pkg q := by
  simp [State.setPkg, State.pkg, kget_kput_ne _ _ h]

theorem vector_set_self {α : Type} {n : Nat} (v : Vector α n) (i : Nat) (x : α) (h : i < n) :
    (v.setIfInBounds i x)[i]? = some x := by
  simp [h]
theorem vector_set_ne {α : Type} {n : Nat} (v : Vector α n) (x : α) {i j : Nat} (h : j ≠ i) :
    (v.setIfInBounds i x)[j]? = v[j]? := by
  simp [Ne.symm h]

theorem Party.setStrand_strand_self (p : Party) (i : Nat) (st : Strand) (h : i < 16) : (p.setStrand i st).strand i = st := by
  simp [Party.setStrand, Party.strand, h]
theorem Party.setStrand_strand_ne (p : Party) (st : Strand) {i j : Nat} (h : j ≠ i) :
    (p.setStrand i st).strand j = p.strand j := by
  simp [Party.setStrand, Party.strand, Ne.symm h]
theorem Strand.setSlot_slot_self (st : Strand) (x : SlotId) (l : Slot) : (st.setSlot x l).slot x = l := by
  cases x <;> simp [Strand.setSlot, Strand.slot, slotIdx]
theorem Strand.setSlot_slot_other (st : Strand) (l : Slot) {x y : SlotId} (h : y ≠ x) :
    (st.setSlot x l).slot y = st.slot y := by
  cases x <;> cases y <;> simp_all [Strand.setSlot, Strand.slot, slotIdx]
theorem Party.modSlot_slot_self (p : Party) (w : SlotRef) (f : Slot → Slot) (h : w.strand < 16) :
    (p.modSlot w f).slot w = f (p.slot w) := by
  simp [Party.modSlot, Party.modStrand, Party.slot, Party.setStrand_strand_self _ _ _ h, Strand.modSlot,
    Strand.setSlot_slot_self]

theorem Strand.setV_vreg_self (st : Strand) (n : Nat) (x : Lanes Word) (h : n < 88) : (st.setV n x).vreg n = x := by
  simp [Strand.setV, Strand.vreg, h]
theorem Strand.setV_vreg_ne (st : Strand) (x : Lanes Word) {n k : Nat} (h : k ≠ n) : (st.setV n x).vreg k = st.vreg k := by
  simp [Strand.setV, Strand.vreg, Ne.symm h]
theorem Strand.setS_sreg_self (st : Strand) (n : Nat) (x : Dword) (h : n < 24) : (st.setS n x).sreg n = x := by
  simp [Strand.setS, Strand.sreg, h]
theorem Strand.setS_sreg_ne (st : Strand) (x : Dword) {n k : Nat} (h : k ≠ n) : (st.setS n x).sreg k = st.sreg k := by
  simp [Strand.setS, Strand.sreg, Ne.symm h]
theorem Strand.setM_mreg_self (st : Strand) (n : Nat) (x : Word) (h : n - 1 < 7) : (st.setM n x).mreg n = x := by
  simp [Strand.setM, Strand.mreg, h]
theorem Strand.setM_mreg_ne (st : Strand) (x : Word) {n k : Nat} (h : k - 1 ≠ n - 1) : (st.setM n x).mreg k = st.mreg k := by
  simp [Strand.setM, Strand.mreg, Ne.symm h]

end Sys2Proof.Machine
end

