-- ==== Sys2Proof/Laws/Operands.lean ====
section
/-!
SUPPORT. Laws/Operands.lean: what reading a source leaves in the party, and what writing a result changes.
-/

namespace Sys2Proof.Machine

theorem tab_getElem {α : Type} (f : Fin 32 → α) (i : Nat) (h : i < 32) : (tab f)[i] = f ⟨i, h⟩ := by
  simp [tab, laneList]
theorem splat_getElem {α : Type} (x : α) (i : Nat) (h : i < 32) : (splat x)[i] = x := tab_getElem _ i h
theorem blend_getElem {α : Type} (m : Word) (new old : Lanes α) (i : Nat) (h : i < 32) :
    (blend m new old)[i] = if inMask m ⟨i, h⟩ then new[i] else old[i] := tab_getElem _ i h

-- sources: a read changes no strand, and no party but by a pop

theorem Party.setWindow_strands (p : Party) (i : Nat) (q : List (Lanes Word)) : (p.setWindow i q).strands = p.strands := rfl
theorem Party.popLane_strands (p : Party) (w : SlotRef) (r : Nat) : (p.popLane w r).2.strands = p.strands := by
  unfold Party.popLane
  split
  · rfl
  · split <;> rfl
@[simp] theorem Party.src32_strands (p : Party) (w : SlotRef) (r : BitVec 7) : (p.src32 w r).2.strands = p.strands := by
  simp only [Party.src32]
  repeat' split
  all_goals first | rfl | exact Party.popLane_strands p w _
@[simp] theorem Party.srcU_strands (p : Party) (w : SlotRef) (r : BitVec 7) : (p.srcU w r).2.strands = p.strands := by
  simp only [Party.srcU]
  repeat' split
  all_goals rfl
@[simp] theorem Party.src32_strand (p : Party) (w : SlotRef) (r : BitVec 7) (i : Nat) :
    (p.src32 w r).2.strand i = p.strand i := by simp [Party.strand]
@[simp] theorem Party.srcU_strand (p : Party) (w : SlotRef) (r : BitVec 7) (i : Nat) :
    (p.srcU w r).2.strand i = p.strand i := by simp [Party.strand]

/-- A source that is no queue pops nothing. -/
theorem Party.src32_plain (p : Party) (w : SlotRef) (r : BitVec 7) (h : isQ r = false) : (p.src32 w r).2 = p := by
  simp only [Party.src32, h]
  repeat' split
  all_goals first | rfl | simp_all
theorem Party.src32_v (p : Party) (w : SlotRef) (r : BitVec 7) (h : isV r = true) :
    p.src32 w r = ((p.strand w.strand).vreg r.toNat, p) := by simp [Party.src32, h]
theorem Party.srcU_s (p : Party) (w : SlotRef) (r : BitVec 7) (h : isS r = true) :
    p.srcU w r = ((p.strand w.strand).sreg (r.toNat - 88), p) := by simp [Party.srcU, h]

-- results

theorem Party.dst32_v (p : Party) (w : SlotRef) (r : BitVec 7) (x : Lanes Word) (h : isV r = true) :
    p.dst32 w r x = p.modStrand w.strand (·.setVIn (p.active w) r.toNat x) := by simp [Party.dst32, h]
theorem Party.dst32_zr (p : Party) (w : SlotRef) (x : Lanes Word) : p.dst32 w zr x = p := by
  simp [Party.dst32, isV, isM, isQ]
theorem Party.dstU_zr (p : Party) (w : SlotRef) (x : Dword) : p.dstU w zr x = p := by
  simp [Party.dstU, isS, isM]
theorem Party.dstU_s (p : Party) (w : SlotRef) (r : BitVec 7) (x : Dword) (h : isS r = true) :
    p.dstU w r x = p.modStrand w.strand (·.setS (r.toNat - 88) x) := by simp [Party.dstU, h]
theorem Party.dst64_zr (p : Party) (w : SlotRef) (x : Lanes Dword) : p.dst64 w zr x = p := by
  simp [Party.dst64, isV]

/-- A strand register written lane by lane: the active lanes take the result, the others keep theirs, and so does every
other register. -/
theorem Strand.setVIn_vreg (st : Strand) (m : Word) (n : Nat) (x : Lanes Word) (hn : n < 88) (k i : Nat) (hi : i < 32) :
    ((st.setVIn m n x).vreg k)[i] = if k = n ∧ inMask m ⟨i, hi⟩ = true then x[i] else (st.vreg k)[i] := by
  by_cases hk : k = n
  · subst hk
    simp only [Strand.setVIn, Strand.setV_vreg_self _ _ _ hn, blend_getElem, true_and]
  · simp [Strand.setVIn, Strand.setV_vreg_ne _ _ hk, hk]

end Sys2Proof.Machine
end

