-- ==== Sys2Proof/Laws/Issue.lean ====
section
/-!
SUPPORT. Laws/Issue.lean: what the shared issue of an instruction can do, once.
-/

namespace Sys2Proof.Machine

theorem State.popsOfQ3_zero (s : State) (w : SlotRef) (r : Option (Option Dword)) : s.popsOfQ3 w 0 r = (r, s) := rfl

theorem State.stepTrap_off (s : State) (x : Ctx) (b : Strand) (at_ : Option SlotRef) (lo : Nat) (h : (b.step && !b.inh) = false) :
    s.stepTrap x b at_ lo = s := by
  unfold State.stepTrap
  split
  · rfl
  · simp [h]

/-- A slot that is not ready leaves the state as it is. -/
theorem issue_not_ready (i : Instr) (pre : Ctx → Party → Option Cause) (ready : Ctx → State → Bool)
    (body : Ctx → State → Done) (s : State) (w : SlotRef) (p : Party) (hf : s.focus = .slot w)
    (hp : s.party? w.core = some p)
    (h : (p.slotReady w && p.operandsReady w i && ready (p.ctx w i) s
      && (!p.bound w || s.fetchFree w.core p.grid (fetchCount i))) = false) :
    issue i pre ready body s = .next s := by
  simp only [issue, hf, hp]
  rw [h]
  rfl

/-- A check of the issue that fails takes its trap, with nothing else done. -/
theorem issue_checks (i : Instr) (pre : Ctx → Party → Option Cause) (ready : Ctx → State → Bool)
    (body : Ctx → State → Done) (s : State) (w : SlotRef) (p : Party) (c : Cause) (hf : s.focus = .slot w)
    (hp : s.party? w.core = some p)
    (h : (p.slotReady w && p.operandsReady w i && ready (p.ctx w i) s
      && (!p.bound w || s.fetchFree w.core p.grid (fetchCount i))) = true)
    (hc : p.issueFault w i (p.itemLimit (if p.bound w then fetchCount i else 0) (pre (p.ctx w i) p)) = some c) :
    issue i pre ready body s = .next (s.markIssued.takeTrap w ((p.ctx w i).info (p.slot w) c 0)) := by
  simp only [issue, hf, hp]
  rw [h]
  simp only [Bool.not_true, Bool.false_eq_true, if_false, hc]

/-- AN ISSUE THAT PASSES EVERY CHECK, without a q3 operand, answers what its body answers. -/
theorem issue_passes (i : Instr) (pre : Ctx → Party → Option Cause) (ready : Ctx → State → Bool)
    (body : Ctx → State → Done) (s : State) (w : SlotRef) (p : Party) (hf : s.focus = .slot w)
    (hp : s.party? w.core = some p) (hs : p.slotReady w = true) (ho : p.operandsReady w i = true)
    (hr : ready (p.ctx w i) s = true) (hq : fetchCount i = 0)
    (hc : p.issueFault w i (pre (p.ctx w i) p) = none) :
    issue i pre ready body s =
      match body (p.ctx w i) (s.markIssued.setParty w.core (p.beginIssue (p.ctx w i) (roles i).pipe s.now)) with
      | .stall => .next s
      | .fault c a => .next (s.markIssued.takeTrap w ((p.ctx w i).info (p.slot w) c a))
      | .trap t s2 => .next (s2.takeTrap w t)
      | .ok s2 at_ => .next (s2.stepTrap (p.ctx w i) (p.strand w.strand) at_ s.nextId) := by
  have hi : ∀ x, p.itemLimit 0 x = x := by intro x; cases x <;> simp [Party.itemLimit]
  have hl : p.itemLimit (if p.bound w then fetchCount i else 0) (pre (p.ctx w i) p) = pre (p.ctx w i) p := by
    rw [hq]; split <;> exact hi _
  have hff : s.fetchFree w.core p.grid (fetchCount i) = true := by simp [hq, State.fetchFree]
  simp only [issue, hf, hp]
  rw [hs, ho, hr, hff, hl, hc, hq]
  simp only [Bool.or_true, Bool.and_self, Bool.not_true, Bool.false_eq_true, if_false, bne_self_eq_false, Bool.false_and,
    State.popsOfQ3_zero]
  rw [State.modParty_eq (p := p) (by simpa using hp)]
  all_goals rfl

/-- THE ISSUE of an instruction whose effect lies in its party. -/
theorem issueParty_passes (i : Instr) (f : Ctx → Party → Party) (s : State) (w : SlotRef) (p : Party)
    (hf : s.focus = .slot w) (hp : s.party? w.core = some p) (hs : p.slotReady w = true)
    (ho : p.operandsReady w i = true) (hq : fetchCount i = 0) (hc : p.issueFault w i none = none)
    (ht : ((p.strand w.strand).step && !(p.strand w.strand).inh) = false) :
    issueParty i f s = .next (s.markIssued.setParty w.core (f (p.ctx w i) (p.beginIssue (p.ctx w i) (roles i).pipe s.now))) := by
  rw [issueParty, issue_passes i noPre always _ s w p hf hp hs ho rfl hq hc]
  have hw : (p.ctx w i).w = w := rfl
  simp only [hw, State.setParty_modParty, State.stepTrap_off _ _ _ _ _ ht]

-- what the record of an issue leaves (R128, R144, R145)

theorem Party.beginIssue_strand_self (p : Party) (x : Ctx) (pipe : Pipe) (now : Nat) (h : x.w.strand < 16) :
    (p.beginIssue x pipe now).strand x.w.strand =
      Strand.modSlot { p.strand x.w.strand with
        logOver := if p.logBusy x.w.strand then (p.strand x.w.strand).logOver + 1 else 0 } x.w.slot
        fun l => { l.issued pipe now with pc := x.next } := by
  simp only [Party.beginIssue, Party.modSlot, Party.modStrand]
  rw [Party.setStrand_strand_self _ _ _ h, Party.setStrand_strand_self _ _ _ h]
  rfl
theorem Party.beginIssue_strand_ne (p : Party) (x : Ctx) (pipe : Pipe) (now : Nat) {i : Nat} (h : i ≠ x.w.strand) :
    (p.beginIssue x pipe now).strand i = p.strand i := by
  simp only [Party.beginIssue, Party.modSlot, Party.modStrand]
  rw [Party.setStrand_strand_ne _ _ h, Party.setStrand_strand_ne _ _ h]
  rfl
/-- Every field of the slot's strand but its slots and its count of issues beside the log stands as it did. -/
theorem Party.beginIssue_strand_keeps {α : Type} (p : Party) (x : Ctx) (pipe : Pipe) (now i : Nat) (g : Strand → α)
    (hg : ∀ (st : Strand) (k : SlotId) (f : Slot → Slot), g (st.modSlot k f) = g st)
    (ho : ∀ (st : Strand) (n : Nat), g { st with logOver := n } = g st) :
    g ((p.beginIssue x pipe now).strand i) = g (p.strand i) := by
  by_cases h : i = x.w.strand
  · subst h
    by_cases h16 : x.w.strand < 16
    · rw [Party.beginIssue_strand_self _ _ _ _ h16, hg, ho]
    · simp [Party.beginIssue, Party.modSlot, Party.modStrand, Party.strand, Party.setStrand, h16]
  · rw [Party.beginIssue_strand_ne _ _ _ _ h]
theorem Strand.modSlot_slot_self (st : Strand) (k : SlotId) (f : Slot → Slot) : (st.modSlot k f).slot k = f (st.slot k) :=
  Strand.setSlot_slot_self _ _ _
theorem Strand.modSlot_slot_other (st : Strand) (f : Slot → Slot) {k j : SlotId} (h : j ≠ k) :
    (st.modSlot k f).slot j = st.slot j := Strand.setSlot_slot_other _ _ h
theorem otherSlot_ne (k : SlotId) : otherSlot k ≠ k := by cases k <;> decide

end Sys2Proof.Machine
end

