-- ==== Sys2Proof/Laws/Memory.lean ====
section
/-!
SUPPORT. Laws/Memory.lean: what the operations over memory, tags, poison and scratchpad do to the byte that is read, and
that each keeps the canonical form.
-/

namespace Sys2Proof.Machine

-- bytes

theorem State.readByte_writeByte (s : State) (r a : Nat) (b : Byte) :
    (s.writeByte r b).readByte a = if a = r then b else s.readByte a := sget_sput 0 s.mem r a b

theorem sget_memWrite_outside (bs : List Byte) : ∀ (m : Sparse Byte) (r a : Nat), a < r ∨ r + bs.length ≤ a →
    sget 0 (memWrite m r bs) a = sget 0 m a := by
  induction bs with
  | nil => intro m r a _; rfl
  | cons b t ih =>
    intro m r a h
    simp only [List.length_cons] at h
    rw [memWrite, ih _ _ _ (by omega), sget_sput_ne _ _ _ (by omega)]

theorem sget_memWrite_inside (bs : List Byte) : ∀ (m : Sparse Byte) (r i : Nat) (h : i < bs.length),
    sget 0 (memWrite m r bs) (r + i) = bs[i] := by
  induction bs with
  | nil => intro m r i h; simp at h
  | cons b t ih =>
    intro m r i h
    cases i with
    | zero =>
      have h0 : sget 0 (memWrite (sput 0 m r b) (r + 1) t) r = b := by
        rw [sget_memWrite_outside t _ (r + 1) r (Or.inl (by omega)), sget_sput_self]
      simpa [memWrite] using h0
    | succ k =>
      have hk : k < t.length := by simpa using h
      rw [memWrite, show r + (k + 1) = (r + 1) + k by omega, ih _ _ _ hk]
      simp

/-- A write of bytes leaves every byte outside them alone. -/
theorem State.readByte_writeMem_outside (s : State) (bs : List Byte) {r a : Nat} (h : a < r ∨ r + bs.length ≤ a) :
    (s.writeMem r bs).readByte a = s.readByte a := sget_memWrite_outside bs s.mem r a h
/-- A read after a write gives the bytes written. -/
theorem State.readByte_writeMem_inside (s : State) (bs : List Byte) (r i : Nat) (h : i < bs.length) :
    (s.writeMem r bs).readByte (r + i) = bs[i] := sget_memWrite_inside bs s.mem r i h

-- the canonical form

theorem wf_memWrite (bs : List Byte) : ∀ (m : Sparse Byte) (r : Nat), Memory.wf m = true →
    Memory.wf (memWrite m r bs) = true := by
  induction bs with
  | nil => intro m r h; exact h
  | cons b t ih => intro m r h; exact ih _ _ (swf_sput 0 m r b h)

theorem State.wf_writeByte (s : State) (r : Nat) (b : Byte) (h : Memory.wf s.mem = true) :
    Memory.wf (s.writeByte r b).mem = true := swf_sput 0 s.mem r b h
theorem State.wf_writeMem (s : State) (r : Nat) (bs : List Byte) (h : Memory.wf s.mem = true) :
    Memory.wf (s.writeMem r bs).mem = true := wf_memWrite bs s.mem r h

/-- A property that every step of a fold keeps holds after the fold. -/
theorem foldl_keeps {α β : Type} (P : α → Prop) (f : α → β → α) (hf : ∀ a b, P a → P (f a b)) (l : List β) :
    ∀ a, P a → P (l.foldl f a) := by
  induction l with
  | nil => intro a h; exact h
  | cons b t ih => intro a h; exact ih _ (hf a b h)

theorem State.mapsOk_iff (s : State) : s.mapsOk = true ↔
    Memory.wf s.mem = true ∧ swf 0 s.tags = true ∧ swf false s.poison = true ∧ swf 0 s.poolmap = true := by
  simp [State.mapsOk, and_assoc]

theorem State.mapsOk_writeByte (s : State) (r : Nat) (b : Byte) (h : s.mapsOk = true) : (s.writeByte r b).mapsOk = true := by
  rw [State.mapsOk_iff] at h ⊢
  exact ⟨s.wf_writeByte r b h.1, h.2⟩
theorem State.mapsOk_writeMem (s : State) (r : Nat) (bs : List Byte) (h : s.mapsOk = true) :
    (s.writeMem r bs).mapsOk = true := by
  rw [State.mapsOk_iff] at h ⊢
  exact ⟨s.wf_writeMem r bs h.1, h.2⟩
theorem State.mapsOk_setTag (s : State) (g : Nat) (t : BitVec 4) (h : s.mapsOk = true) : (s.setTag g t).mapsOk = true := by
  rw [State.mapsOk_iff] at h ⊢
  exact ⟨h.1, swf_sput 0 s.tags g t h.2.1, h.2.2⟩
theorem State.mapsOk_setPoison (s : State) (k : Nat) (b : Bool) (h : s.mapsOk = true) : (s.setPoison k b).mapsOk = true := by
  rw [State.mapsOk_iff] at h ⊢
  exact ⟨h.1, h.2.1, swf_sput false s.poison k b h.2.2.1, h.2.2.2⟩
theorem State.mapsOk_writeLine (s : State) (l : Nat) (mask : BitVec 128) (data : BitVec 1024) (h : s.mapsOk = true) :
    (s.writeLine l mask data).mapsOk = true := by
  refine foldl_keeps (fun t => t.mapsOk = true) _ ?_ _ s h
  intro t i ht
  split
  · exact t.mapsOk_writeByte _ _ ht
  · exact ht
theorem State.mapsOk_clearPoison (s : State) (l : Nat) (mask : BitVec 128) (h : s.mapsOk = true) :
    (s.clearPoison l mask).mapsOk = true := by
  refine foldl_keeps (fun t => t.mapsOk = true) _ ?_ _ s h
  intro t k ht
  split
  · exact t.mapsOk_setPoison _ _ ht
  · exact ht

/-- A masked write of a line leaves every byte outside the line alone, and every byte of the line that the mask leaves out. -/
theorem State.readByte_writeLine (s : State) (l : Nat) (mask : BitVec 128) (data : BitVec 1024) (a : Nat)
    (h : ∀ i, i < 128 → mask.getLsbD i = true → a ≠ lineAddr l + i) : (s.writeLine l mask data).readByte a = s.readByte a := by
  have key : ∀ is : List Nat, (∀ i ∈ is, i < 128) → ∀ t : State,
      (is.foldl (fun s i => if mask.getLsbD i then s.writeByte (lineAddr l + i) (data.extractLsb' (8 * i) 8) else s) t).readByte a
        = t.readByte a := by
    intro is
    induction is with
    | nil => intro _ t; rfl
    | cons i r ih =>
      intro hi t
      rw [List.foldl_cons, ih (fun j hj => hi j (by simp [hj]))]
      split
      · next hm => rw [State.readByte_writeByte, if_neg (h i (hi i (by simp)) hm)]
      · rfl
  exact key _ (fun i hi => List.mem_range.mp hi) s

-- scratchpad

theorem scratchWrite_outside (bs : List Byte) (m : Sparse Byte) (off a : Nat) (h : a < off ∨ off + bs.length ≤ a) :
    sget 0 (scratchWrite m off bs) a = sget 0 m a := by
  have key : ∀ (l : List Byte) (n : Nat) (m : Sparse Byte), (a < off + n ∨ off + n + l.length ≤ a) →
      sget 0 ((l.zipIdx n).foldl (fun m p => sput 0 m (off + p.2) p.1) m) a = sget 0 m a := by
    intro l
    induction l with
    | nil => intro n m _; rfl
    | cons b t ih =>
      intro n m h
      simp only [List.length_cons] at h
      rw [List.zipIdx_cons, List.foldl_cons, ih _ _ (by omega), sget_sput_ne _ _ _ (by simp only; omega)]
  exact key bs 0 m (by omega)

theorem swf_scratchWrite (bs : List Byte) (m : Sparse Byte) (off : Nat) (h : swf 0 m = true) :
    swf 0 (scratchWrite m off bs) = true :=
  foldl_keeps (fun m => swf 0 m = true) _ (fun m _ hm => swf_sput 0 m _ _ hm) _ m h

end Sys2Proof.Machine
end

