-- ==== Sys2Proof/Laws/PerInstr.lean ====
section
/-!
SUPPORT. Laws/PerInstr.lean: R70 for every instruction: its first word alone gives its half and its length, and its opcode is the
one that it was packed with.
-/

namespace Sys2Proof.Laws

theorem packLR_head (op : BitVec 8) (o : LR) :
    halfBit (packLR op o) = false ∧ opcodeOf (packLR op o) = op.toNat := by
  have h : halfBit (packLR op o) = false := by
    simp only [halfBit, packLR, BitVec.getLsbD_append]; simp
  refine ⟨h, ?_⟩
  simp only [opcodeOf, h, Bool.false_eq_true, if_false]
  congr 1
  ext k hk
  rw [BitVec.getElem_extractLsb']
  obtain rfl | rfl | rfl | rfl | rfl | rfl | rfl | rfl :
      k = 0 ∨ k = 1 ∨ k = 2 ∨ k = 3 ∨ k = 4 ∨ k = 5 ∨ k = 6 ∨ k = 7 := by omega
  all_goals simp only [packLR, BitVec.getLsbD_append]; simp [← BitVec.getLsbD_eq_getElem]
theorem packLI_head (op : BitVec 8) (o : LI) :
    halfBit (packLI op o) = false ∧ opcodeOf (packLI op o) = op.toNat := by
  have h : halfBit (packLI op o) = false := by
    simp only [halfBit, packLI, BitVec.getLsbD_append]; simp
  refine ⟨h, ?_⟩
  simp only [opcodeOf, h, Bool.false_eq_true, if_false]
  congr 1
  ext k hk
  rw [BitVec.getElem_extractLsb']
  obtain rfl | rfl | rfl | rfl | rfl | rfl | rfl | rfl :
      k = 0 ∨ k = 1 ∨ k = 2 ∨ k = 3 ∨ k = 4 ∨ k = 5 ∨ k = 6 ∨ k = 7 := by omega
  all_goals simp only [packLI, BitVec.getLsbD_append]; simp [← BitVec.getLsbD_eq_getElem]
theorem packLC_head (op : BitVec 8) (o : LC) :
    halfBit (packLC op o) = false ∧ opcodeOf (packLC op o) = op.toNat := by
  have h : halfBit (packLC op o) = false := by
    simp only [halfBit, packLC, BitVec.getLsbD_append]; simp
  refine ⟨h, ?_⟩
  simp only [opcodeOf, h, Bool.false_eq_true, if_false]
  congr 1
  ext k hk
  rw [BitVec.getElem_extractLsb']
  obtain rfl | rfl | rfl | rfl | rfl | rfl | rfl | rfl :
      k = 0 ∨ k = 1 ∨ k = 2 ∨ k = 3 ∨ k = 4 ∨ k = 5 ∨ k = 6 ∨ k = 7 := by omega
  all_goals simp only [packLC, BitVec.getLsbD_append]; simp [← BitVec.getLsbD_eq_getElem]
theorem packLCI_head (op : BitVec 8) (o : LCI) :
    halfBit (packLCI op o) = false ∧ opcodeOf (packLCI op o) = op.toNat := by
  have h : halfBit (packLCI op o) = false := by
    simp only [halfBit, packLCI, BitVec.getLsbD_append]; simp
  refine ⟨h, ?_⟩
  simp only [opcodeOf, h, Bool.false_eq_true, if_false]
  congr 1
  ext k hk
  rw [BitVec.getElem_extractLsb']
  obtain rfl | rfl | rfl | rfl | rfl | rfl | rfl | rfl :
      k = 0 ∨ k = 1 ∨ k = 2 ∨ k = 3 ∨ k = 4 ∨ k = 5 ∨ k = 6 ∨ k = 7 := by omega
  all_goals simp only [packLCI, BitVec.getLsbD_append]; simp [← BitVec.getLsbD_eq_getElem]
theorem packLM_head (op : BitVec 8) (o : LM) :
    halfBit (packLM op o) = false ∧ opcodeOf (packLM op o) = op.toNat := by
  have h : halfBit (packLM op o) = false := by
    simp only [halfBit, packLM, BitVec.getLsbD_append]; simp
  refine ⟨h, ?_⟩
  simp only [opcodeOf, h, Bool.false_eq_true, if_false]
  congr 1
  ext k hk
  rw [BitVec.getElem_extractLsb']
  obtain rfl | rfl | rfl | rfl | rfl | rfl | rfl | rfl :
      k = 0 ∨ k = 1 ∨ k = 2 ∨ k = 3 ∨ k = 4 ∨ k = 5 ∨ k = 6 ∨ k = 7 := by omega
  all_goals simp only [packLM, BitVec.getLsbD_append]; simp [← BitVec.getLsbD_eq_getElem]
theorem packLL0_head (op : BitVec 8) (o : LL) :
    halfBit (packLL0 op o) = false ∧ opcodeOf (packLL0 op o) = op.toNat := by
  have h : halfBit (packLL0 op o) = false := by
    simp only [halfBit, packLL0, BitVec.getLsbD_append]; simp
  refine ⟨h, ?_⟩
  simp only [opcodeOf, h, Bool.false_eq_true, if_false]
  congr 1
  ext k hk
  rw [BitVec.getElem_extractLsb']
  obtain rfl | rfl | rfl | rfl | rfl | rfl | rfl | rfl :
      k = 0 ∨ k = 1 ∨ k = 2 ∨ k = 3 ∨ k = 4 ∨ k = 5 ∨ k = 6 ∨ k = 7 := by omega
  all_goals simp only [packLL0, BitVec.getLsbD_append]; simp [← BitVec.getLsbD_eq_getElem]
theorem packUR_head (op : BitVec 7) (o : UR) :
    halfBit (packUR op o) = true ∧ opcodeOf (packUR op o) = op.toNat := by
  have h : halfBit (packUR op o) = true := by
    simp only [halfBit, packUR, BitVec.getLsbD_append]; simp
  refine ⟨h, ?_⟩
  simp only [opcodeOf, h, if_true]
  congr 1
  ext k hk
  rw [BitVec.getElem_extractLsb']
  obtain rfl | rfl | rfl | rfl | rfl | rfl | rfl :
      k = 0 ∨ k = 1 ∨ k = 2 ∨ k = 3 ∨ k = 4 ∨ k = 5 ∨ k = 6 := by omega
  all_goals simp only [packUR, BitVec.getLsbD_append]; simp [← BitVec.getLsbD_eq_getElem]
theorem packUI_head (op : BitVec 7) (o : UI) :
    halfBit (packUI op o) = true ∧ opcodeOf (packUI op o) = op.toNat := by
  have h : halfBit (packUI op o) = true := by
    simp only [halfBit, packUI, BitVec.getLsbD_append]; simp
  refine ⟨h, ?_⟩
  simp only [opcodeOf, h, if_true]
  congr 1
  ext k hk
  rw [BitVec.getElem_extractLsb']
  obtain rfl | rfl | rfl | rfl | rfl | rfl | rfl :
      k = 0 ∨ k = 1 ∨ k = 2 ∨ k = 3 ∨ k = 4 ∨ k = 5 ∨ k = 6 := by omega
  all_goals simp only [packUI, BitVec.getLsbD_append]; simp [← BitVec.getLsbD_eq_getElem]
theorem packUK_head (op : BitVec 7) (o : UK) :
    halfBit (packUK op o) = true ∧ opcodeOf (packUK op o) = op.toNat := by
  have h : halfBit (packUK op o) = true := by
    simp only [halfBit, packUK, BitVec.getLsbD_append]; simp
  refine ⟨h, ?_⟩
  simp only [opcodeOf, h, if_true]
  congr 1
  ext k hk
  rw [BitVec.getElem_extractLsb']
  obtain rfl | rfl | rfl | rfl | rfl | rfl | rfl :
      k = 0 ∨ k = 1 ∨ k = 2 ∨ k = 3 ∨ k = 4 ∨ k = 5 ∨ k = 6 := by omega
  all_goals simp only [packUK, BitVec.getLsbD_append]; simp [← BitVec.getLsbD_eq_getElem]
theorem packUB_head (op : BitVec 7) (o : UB) :
    halfBit (packUB op o) = true ∧ opcodeOf (packUB op o) = op.toNat := by
  have h : halfBit (packUB op o) = true := by
    simp only [halfBit, packUB, BitVec.getLsbD_append]; simp
  refine ⟨h, ?_⟩
  simp only [opcodeOf, h, if_true]
  congr 1
  ext k hk
  rw [BitVec.getElem_extractLsb']
  obtain rfl | rfl | rfl | rfl | rfl | rfl | rfl :
      k = 0 ∨ k = 1 ∨ k = 2 ∨ k = 3 ∨ k = 4 ∨ k = 5 ∨ k = 6 := by omega
  all_goals simp only [packUB, BitVec.getLsbD_append]; simp [← BitVec.getLsbD_eq_getElem]
theorem packUJ_head (op : BitVec 7) (o : UJ) :
    halfBit (packUJ op o) = true ∧ opcodeOf (packUJ op o) = op.toNat := by
  have h : halfBit (packUJ op o) = true := by
    simp only [halfBit, packUJ, BitVec.getLsbD_append]; simp
  refine ⟨h, ?_⟩
  simp only [opcodeOf, h, if_true]
  congr 1
  ext k hk
  rw [BitVec.getElem_extractLsb']
  obtain rfl | rfl | rfl | rfl | rfl | rfl | rfl :
      k = 0 ∨ k = 1 ∨ k = 2 ∨ k = 3 ∨ k = 4 ∨ k = 5 ∨ k = 6 := by omega
  all_goals simp only [packUJ, BitVec.getLsbD_append]; simp [← BitVec.getLsbD_eq_getElem]
theorem packUS_head (op : BitVec 7) (o : US) :
    halfBit (packUS op o) = true ∧ opcodeOf (packUS op o) = op.toNat := by
  have h : halfBit (packUS op o) = true := by
    simp only [halfBit, packUS, BitVec.getLsbD_append]; simp
  refine ⟨h, ?_⟩
  simp only [opcodeOf, h, if_true]
  congr 1
  ext k hk
  rw [BitVec.getElem_extractLsb']
  obtain rfl | rfl | rfl | rfl | rfl | rfl | rfl :
      k = 0 ∨ k = 1 ∨ k = 2 ∨ k = 3 ∨ k = 4 ∨ k = 5 ∨ k = 6 := by omega
  all_goals simp only [packUS, BitVec.getLsbD_append]; simp [← BitVec.getLsbD_eq_getElem]
theorem packUL0_head (op : BitVec 7) (o : UL) :
    halfBit (packUL0 op o) = true ∧ opcodeOf (packUL0 op o) = op.toNat := by
  have h : halfBit (packUL0 op o) = true := by
    simp only [halfBit, packUL0, BitVec.getLsbD_append]; simp
  refine ⟨h, ?_⟩
  simp only [opcodeOf, h, if_true]
  congr 1
  ext k hk
  rw [BitVec.getElem_extractLsb']
  obtain rfl | rfl | rfl | rfl | rfl | rfl | rfl :
      k = 0 ∨ k = 1 ∨ k = 2 ∨ k = 3 ∨ k = 4 ∨ k = 5 ∨ k = 6 := by omega
  all_goals simp only [packUL0, BitVec.getLsbD_append]; simp [← BitVec.getLsbD_eq_getElem]

/-- R70: the first word of an instruction tells its bytes, and an event has no word. -/
def Framing.Statement (i : Instr) : Prop :=
  (isEncoded i = false → encode i = []) ∧ ∀ w rest, encode i = w :: rest → lengthOf w = 4 * (rest.length + 1)

theorem framing_event {i : Instr} (h : encode i = []) : Framing.Statement i :=
  ⟨fun _ => h, fun w rest e => by rw [h] at e; cases e⟩
theorem framing_lane {i : Instr} {w : Word} {n : Nat} {l : List Word} (h : encode i = w :: l)
    (hw : halfBit w = false ∧ opcodeOf w = n) (hn : (if 0xF0 ≤ n then 8 else 4) = 4 * (l.length + 1)) : Framing.Statement i := by
  refine ⟨fun e => by simp [isEncoded, h] at e, fun v rest e => ?_⟩
  rw [h] at e
  cases e
  simpa [lengthOf, isLong, hw.1, hw.2] using hn
theorem framing_uniform {i : Instr} {w : Word} {n : Nat} {l : List Word} (h : encode i = w :: l)
    (hw : halfBit w = true ∧ opcodeOf w = n) (hn : (if 0x70 ≤ n then 8 else 4) = 4 * (l.length + 1)) : Framing.Statement i := by
  refine ⟨fun e => by simp [isEncoded, h] at e, fun v rest e => ?_⟩
  rw [h] at e
  cases e
  simpa [lengthOf, isLong, hw.1, hw.2] using hn

theorem Framing.packageColdReset (o : PkgRef) : Framing.Statement (.packageColdReset o) := framing_event rfl
theorem Framing.illegalOpcode (o : Words) : Framing.Statement (.illegalOpcode o) := framing_event rfl
theorem Framing.sleepExpiry (o : SlotRef) : Framing.Statement (.sleepExpiry o) := framing_event rfl
theorem Framing.rngseedWrite (o : SysValue) : Framing.Statement (.rngseedWrite o) := framing_event rfl
theorem Framing.barcfgWrite (o : SysValue) : Framing.Statement (.barcfgWrite o) := framing_event rfl
theorem Framing.scopeWrite (o : SysValue) : Framing.Statement (.scopeWrite o) := framing_event rfl
theorem Framing.wpctlWrite (o : SysValue) : Framing.Statement (.wpctlWrite o) := framing_event rfl
theorem Framing.matrixOpComplete (o : CoreItem) : Framing.Statement (.matrixOpComplete o) := framing_event rfl
theorem Framing.producerWriteback (o : CoreItem) : Framing.Statement (.producerWriteback o) := framing_event rfl
theorem Framing.trapDelivery (o : StrandRef) : Framing.Statement (.trapDelivery o) := framing_event rfl
theorem Framing.partyHalt (o : CoreRef) : Framing.Statement (.partyHalt o) := framing_event rfl
theorem Framing.debugHalt (o : HaltReq) : Framing.Statement (.debugHalt o) := framing_event rfl
theorem Framing.partyEnd (o : CoreRef) : Framing.Statement (.partyEnd o) := framing_event rfl
theorem Framing.partySave (o : CoreRef) : Framing.Statement (.partySave o) := framing_event rfl
theorem Framing.pageWalk (o : WalkReq) : Framing.Statement (.pageWalk o) := framing_event rfl
theorem Framing.faultService (o : FaultReq) : Framing.Statement (.faultService o) := framing_event rfl
theorem Framing.faultTimeout (o : FaultRef) : Framing.Statement (.faultTimeout o) := framing_event rfl
theorem Framing.readRequest (o : ReadReq) : Framing.Statement (.readRequest o) := framing_event rfl
theorem Framing.readResponse (o : ReadResp) : Framing.Statement (.readResponse o) := framing_event rfl
theorem Framing.storeDrain (o : CoreItem) : Framing.Statement (.storeDrain o) := framing_event rfl
theorem Framing.homeStore (o : StoreMsg) : Framing.Statement (.homeStore o) := framing_event rfl
theorem Framing.storeAcknowledgement (o : StoreAck) : Framing.Statement (.storeAcknowledgement o) := framing_event rfl
theorem Framing.atomicRequest (o : AtomMsg) : Framing.Statement (.atomicRequest o) := framing_event rfl
theorem Framing.atomicResponse (o : AtomResp) : Framing.Statement (.atomicResponse o) := framing_event rfl
theorem Framing.addDrainLine (o : DrainLine) : Framing.Statement (.addDrainLine o) := framing_event rfl
theorem Framing.transactionCommitStep (o : CommitStep) : Framing.Statement (.transactionCommitStep o) := framing_event rfl
theorem Framing.coreBackedAccess (o : CoreBacked) : Framing.Statement (.coreBackedAccess o) := framing_event rfl
theorem Framing.poisonDetect (o : EccError) : Framing.Statement (.poisonDetect o) := framing_event rfl
theorem Framing.driftTick (o : CoreRef) : Framing.Statement (.driftTick o) := framing_event rfl
theorem Framing.rebase (o : PkgRef) : Framing.Statement (.rebase o) := framing_event rfl
theorem Framing.rebaseSweep (o : SweepReq) : Framing.Statement (.rebaseSweep o) := framing_event rfl
theorem Framing.segmentLand (o : SegRef) : Framing.Statement (.segmentLand o) := framing_event rfl
theorem Framing.segmentFail (o : SegFail) : Framing.Statement (.segmentFail o) := framing_event rfl
theorem Framing.copyCompletion (o : CoreItem) : Framing.Statement (.copyCompletion o) := framing_event rfl
theorem Framing.anchorCountEvent (o : CountEvent) : Framing.Statement (.anchorCountEvent o) := framing_event rfl
theorem Framing.thermalHoldEnter (o : ThermalRef) : Framing.Statement (.thermalHoldEnter o) := framing_event rfl
theorem Framing.thermalHoldEnd (o : ThermalRef) : Framing.Statement (.thermalHoldEnd o) := framing_event rfl
theorem Framing.droopEvent (o : CoreRef) : Framing.Statement (.droopEvent o) := framing_event rfl
theorem Framing.binTimerExpiry (o : BinRef) : Framing.Statement (.binTimerExpiry o) := framing_event rfl
theorem Framing.hashedSteal (o : GridPkg) : Framing.Statement (.hashedSteal o) := framing_event rfl
theorem Framing.packetAccept (o : PacketRef) : Framing.Statement (.packetAccept o) := framing_event rfl
theorem Framing.collectivePacket (o : PacketRef) : Framing.Statement (.collectivePacket o) := framing_event rfl
theorem Framing.packetApply (o : PacketRef) : Framing.Statement (.packetApply o) := framing_event rfl
theorem Framing.packetOutcome (o : PacketRef) : Framing.Statement (.packetOutcome o) := framing_event rfl
theorem Framing.outcomeQueryTimer (o : OutcomeQuery) : Framing.Statement (.outcomeQueryTimer o) := framing_event rfl
theorem Framing.flitReceive (o : FlitRecv) : Framing.Statement (.flitReceive o) := framing_event rfl
theorem Framing.ackTimeout (o : LinkRef) : Framing.Statement (.ackTimeout o) := framing_event rfl
theorem Framing.moduleCheckEnd (o : ModuleCheck) : Framing.Statement (.moduleCheckEnd o) := framing_event rfl
theorem Framing.heartbeat (o : Heartbeat) : Framing.Statement (.heartbeat o) := framing_event rfl
theorem Framing.dieAdoption (o : DieRef) : Framing.Statement (.dieAdoption o) := framing_event rfl
theorem Framing.roleTakeover (o : RoleRef) : Framing.Statement (.roleTakeover o) := framing_event rfl
theorem Framing.powerCapCheck (o : PowerSample) : Framing.Statement (.powerCapCheck o) := framing_event rfl
theorem Framing.nopCommand (o : Cmd) : Framing.Statement (.nopCommand o) := framing_event rfl
theorem Framing.launch (o : Cmd) : Framing.Statement (.launch o) := framing_event rfl
theorem Framing.preempt (o : Cmd) : Framing.Statement (.preempt o) := framing_event rfl
theorem Framing.resume (o : Cmd) : Framing.Statement (.resume o) := framing_event rfl
theorem Framing.semsig (o : Cmd) : Framing.Statement (.semsig o) := framing_event rfl
theorem Framing.semwait (o : Cmd) : Framing.Statement (.semwait o) := framing_event rfl
theorem Framing.ibuf (o : Cmd) : Framing.Statement (.ibuf o) := framing_event rfl
theorem Framing.mapupdate (o : Cmd) : Framing.Statement (.mapupdate o) := framing_event rfl
theorem Framing.hostcopy (o : Cmd) : Framing.Statement (.hostcopy o) := framing_event rfl
theorem Framing.timestamp (o : Cmd) : Framing.Statement (.timestamp o) := framing_event rfl
theorem Framing.debugCmd (o : Cmd) : Framing.Statement (.debugCmd o) := framing_event rfl
theorem Framing.commandCompletion (o : CmdResult) : Framing.Statement (.commandCompletion o) := framing_event rfl
theorem Framing.qtailWrite (o : RegWrite) : Framing.Statement (.qtailWrite o) := framing_event rfl
theorem Framing.qbaseWrite (o : RegWrite) : Framing.Statement (.qbaseWrite o) := framing_event rfl
theorem Framing.qctlEn (o : RegWrite) : Framing.Statement (.qctlEn o) := framing_event rfl
theorem Framing.qctlSkip (o : RegWrite) : Framing.Statement (.qctlSkip o) := framing_event rfl
theorem Framing.cqheadWrite (o : RegWrite) : Framing.Statement (.cqheadWrite o) := framing_event rfl
theorem Framing.fqheadWrite (o : RegWrite) : Framing.Statement (.fqheadWrite o) := framing_event rfl
theorem Framing.cohparamWrite (o : RegWrite) : Framing.Statement (.cohparamWrite o) := framing_event rfl
theorem Framing.holdWrite (o : RegWrite) : Framing.Statement (.holdWrite o) := framing_event rfl
theorem Framing.registerWrite (o : RegWrite) : Framing.Statement (.registerWrite o) := framing_event rfl
theorem Framing.claim (o : MailReq) : Framing.Statement (.claim o) := framing_event rfl
theorem Framing.claimWindowExpiry : Framing.Statement (.claimWindowExpiry) := framing_event rfl
theorem Framing.ownerLinkTimeout : Framing.Statement (.ownerLinkTimeout) := framing_event rfl
theorem Framing.handover (o : MailReq) : Framing.Statement (.handover o) := framing_event rfl
theorem Framing.releaseOwner (o : MailReq) : Framing.Statement (.releaseOwner o) := framing_event rfl
theorem Framing.loadFw (o : MailReq) : Framing.Statement (.loadFw o) := framing_event rfl
theorem Framing.stageFw (o : MailReq) : Framing.Statement (.stageFw o) := framing_event rfl
theorem Framing.switchFw (o : MailReq) : Framing.Statement (.switchFw o) := framing_event rfl
theorem Framing.attest (o : MailReq) : Framing.Statement (.attest o) := framing_event rfl
theorem Framing.retrain (o : MailReq) : Framing.Statement (.retrain o) := framing_event rfl
theorem Framing.hostMemoryAccess (o : HostAccess) : Framing.Statement (.hostMemoryAccess o) := framing_event rfl
theorem Framing.instructionFetchFault (o : FetchFault) : Framing.Statement (.instructionFetchFault o) := framing_event rfl
theorem Framing.reservedField (o : Words) : Framing.Statement (.reservedField o) := framing_event rfl
theorem Framing.flitStart (o : LinkRef) : Framing.Statement (.flitStart o) := framing_event rfl
theorem Framing.hostLinkChange (o : LinkChange) : Framing.Statement (.hostLinkChange o) := framing_event rfl
theorem Framing.sensorRefresh (o : SensorSample) : Framing.Statement (.sensorRefresh o) := framing_event rfl
theorem Framing.ldb (o : LM) : Framing.Statement (.ldb o) := framing_lane rfl (packLM_head 0xB0 o) rfl
theorem Framing.ldbs (o : LM) : Framing.Statement (.ldbs o) := framing_lane rfl (packLM_head 0xB1 o) rfl
theorem Framing.ldh (o : LM) : Framing.Statement (.ldh o) := framing_lane rfl (packLM_head 0xB2 o) rfl
theorem Framing.ldhs (o : LM) : Framing.Statement (.ldhs o) := framing_lane rfl (packLM_head 0xB3 o) rfl
theorem Framing.ldw (o : LM) : Framing.Statement (.ldw o) := framing_lane rfl (packLM_head 0xB4 o) rfl
theorem Framing.ldd (o : LM) : Framing.Statement (.ldd o) := framing_lane rfl (packLM_head 0xB5 o) rfl
theorem Framing.ldq (o : LM) : Framing.Statement (.ldq o) := framing_lane rfl (packLM_head 0xB6 o) rfl
theorem Framing.stb (o : LM) : Framing.Statement (.stb o) := framing_lane rfl (packLM_head 0xB8 o) rfl
theorem Framing.sth (o : LM) : Framing.Statement (.sth o) := framing_lane rfl (packLM_head 0xB9 o) rfl
theorem Framing.stw (o : LM) : Framing.Statement (.stw o) := framing_lane rfl (packLM_head 0xBA o) rfl
theorem Framing.std (o : LM) : Framing.Statement (.std o) := framing_lane rfl (packLM_head 0xBB o) rfl
theorem Framing.stq (o : LM) : Framing.Statement (.stq o) := framing_lane rfl (packLM_head 0xBC o) rfl
theorem Framing.tagst (o : LM) : Framing.Statement (.tagst o) := framing_lane rfl (packLM_head 0xBD o) rfl
theorem Framing.tagld (o : LM) : Framing.Statement (.tagld o) := framing_lane rfl (packLM_head 0xBE o) rfl
theorem Framing.cpw (o : LM) : Framing.Statement (.cpw o) := framing_lane rfl (packLM_head 0xC0 o) rfl
theorem Framing.cpd (o : LM) : Framing.Statement (.cpd o) := framing_lane rfl (packLM_head 0xC1 o) rfl
theorem Framing.cpq (o : LM) : Framing.Statement (.cpq o) := framing_lane rfl (packLM_head 0xC2 o) rfl
theorem Framing.cpws (o : LM) : Framing.Statement (.cpws o) := framing_lane rfl (packLM_head 0xC3 o) rfl
theorem Framing.cpds (o : LM) : Framing.Statement (.cpds o) := framing_lane rfl (packLM_head 0xC4 o) rfl
theorem Framing.cpqs (o : LM) : Framing.Statement (.cpqs o) := framing_lane rfl (packLM_head 0xC5 o) rfl
theorem Framing.tbegin (o : LR) : Framing.Statement (.tbegin o) := framing_lane rfl (packLR_head 0xC8 o) rfl
theorem Framing.tcommit (o : LC) : Framing.Statement (.tcommit o) := framing_lane rfl (packLC_head 0xC9 o) rfl
theorem Framing.tcancel (o : LR) : Framing.Statement (.tcancel o) := framing_lane rfl (packLR_head 0xCA o) rfl
theorem Framing.atom (o : LL) : Framing.Statement (.atom o) := framing_lane rfl (packLL0_head 0xF0 o) rfl
theorem Framing.ldo (o : LL) : Framing.Statement (.ldo o) := framing_lane rfl (packLL0_head 0xF1 o) rfl
theorem Framing.sto (o : LL) : Framing.Statement (.sto o) := framing_lane rfl (packLL0_head 0xF2 o) rfl
theorem Framing.cprow (o : LL) : Framing.Statement (.cprow o) := framing_lane rfl (packLL0_head 0xF3 o) rfl
theorem Framing.xput (o : LL) : Framing.Statement (.xput o) := framing_lane rfl (packLL0_head 0xF4 o) rfl
theorem Framing.xget (o : LL) : Framing.Statement (.xget o) := framing_lane rfl (packLL0_head 0xF5 o) rfl
theorem Framing.xred (o : LL) : Framing.Statement (.xred o) := framing_lane rfl (packLL0_head 0xF6 o) rfl
theorem Framing.xamo (o : LL) : Framing.Statement (.xamo o) := framing_lane rfl (packLL0_head 0xF7 o) rfl
theorem Framing.xsig (o : LL) : Framing.Statement (.xsig o) := framing_lane rfl (packLL0_head 0xF8 o) rfl
theorem Framing.emit (o : LL) : Framing.Statement (.emit o) := framing_lane rfl (packLL0_head 0xF9 o) rfl
theorem Framing.sadd (o : UR) : Framing.Statement (.sadd o) := framing_uniform rfl (packUR_head 0x00 o) rfl
theorem Framing.ssub (o : UR) : Framing.Statement (.ssub o) := framing_uniform rfl (packUR_head 0x01 o) rfl
theorem Framing.smul (o : UR) : Framing.Statement (.smul o) := framing_uniform rfl (packUR_head 0x02 o) rfl
theorem Framing.smulh (o : UR) : Framing.Statement (.smulh o) := framing_uniform rfl (packUR_head 0x03 o) rfl
theorem Framing.smulhn (o : UR) : Framing.Statement (.smulhn o) := framing_uniform rfl (packUR_head 0x04 o) rfl
theorem Framing.sdiv (o : UR) : Framing.Statement (.sdiv o) := framing_uniform rfl (packUR_head 0x05 o) rfl
theorem Framing.sdivn (o : UR) : Framing.Statement (.sdivn o) := framing_uniform rfl (packUR_head 0x06 o) rfl
theorem Framing.srem (o : UR) : Framing.Statement (.srem o) := framing_uniform rfl (packUR_head 0x07 o) rfl
theorem Framing.sremn (o : UR) : Framing.Statement (.sremn o) := framing_uniform rfl (packUR_head 0x08 o) rfl
theorem Framing.sand (o : UR) : Framing.Statement (.sand o) := framing_uniform rfl (packUR_head 0x09 o) rfl
theorem Framing.sor (o : UR) : Framing.Statement (.sor o) := framing_uniform rfl (packUR_head 0x0A o) rfl
theorem Framing.sxor (o : UR) : Framing.Statement (.sxor o) := framing_uniform rfl (packUR_head 0x0B o) rfl
theorem Framing.sandn (o : UR) : Framing.Statement (.sandn o) := framing_uniform rfl (packUR_head 0x0C o) rfl
theorem Framing.sshl (o : UR) : Framing.Statement (.sshl o) := framing_uniform rfl (packUR_head 0x0D o) rfl
theorem Framing.sshr (o : UR) : Framing.Statement (.sshr o) := framing_uniform rfl (packUR_head 0x0E o) rfl
theorem Framing.ssar (o : UR) : Framing.Statement (.ssar o) := framing_uniform rfl (packUR_head 0x0F o) rfl
theorem Framing.smin (o : UR) : Framing.Statement (.smin o) := framing_uniform rfl (packUR_head 0x10 o) rfl
theorem Framing.smax (o : UR) : Framing.Statement (.smax o) := framing_uniform rfl (packUR_head 0x11 o) rfl
theorem Framing.sminn (o : UR) : Framing.Statement (.sminn o) := framing_uniform rfl (packUR_head 0x12 o) rfl
theorem Framing.smaxn (o : UR) : Framing.Statement (.smaxn o) := framing_uniform rfl (packUR_head 0x13 o) rfl
theorem Framing.sclz (o : UR) : Framing.Statement (.sclz o) := framing_uniform rfl (packUR_head 0x14 o) rfl
theorem Framing.spop (o : UR) : Framing.Statement (.spop o) := framing_uniform rfl (packUR_head 0x15 o) rfl
theorem Framing.sbfx (o : UR) : Framing.Statement (.sbfx o) := framing_uniform rfl (packUR_head 0x16 o) rfl
theorem Framing.sbfi (o : UR) : Framing.Statement (.sbfi o) := framing_uniform rfl (packUR_head 0x17 o) rfl
theorem Framing.scmp (o : UR) : Framing.Statement (.scmp o) := framing_uniform rfl (packUR_head 0x18 o) rfl
theorem Framing.ssel (o : UR) : Framing.Statement (.ssel o) := framing_uniform rfl (packUR_head 0x19 o) rfl
theorem Framing.smov (o : UR) : Framing.Statement (.smov o) := framing_uniform rfl (packUR_head 0x1A o) rfl
theorem Framing.srot (o : UR) : Framing.Statement (.srot o) := framing_uniform rfl (packUR_head 0x1B o) rfl
theorem Framing.saddi (o : UI) : Framing.Statement (.saddi o) := framing_uniform rfl (packUI_head 0x20 o) rfl
theorem Framing.sandi (o : UI) : Framing.Statement (.sandi o) := framing_uniform rfl (packUI_head 0x21 o) rfl
theorem Framing.sori (o : UI) : Framing.Statement (.sori o) := framing_uniform rfl (packUI_head 0x22 o) rfl
theorem Framing.sxori (o : UI) : Framing.Statement (.sxori o) := framing_uniform rfl (packUI_head 0x23 o) rfl
theorem Framing.sshli (o : UI) : Framing.Statement (.sshli o) := framing_uniform rfl (packUI_head 0x24 o) rfl
theorem Framing.sshri (o : UI) : Framing.Statement (.sshri o) := framing_uniform rfl (packUI_head 0x25 o) rfl
theorem Framing.ssari (o : UI) : Framing.Statement (.ssari o) := framing_uniform rfl (packUI_head 0x26 o) rfl
theorem Framing.scmpi (o : UI) : Framing.Statement (.scmpi o) := framing_uniform rfl (packUI_head 0x27 o) rfl
theorem Framing.smuli (o : UI) : Framing.Statement (.smuli o) := framing_uniform rfl (packUI_head 0x28 o) rfl
theorem Framing.scset (o : UI) : Framing.Statement (.scset o) := framing_uniform rfl (packUI_head 0x29 o) rfl
theorem Framing.slimz (o : UK) : Framing.Statement (.slimz o) := framing_uniform rfl (packUK_head 0x2A o) rfl
theorem Framing.slimk (o : UK) : Framing.Statement (.slimk o) := framing_uniform rfl (packUK_head 0x2B o) rfl
theorem Framing.sldw (o : UI) : Framing.Statement (.sldw o) := framing_uniform rfl (packUI_head 0x2C o) rfl
theorem Framing.sldd (o : UI) : Framing.Statement (.sldd o) := framing_uniform rfl (packUI_head 0x2D o) rfl
theorem Framing.sstw (o : UI) : Framing.Statement (.sstw o) := framing_uniform rfl (packUI_head 0x2E o) rfl
theorem Framing.sstd (o : UI) : Framing.Statement (.sstd o) := framing_uniform rfl (packUI_head 0x2F o) rfl
theorem Framing.mand (o : UR) : Framing.Statement (.mand o) := framing_uniform rfl (packUR_head 0x30 o) rfl
theorem Framing.mor (o : UR) : Framing.Statement (.mor o) := framing_uniform rfl (packUR_head 0x31 o) rfl
theorem Framing.mxor (o : UR) : Framing.Statement (.mxor o) := framing_uniform rfl (packUR_head 0x32 o) rfl
theorem Framing.mandn (o : UR) : Framing.Statement (.mandn o) := framing_uniform rfl (packUR_head 0x33 o) rfl
theorem Framing.mnot (o : UR) : Framing.Statement (.mnot o) := framing_uniform rfl (packUR_head 0x34 o) rfl
theorem Framing.mpop (o : UR) : Framing.Statement (.mpop o) := framing_uniform rfl (packUR_head 0x35 o) rfl
theorem Framing.mffs (o : UR) : Framing.Statement (.mffs o) := framing_uniform rfl (packUR_head 0x36 o) rfl
theorem Framing.mtest (o : UR) : Framing.Statement (.mtest o) := framing_uniform rfl (packUR_head 0x37 o) rfl
theorem Framing.br (o : UB) : Framing.Statement (.br o) := framing_uniform rfl (packUB_head 0x40 o) rfl
theorem Framing.jmp (o : UJ) : Framing.Statement (.jmp o) := framing_uniform rfl (packUJ_head 0x41 o) rfl
theorem Framing.call (o : UJ) : Framing.Statement (.call o) := framing_uniform rfl (packUJ_head 0x42 o) rfl
theorem Framing.jmpr (o : UR) : Framing.Statement (.jmpr o) := framing_uniform rfl (packUR_head 0x43 o) rfl
theorem Framing.callr (o : UR) : Framing.Statement (.callr o) := framing_uniform rfl (packUR_head 0x44 o) rfl
theorem Framing.ret (o : UR) : Framing.Statement (.ret o) := framing_uniform rfl (packUR_head 0x45 o) rfl
theorem Framing.split (o : US) : Framing.Statement (.split o) := framing_uniform rfl (packUS_head 0x46 o) rfl
theorem Framing.join (o : UJ) : Framing.Statement (.join o) := framing_uniform rfl (packUJ_head 0x47 o) rfl
theorem Framing.bar (o : UI) : Framing.Statement (.bar o) := framing_uniform rfl (packUI_head 0x50 o) rfl
theorem Framing.waitp (o : UR) : Framing.Statement (.waitp o) := framing_uniform rfl (packUR_head 0x51 o) rfl
theorem Framing.pclose (o : UR) : Framing.Statement (.pclose o) := framing_uniform rfl (packUR_head 0x52 o) rfl
theorem Framing.anset (o : UR) : Framing.Statement (.anset o) := framing_uniform rfl (packUR_head 0x53 o) rfl
theorem Framing.anwait (o : UR) : Framing.Statement (.anwait o) := framing_uniform rfl (packUR_head 0x54 o) rfl
theorem Framing.anarr (o : UR) : Framing.Statement (.anarr o) := framing_uniform rfl (packUR_head 0x55 o) rfl
theorem Framing.aninit (o : UR) : Framing.Statement (.aninit o) := framing_uniform rfl (packUR_head 0x56 o) rfl
theorem Framing.anexp (o : UR) : Framing.Statement (.anexp o) := framing_uniform rfl (packUR_head 0x57 o) rfl
theorem Framing.fence (o : UI) : Framing.Statement (.fence o) := framing_uniform rfl (packUI_head 0x58 o) rfl
theorem Framing.sleep (o : UI) : Framing.Statement (.sleep o) := framing_uniform rfl (packUI_head 0x59 o) rfl
theorem Framing.yield (o : UJ) : Framing.Statement (.yield o) := framing_uniform rfl (packUJ_head 0x5A o) rfl
theorem Framing.nop (o : UJ) : Framing.Statement (.nop o) := framing_uniform rfl (packUJ_head 0x5B o) rfl
theorem Framing.waitf (o : UR) : Framing.Statement (.waitf o) := framing_uniform rfl (packUR_head 0x5C o) rfl
theorem Framing.fetch (o : UR) : Framing.Statement (.fetch o) := framing_uniform rfl (packUR_head 0x5D o) rfl
theorem Framing.fetchb (o : UR) : Framing.Statement (.fetchb o) := framing_uniform rfl (packUR_head 0x5E o) rfl
theorem Framing.wdone (o : UR) : Framing.Statement (.wdone o) := framing_uniform rfl (packUR_head 0x5F o) rfl
theorem Framing.sysrd (o : UI) : Framing.Statement (.sysrd o) := framing_uniform rfl (packUI_head 0x60 o) rfl
theorem Framing.syswr (o : UI) : Framing.Statement (.syswr o) := framing_uniform rfl (packUI_head 0x61 o) rfl
theorem Framing.trap (o : UI) : Framing.Statement (.trap o) := framing_uniform rfl (packUI_head 0x62 o) rfl
theorem Framing.eret (o : UJ) : Framing.Statement (.eret o) := framing_uniform rfl (packUJ_head 0x63 o) rfl
theorem Framing.brk (o : UI) : Framing.Statement (.brk o) := framing_uniform rfl (packUI_head 0x64 o) rfl
theorem Framing.clkrd (o : UR) : Framing.Statement (.clkrd o) := framing_uniform rfl (packUR_head 0x65 o) rfl
theorem Framing.endStrand (o : UJ) : Framing.Statement (.endStrand o) := framing_uniform rfl (packUJ_head 0x66 o) rfl
theorem Framing.kadd (o : UR) : Framing.Statement (.kadd o) := framing_uniform rfl (packUR_head 0x68 o) rfl
theorem Framing.kaddi (o : UI) : Framing.Statement (.kaddi o) := framing_uniform rfl (packUI_head 0x69 o) rfl
theorem Framing.klim (o : UI) : Framing.Statement (.klim o) := framing_uniform rfl (packUI_head 0x6A o) rfl
theorem Framing.kloop (o : UI) : Framing.Statement (.kloop o) := framing_uniform rfl (packUI_head 0x6B o) rfl
theorem Framing.kbar (o : UI) : Framing.Statement (.kbar o) := framing_uniform rfl (packUI_head 0x6C o) rfl
theorem Framing.tzero (o : UI) : Framing.Statement (.tzero o) := framing_uniform rfl (packUI_head 0x6D o) rfl
theorem Framing.mfence (o : UJ) : Framing.Statement (.mfence o) := framing_uniform rfl (packUJ_head 0x6E o) rfl
theorem Framing.mend (o : UJ) : Framing.Statement (.mend o) := framing_uniform rfl (packUJ_head 0x6F o) rfl
theorem Framing.cpbox (o : UL) : Framing.Statement (.cpbox o) := framing_uniform rfl (packUL0_head 0x70 o) rfl
theorem Framing.txa (o : UL) : Framing.Statement (.txa o) := framing_uniform rfl (packUL0_head 0x71 o) rfl
theorem Framing.xflow (o : UL) : Framing.Statement (.xflow o) := framing_uniform rfl (packUL0_head 0x72 o) rfl
theorem Framing.mstart (o : UL) : Framing.Statement (.mstart o) := framing_uniform rfl (packUL0_head 0x73 o) rfl
theorem Framing.xabort (o : UL) : Framing.Statement (.xabort o) := framing_uniform rfl (packUL0_head 0x74 o) rfl
theorem Framing.tagfill (o : UL) : Framing.Statement (.tagfill o) := framing_uniform rfl (packUL0_head 0x75 o) rfl
theorem Framing.tcfg (o : UL) : Framing.Statement (.tcfg o) := framing_uniform rfl (packUL0_head 0x78 o) rfl
theorem Framing.wload (o : UL) : Framing.Statement (.wload o) := framing_uniform rfl (packUL0_head 0x79 o) rfl
theorem Framing.mma (o : UL) : Framing.Statement (.mma o) := framing_uniform rfl (packUL0_head 0x7A o) rfl
theorem Framing.mmar (o : UL) : Framing.Statement (.mmar o) := framing_uniform rfl (packUL0_head 0x7B o) rfl
theorem Framing.drain (o : UL) : Framing.Statement (.drain o) := framing_uniform rfl (packUL0_head 0x7C o) rfl
theorem Framing.tload (o : UL) : Framing.Statement (.tload o) := framing_uniform rfl (packUL0_head 0x7D o) rfl
theorem Framing.vadd (o : LR) : Framing.Statement (.vadd o) := framing_lane rfl (packLR_head 0x01 o) rfl
theorem Framing.vsub (o : LR) : Framing.Statement (.vsub o) := framing_lane rfl (packLR_head 0x02 o) rfl
theorem Framing.vadds (o : LR) : Framing.Statement (.vadds o) := framing_lane rfl (packLR_head 0x03 o) rfl
theorem Framing.vsubs (o : LR) : Framing.Statement (.vsubs o) := framing_lane rfl (packLR_head 0x04 o) rfl
theorem Framing.vaddsn (o : LR) : Framing.Statement (.vaddsn o) := framing_lane rfl (packLR_head 0x05 o) rfl
theorem Framing.vsubsn (o : LR) : Framing.Statement (.vsubsn o) := framing_lane rfl (packLR_head 0x06 o) rfl
theorem Framing.vmul (o : LR) : Framing.Statement (.vmul o) := framing_lane rfl (packLR_head 0x07 o) rfl
theorem Framing.vmulh (o : LR) : Framing.Statement (.vmulh o) := framing_lane rfl (packLR_head 0x08 o) rfl
theorem Framing.vmulhn (o : LR) : Framing.Statement (.vmulhn o) := framing_lane rfl (packLR_head 0x09 o) rfl
theorem Framing.vmad (o : LR) : Framing.Statement (.vmad o) := framing_lane rfl (packLR_head 0x0A o) rfl
theorem Framing.vdiv (o : LR) : Framing.Statement (.vdiv o) := framing_lane rfl (packLR_head 0x0B o) rfl
theorem Framing.vdivn (o : LR) : Framing.Statement (.vdivn o) := framing_lane rfl (packLR_head 0x0C o) rfl
theorem Framing.vrem (o : LR) : Framing.Statement (.vrem o) := framing_lane rfl (packLR_head 0x0D o) rfl
theorem Framing.vremn (o : LR) : Framing.Statement (.vremn o) := framing_lane rfl (packLR_head 0x0E o) rfl
theorem Framing.vmin (o : LR) : Framing.Statement (.vmin o) := framing_lane rfl (packLR_head 0x0F o) rfl
theorem Framing.vmax (o : LR) : Framing.Statement (.vmax o) := framing_lane rfl (packLR_head 0x10 o) rfl
theorem Framing.vminn (o : LR) : Framing.Statement (.vminn o) := framing_lane rfl (packLR_head 0x11 o) rfl
theorem Framing.vmaxn (o : LR) : Framing.Statement (.vmaxn o) := framing_lane rfl (packLR_head 0x12 o) rfl
theorem Framing.vand (o : LR) : Framing.Statement (.vand o) := framing_lane rfl (packLR_head 0x13 o) rfl
theorem Framing.vor (o : LR) : Framing.Statement (.vor o) := framing_lane rfl (packLR_head 0x14 o) rfl
theorem Framing.vxor (o : LR) : Framing.Statement (.vxor o) := framing_lane rfl (packLR_head 0x15 o) rfl
theorem Framing.vandn (o : LR) : Framing.Statement (.vandn o) := framing_lane rfl (packLR_head 0x16 o) rfl
theorem Framing.vshl (o : LR) : Framing.Statement (.vshl o) := framing_lane rfl (packLR_head 0x17 o) rfl
theorem Framing.vshr (o : LR) : Framing.Statement (.vshr o) := framing_lane rfl (packLR_head 0x18 o) rfl
theorem Framing.vsar (o : LR) : Framing.Statement (.vsar o) := framing_lane rfl (packLR_head 0x19 o) rfl
theorem Framing.vrot (o : LR) : Framing.Statement (.vrot o) := framing_lane rfl (packLR_head 0x1A o) rfl
theorem Framing.vabs (o : LR) : Framing.Statement (.vabs o) := framing_lane rfl (packLR_head 0x1B o) rfl
theorem Framing.vneg (o : LR) : Framing.Statement (.vneg o) := framing_lane rfl (packLR_head 0x1C o) rfl
theorem Framing.vclz (o : LR) : Framing.Statement (.vclz o) := framing_lane rfl (packLR_head 0x1D o) rfl
theorem Framing.vpop (o : LR) : Framing.Statement (.vpop o) := framing_lane rfl (packLR_head 0x1E o) rfl
theorem Framing.vbrev (o : LR) : Framing.Statement (.vbrev o) := framing_lane rfl (packLR_head 0x1F o) rfl
theorem Framing.vsel (o : LR) : Framing.Statement (.vsel o) := framing_lane rfl (packLR_head 0x20 o) rfl
theorem Framing.vbfxn (o : LR) : Framing.Statement (.vbfxn o) := framing_lane rfl (packLR_head 0x21 o) rfl
theorem Framing.vbfxs (o : LR) : Framing.Statement (.vbfxs o) := framing_lane rfl (packLR_head 0x22 o) rfl
theorem Framing.vbfi (o : LR) : Framing.Statement (.vbfi o) := framing_lane rfl (packLR_head 0x23 o) rfl
theorem Framing.vmov (o : LR) : Framing.Statement (.vmov o) := framing_lane rfl (packLR_head 0x24 o) rfl
theorem Framing.vmrank (o : LR) : Framing.Statement (.vmrank o) := framing_lane rfl (packLR_head 0x25 o) rfl
theorem Framing.vadd64 (o : LR) : Framing.Statement (.vadd64 o) := framing_lane rfl (packLR_head 0x30 o) rfl
theorem Framing.vsub64 (o : LR) : Framing.Statement (.vsub64 o) := framing_lane rfl (packLR_head 0x31 o) rfl
theorem Framing.vmul64 (o : LR) : Framing.Statement (.vmul64 o) := framing_lane rfl (packLR_head 0x32 o) rfl
theorem Framing.vmulw (o : LR) : Framing.Statement (.vmulw o) := framing_lane rfl (packLR_head 0x33 o) rfl
theorem Framing.vmulwn (o : LR) : Framing.Statement (.vmulwn o) := framing_lane rfl (packLR_head 0x34 o) rfl
theorem Framing.vshl64 (o : LR) : Framing.Statement (.vshl64 o) := framing_lane rfl (packLR_head 0x35 o) rfl
theorem Framing.vshr64 (o : LR) : Framing.Statement (.vshr64 o) := framing_lane rfl (packLR_head 0x36 o) rfl
theorem Framing.vsar64 (o : LR) : Framing.Statement (.vsar64 o) := framing_lane rfl (packLR_head 0x37 o) rfl
theorem Framing.vaddi (o : LI) : Framing.Statement (.vaddi o) := framing_lane rfl (packLI_head 0x40 o) rfl
theorem Framing.vandi (o : LI) : Framing.Statement (.vandi o) := framing_lane rfl (packLI_head 0x41 o) rfl
theorem Framing.vori (o : LI) : Framing.Statement (.vori o) := framing_lane rfl (packLI_head 0x42 o) rfl
theorem Framing.vxori (o : LI) : Framing.Statement (.vxori o) := framing_lane rfl (packLI_head 0x43 o) rfl
theorem Framing.vshli (o : LI) : Framing.Statement (.vshli o) := framing_lane rfl (packLI_head 0x44 o) rfl
theorem Framing.vshri (o : LI) : Framing.Statement (.vshri o) := framing_lane rfl (packLI_head 0x45 o) rfl
theorem Framing.vsari (o : LI) : Framing.Statement (.vsari o) := framing_lane rfl (packLI_head 0x46 o) rfl
theorem Framing.vmuli (o : LI) : Framing.Statement (.vmuli o) := framing_lane rfl (packLI_head 0x47 o) rfl
theorem Framing.vroti (o : LI) : Framing.Statement (.vroti o) := framing_lane rfl (packLI_head 0x48 o) rfl
theorem Framing.vmovi (o : LI) : Framing.Statement (.vmovi o) := framing_lane rfl (packLI_head 0x49 o) rfl
theorem Framing.vcmp (o : LC) : Framing.Statement (.vcmp o) := framing_lane rfl (packLC_head 0x50 o) rfl
theorem Framing.vcmpi (o : LCI) : Framing.Statement (.vcmpi o) := framing_lane rfl (packLCI_head 0x51 o) rfl
theorem Framing.vcmp64 (o : LC) : Framing.Statement (.vcmp64 o) := framing_lane rfl (packLC_head 0x52 o) rfl
theorem Framing.fcmpF64 (o : LC) : Framing.Statement (.fcmpF64 o) := framing_lane rfl (packLC_head 0x53 o) rfl
theorem Framing.fcmpF32 (o : LC) : Framing.Statement (.fcmpF32 o) := framing_lane rfl (packLC_head 0x54 o) rfl
theorem Framing.fcmpF16 (o : LC) : Framing.Statement (.fcmpF16 o) := framing_lane rfl (packLC_head 0x55 o) rfl
theorem Framing.fcmpB16 (o : LC) : Framing.Statement (.fcmpB16 o) := framing_lane rfl (packLC_head 0x56 o) rfl
theorem Framing.fclass (o : LCI) : Framing.Statement (.fclass o) := framing_lane rfl (packLCI_head 0x57 o) rfl
theorem Framing.vshfl (o : LR) : Framing.Statement (.vshfl o) := framing_lane rfl (packLR_head 0x60 o) rfl
theorem Framing.vxch (o : LI) : Framing.Statement (.vxch o) := framing_lane rfl (packLI_head 0x61 o) rfl
theorem Framing.vrotl (o : LI) : Framing.Statement (.vrotl o) := framing_lane rfl (packLI_head 0x62 o) rfl
theorem Framing.vbcast (o : LI) : Framing.Statement (.vbcast o) := framing_lane rfl (packLI_head 0x63 o) rfl
theorem Framing.vscan (o : LR) : Framing.Statement (.vscan o) := framing_lane rfl (packLR_head 0x64 o) rfl
theorem Framing.vscanx (o : LR) : Framing.Statement (.vscanx o) := framing_lane rfl (packLR_head 0x65 o) rfl
theorem Framing.vredadd (o : LR) : Framing.Statement (.vredadd o) := framing_lane rfl (packLR_head 0x66 o) rfl
theorem Framing.vredmin (o : LR) : Framing.Statement (.vredmin o) := framing_lane rfl (packLR_head 0x67 o) rfl
theorem Framing.vredmax (o : LR) : Framing.Statement (.vredmax o) := framing_lane rfl (packLR_head 0x68 o) rfl
theorem Framing.vredminn (o : LR) : Framing.Statement (.vredminn o) := framing_lane rfl (packLR_head 0x69 o) rfl
theorem Framing.vredmaxn (o : LR) : Framing.Statement (.vredmaxn o) := framing_lane rfl (packLR_head 0x6A o) rfl
theorem Framing.vredand (o : LR) : Framing.Statement (.vredand o) := framing_lane rfl (packLR_head 0x6B o) rfl
theorem Framing.vredor (o : LR) : Framing.Statement (.vredor o) := framing_lane rfl (packLR_head 0x6C o) rfl
theorem Framing.vredxor (o : LR) : Framing.Statement (.vredxor o) := framing_lane rfl (packLR_head 0x6D o) rfl
theorem Framing.fredadd (o : LR) : Framing.Statement (.fredadd o) := framing_lane rfl (packLR_head 0x6E o) rfl
theorem Framing.faddF64 (o : LR) : Framing.Statement (.faddF64 o) := framing_lane rfl (packLR_head 0x70 o) rfl
theorem Framing.faddF32 (o : LR) : Framing.Statement (.faddF32 o) := framing_lane rfl (packLR_head 0x71 o) rfl
theorem Framing.faddF16 (o : LR) : Framing.Statement (.faddF16 o) := framing_lane rfl (packLR_head 0x72 o) rfl
theorem Framing.faddB16 (o : LR) : Framing.Statement (.faddB16 o) := framing_lane rfl (packLR_head 0x73 o) rfl
theorem Framing.fsubF64 (o : LR) : Framing.Statement (.fsubF64 o) := framing_lane rfl (packLR_head 0x74 o) rfl
theorem Framing.fsubF32 (o : LR) : Framing.Statement (.fsubF32 o) := framing_lane rfl (packLR_head 0x75 o) rfl
theorem Framing.fsubF16 (o : LR) : Framing.Statement (.fsubF16 o) := framing_lane rfl (packLR_head 0x76 o) rfl
theorem Framing.fsubB16 (o : LR) : Framing.Statement (.fsubB16 o) := framing_lane rfl (packLR_head 0x77 o) rfl
theorem Framing.fmulF64 (o : LR) : Framing.Statement (.fmulF64 o) := framing_lane rfl (packLR_head 0x78 o) rfl
theorem Framing.fmulF32 (o : LR) : Framing.Statement (.fmulF32 o) := framing_lane rfl (packLR_head 0x79 o) rfl
theorem Framing.fmulF16 (o : LR) : Framing.Statement (.fmulF16 o) := framing_lane rfl (packLR_head 0x7A o) rfl
theorem Framing.fmulB16 (o : LR) : Framing.Statement (.fmulB16 o) := framing_lane rfl (packLR_head 0x7B o) rfl
theorem Framing.ffmaF64 (o : LR) : Framing.Statement (.ffmaF64 o) := framing_lane rfl (packLR_head 0x7C o) rfl
theorem Framing.ffmaF32 (o : LR) : Framing.Statement (.ffmaF32 o) := framing_lane rfl (packLR_head 0x7D o) rfl
theorem Framing.ffmaF16 (o : LR) : Framing.Statement (.ffmaF16 o) := framing_lane rfl (packLR_head 0x7E o) rfl
theorem Framing.ffmaB16 (o : LR) : Framing.Statement (.ffmaB16 o) := framing_lane rfl (packLR_head 0x7F o) rfl
theorem Framing.fnmaF64 (o : LR) : Framing.Statement (.fnmaF64 o) := framing_lane rfl (packLR_head 0x80 o) rfl
theorem Framing.fnmaF32 (o : LR) : Framing.Statement (.fnmaF32 o) := framing_lane rfl (packLR_head 0x81 o) rfl
theorem Framing.fnmaF16 (o : LR) : Framing.Statement (.fnmaF16 o) := framing_lane rfl (packLR_head 0x82 o) rfl
theorem Framing.fnmaB16 (o : LR) : Framing.Statement (.fnmaB16 o) := framing_lane rfl (packLR_head 0x83 o) rfl
theorem Framing.fminF64 (o : LR) : Framing.Statement (.fminF64 o) := framing_lane rfl (packLR_head 0x84 o) rfl
theorem Framing.fminF32 (o : LR) : Framing.Statement (.fminF32 o) := framing_lane rfl (packLR_head 0x85 o) rfl
theorem Framing.fminF16 (o : LR) : Framing.Statement (.fminF16 o) := framing_lane rfl (packLR_head 0x86 o) rfl
theorem Framing.fminB16 (o : LR) : Framing.Statement (.fminB16 o) := framing_lane rfl (packLR_head 0x87 o) rfl
theorem Framing.fmaxF64 (o : LR) : Framing.Statement (.fmaxF64 o) := framing_lane rfl (packLR_head 0x88 o) rfl
theorem Framing.fmaxF32 (o : LR) : Framing.Statement (.fmaxF32 o) := framing_lane rfl (packLR_head 0x89 o) rfl
theorem Framing.fmaxF16 (o : LR) : Framing.Statement (.fmaxF16 o) := framing_lane rfl (packLR_head 0x8A o) rfl
theorem Framing.fmaxB16 (o : LR) : Framing.Statement (.fmaxB16 o) := framing_lane rfl (packLR_head 0x8B o) rfl
theorem Framing.fdivF64 (o : LR) : Framing.Statement (.fdivF64 o) := framing_lane rfl (packLR_head 0x8C o) rfl
theorem Framing.fdivF32 (o : LR) : Framing.Statement (.fdivF32 o) := framing_lane rfl (packLR_head 0x8D o) rfl
theorem Framing.fdivF16 (o : LR) : Framing.Statement (.fdivF16 o) := framing_lane rfl (packLR_head 0x8E o) rfl
theorem Framing.fdivB16 (o : LR) : Framing.Statement (.fdivB16 o) := framing_lane rfl (packLR_head 0x8F o) rfl
theorem Framing.fsqrtF64 (o : LR) : Framing.Statement (.fsqrtF64 o) := framing_lane rfl (packLR_head 0x90 o) rfl
theorem Framing.fsqrtF32 (o : LR) : Framing.Statement (.fsqrtF32 o) := framing_lane rfl (packLR_head 0x91 o) rfl
theorem Framing.fsqrtF16 (o : LR) : Framing.Statement (.fsqrtF16 o) := framing_lane rfl (packLR_head 0x92 o) rfl
theorem Framing.fsqrtB16 (o : LR) : Framing.Statement (.fsqrtB16 o) := framing_lane rfl (packLR_head 0x93 o) rfl
theorem Framing.frcp (o : LR) : Framing.Statement (.frcp o) := framing_lane rfl (packLR_head 0x94 o) rfl
theorem Framing.frsq (o : LR) : Framing.Statement (.frsq o) := framing_lane rfl (packLR_head 0x95 o) rfl
theorem Framing.fexp2 (o : LR) : Framing.Statement (.fexp2 o) := framing_lane rfl (packLR_head 0x96 o) rfl
theorem Framing.flog2 (o : LR) : Framing.Statement (.flog2 o) := framing_lane rfl (packLR_head 0x97 o) rfl
theorem Framing.fsin (o : LR) : Framing.Statement (.fsin o) := framing_lane rfl (packLR_head 0x98 o) rfl
theorem Framing.fcos (o : LR) : Framing.Statement (.fcos o) := framing_lane rfl (packLR_head 0x99 o) rfl
theorem Framing.fsincos (o : LR) : Framing.Statement (.fsincos o) := framing_lane rfl (packLR_head 0x9A o) rfl
theorem Framing.ftanh (o : LR) : Framing.Statement (.ftanh o) := framing_lane rfl (packLR_head 0x9B o) rfl
theorem Framing.hadd2 (o : LR) : Framing.Statement (.hadd2 o) := framing_lane rfl (packLR_head 0xA0 o) rfl
theorem Framing.hmul2 (o : LR) : Framing.Statement (.hmul2 o) := framing_lane rfl (packLR_head 0xA1 o) rfl
theorem Framing.hfma2 (o : LR) : Framing.Statement (.hfma2 o) := framing_lane rfl (packLR_head 0xA2 o) rfl
theorem Framing.badd2 (o : LR) : Framing.Statement (.badd2 o) := framing_lane rfl (packLR_head 0xA3 o) rfl
theorem Framing.bmul2 (o : LR) : Framing.Statement (.bmul2 o) := framing_lane rfl (packLR_head 0xA4 o) rfl
theorem Framing.bfma2 (o : LR) : Framing.Statement (.bfma2 o) := framing_lane rfl (packLR_head 0xA5 o) rfl
theorem Framing.b2pack (o : LR) : Framing.Statement (.b2pack o) := framing_lane rfl (packLR_head 0xA6 o) rfl
theorem Framing.h2pack (o : LR) : Framing.Statement (.h2pack o) := framing_lane rfl (packLR_head 0xA7 o) rfl
theorem Framing.fcvt (o : LI) : Framing.Statement (.fcvt o) := framing_lane rfl (packLI_head 0xA8 o) rfl
theorem Framing.ncvt (o : LI) : Framing.Statement (.ncvt o) := framing_lane rfl (packLI_head 0xA9 o) rfl
theorem Framing.nexp (o : LI) : Framing.Statement (.nexp o) := framing_lane rfl (packLI_head 0xAA o) rfl

end Sys2Proof.Laws
end

