-- ==== Sys2Proof/Laws/Values.lean ====
section
/-!
SUPPORT. Laws/Values.lean: the values that instructions compute, read another way: by bits, by wider products, by cases.
-/

namespace Sys2Proof.Machine

theorem satS32_eq (x : Int) : satS32 x =
    if x < -2147483648 then 0x80000000 else if 2147483647 < x then 0x7FFFFFFF else BitVec.ofInt 32 x := by
  unfold satS32
  split
  · rw [show max (-2147483648) (min x 2147483647) = (-2147483648 : Int) by omega]; rfl
  · split
    · rw [show max (-2147483648) (min x 2147483647) = (2147483647 : Int) by omega]; rfl
    · rw [show max (-2147483648) (min x 2147483647) = x by omega]
theorem satN32_eq (x : Int) : satN32 x =
    if x < 0 then 0 else if 4294967295 < x then 0xFFFFFFFF else BitVec.ofInt 32 x := by
  unfold satN32
  split
  · rw [show max 0 (min x 4294967295) = (0 : Int) by omega]; rfl
  · split
    · rw [show max 0 (min x 4294967295) = (4294967295 : Int) by omega]; rfl
    · rw [show max 0 (min x 4294967295) = x by omega]
theorem Int.ediv_emod_square (z : Int) (A : Int) (hA : 0 < A) : z % (A * A) / A % A = z / A % A := by
  have h := Int.emod_add_mul_ediv z (A * A)
  have hne : A ≠ 0 := by omega
  have h2 : z / A = z % (A * A) / A + A * (z / (A * A)) := by
    conv => lhs; rw [← h]
    rw [Int.mul_assoc, Int.add_mul_ediv_left _ _ hne]
  rw [h2, Int.add_mul_emod_self_left]
theorem ofInt_double_high {w : Nat} (z : Int) : (BitVec.ofInt (2 * w) z).extractLsb' w w = BitVec.ofInt w (z / 2 ^ w) := by
  apply BitVec.eq_of_toNat_eq
  rw [BitVec.extractLsb'_toNat, Nat.shiftRight_eq_div_pow, BitVec.toNat_ofInt, BitVec.toNat_ofInt]
  have hp : (0 : Int) < 2 ^ w := Int.pow_pos (by omega)
  have h := Int.ediv_emod_square z (2 ^ w) hp
  apply Int.ofNat.inj
  show ((((z % ((2 ^ (2 * w) : Nat) : Int)).toNat / 2 ^ w % 2 ^ w : Nat) : Int) = (((z / 2 ^ w) % ((2 ^ w : Nat) : Int)).toNat : Int))
  have e1 : ((2 ^ (2 * w) : Nat) : Int) = 2 ^ w * 2 ^ w := by
    rw [Nat.two_mul, Nat.pow_add]; simp
  have e2 : ((2 ^ w : Nat) : Int) = 2 ^ w := by simp
  rw [Int.natCast_emod, Int.natCast_ediv, e2, Int.toNat_of_nonneg (Int.emod_nonneg _ (by rw [e1]; exact Int.ne_of_gt (Int.mul_pos hp hp))),
    Int.toNat_of_nonneg (Int.emod_nonneg _ (Int.ne_of_gt hp)), e1, h]
theorem mulHigh_signed {w : Nat} (x y : BitVec w) : (mulHigh x.toInt y.toInt : BitVec w) = (x.signExtend (2*w) * y.signExtend (2*w)).extractLsb' w w := by
  rw [mulHigh, ← ofInt_double_high, BitVec.ofInt_mul]; rfl
theorem mulHigh_unsigned {w : Nat} (x y : BitVec w) : (mulHigh (x.toNat : Int) (y.toNat : Int) : BitVec w) = (x.setWidth (2*w) * y.setWidth (2*w)).extractLsb' w w := by
  rw [mulHigh, ← ofInt_double_high, BitVec.ofInt_mul]
  congr 2 <;> (apply BitVec.eq_of_toNat_eq; simp)
theorem product_signed (x y : Word) : BitVec.ofInt 64 (x.toInt * y.toInt) = x.signExtend 64 * y.signExtend 64 := by
  rw [BitVec.ofInt_mul]; rfl
theorem product_unsigned (x y : Word) : BitVec.ofNat 64 (x.toNat * y.toNat) = x.setWidth 64 * y.setWidth 64 := by
  rw [BitVec.ofNat_mul]
  congr 1 <;> (apply BitVec.eq_of_toNat_eq; simp)
theorem minU_eq {w : Nat} (x y : BitVec w) : minU x y = if y < x then y else x := by simp [minU, BitVec.lt_def]
theorem maxU_eq {w : Nat} (x y : BitVec w) : maxU x y = if x < y then y else x := by simp [maxU, BitVec.lt_def]
theorem abs_eq_msb (x : Word) : (if x.toInt < 0 then -x else x) = if x.msb then -x else x := by
  simp [BitVec.msb_eq_toInt]
theorem low5_eq (y : Word) : y.toNat % 32 = (y.extractLsb' 0 5).toNat := by simp
theorem low6_eq (y : Word) : y.toNat % 64 = (y.extractLsb' 0 6).toNat := by simp
theorem rankOf_eq_countP (m : Word) (a : Lanes Word) (i : Fin 32) : rankOf m a i = BitVec.ofNat 32 (laneList.countP fun j => decide (j < i) && inMask m j && a[j] != 0) := by
  simp [rankOf, List.countP_eq_length_filter]
theorem mem_laneList (k : Fin 32) : k ∈ laneList := List.mem_finRange k
theorem maskOf_getLsbD (f : Fin 32 → Bool) (n : Nat) (h : n < 32) : (maskOf f).getLsbD n = f ⟨n, h⟩ := by
  have key : ∀ (l : List (Fin 32)) (m : Word), (l.foldl (fun m i => if f i then m ||| (1#32 <<< i.val) else m) m).getLsbD n
      = (m.getLsbD n || decide (⟨n, h⟩ ∈ l) && f ⟨n, h⟩) := by
    intro l
    induction l with
    | nil => intro m; simp
    | cons i t ih =>
      intro m
      rw [List.foldl_cons, ih]
      by_cases hi : (⟨n, h⟩ : Fin 32) = i
      · subst hi
        by_cases hf : f ⟨n, h⟩ <;> simp [hf, h]
      · have hne : n ≠ i.val := fun e => hi (Fin.ext e)
        by_cases hf : f i
        · have : (1#32 <<< i.val).getLsbD n = false := by
            simp [BitVec.getLsbD_shiftLeft]; omega
          simp [hf, hi, this]
        · simp [hf, hi]
  have h2 : (⟨n, h⟩ : Fin 32) ∈ laneList := mem_laneList _
  have := key laneList 0
  rw [maskOf, this]
  simp [h2]

theorem lowBits_getLsbD (w n i : Nat) (h : i < w) : (lowBits w n).getLsbD i = decide (i < n) := by
  rw [lowBits, BitVec.getLsbD_ofNat, Nat.testBit_two_pow_sub_one]; simp [h]
theorem fieldOf_eq_extract {w : Nat} (x : BitVec w) (lo u : Nat) : fieldOf x lo u = (x.extractLsb' lo u).setWidth w := by
  apply BitVec.eq_of_getLsbD_eq
  intro i hi
  simp only [fieldOf, BitVec.getLsbD_and, BitVec.getLsbD_ushiftRight, lowBits_getLsbD _ _ _ hi, BitVec.getLsbD_setWidth,
    BitVec.getLsbD_extractLsb', hi, decide_true, Bool.true_and]
  rw [Bool.and_comm]
theorem field32_eq (y : Word) : field32 y = ((y.extractLsb' 0 5).toNat, min (y.extractLsb' 5 6).toNat (32 - (y.extractLsb' 0 5).toNat)) := by
  simp [field32, Nat.shiftRight_eq_div_pow]
theorem extract_unsigned (x y : Word) : fieldOf x (field32 y).1 (field32 y).2 =
    (x.extractLsb' (y.extractLsb' 0 5).toNat (min (y.extractLsb' 5 6).toNat (32 - (y.extractLsb' 0 5).toNat))).setWidth 32 := by
  rw [fieldOf_eq_extract, field32_eq]
theorem extract_signed (x y : Word) : signField (fieldOf x (field32 y).1 (field32 y).2) (field32 y).2 =
    (x.extractLsb' (y.extractLsb' 0 5).toNat (min (y.extractLsb' 5 6).toNat (32 - (y.extractLsb' 0 5).toNat))).signExtend 32 := by
  rw [fieldOf_eq_extract, field32_eq]
  simp only
  generalize hu : min (y.extractLsb' 5 6).toNat (32 - (y.extractLsb' 0 5).toNat) = u
  generalize hl : (y.extractLsb' 0 5).toNat = lo
  have hu32 : u ≤ 32 := by omega
  unfold signField
  by_cases h0 : u = 0
  · subst h0
    rw [if_pos rfl]
    apply BitVec.eq_of_getLsbD_eq
    intro i hi
    simp
  · rw [if_neg h0]
    apply BitVec.eq_of_getLsbD_eq
    intro i hi
    have hm : (x.extractLsb' lo u).msb = x.getLsbD (lo + (u - 1)) := by
      have h1 : u - 1 < u := by omega
      rw [BitVec.msb_eq_getLsbD_last, BitVec.getLsbD_extractLsb', decide_eq_true h1, Bool.true_and]
    have hb : ((x.extractLsb' lo u).setWidth 32).getLsbD (u - 1) = x.getLsbD (lo + (u - 1)) := by
      have h1 : u - 1 < u := by omega
      have h2 : u - 1 < 32 := by omega
      rw [BitVec.getLsbD_setWidth, BitVec.getLsbD_extractLsb', decide_eq_true h1, decide_eq_true h2, Bool.true_and, Bool.true_and]
    rw [hb, BitVec.getLsbD_signExtend, hm, decide_eq_true hi, Bool.true_and]
    have hf : ((x.extractLsb' lo u).setWidth 32).getLsbD i = (decide (i < u) && x.getLsbD (lo + i)) := by
      rw [BitVec.getLsbD_setWidth, BitVec.getLsbD_extractLsb', decide_eq_true hi, Bool.true_and]
    have he : (x.extractLsb' lo u).getLsbD i = (decide (i < u) && x.getLsbD (lo + i)) := BitVec.getLsbD_extractLsb' _ _ _ _
    by_cases hs : x.getLsbD (lo + (u - 1)) = true
    · rw [if_pos hs, BitVec.getLsbD_or, BitVec.getLsbD_not, lowBits_getLsbD _ _ _ hi, hf, he, hs]
      by_cases hiu : i < u <;> simp [hiu, hi]
    · rw [if_neg hs, hf, he]
      by_cases hiu : i < u <;> simp [hiu, hs]
theorem insertField_getLsbD {w : Nat} (d x : BitVec w) (lo u i : Nat) (hi : i < w) : (insertField d x lo u).getLsbD i =
    if lo ≤ i ∧ i < lo + u then x.getLsbD (i - lo) else d.getLsbD i := by
  have hs : (lowBits w u <<< lo).getLsbD i = (decide (lo ≤ i) && decide (i < lo + u)) := by
    rw [BitVec.getLsbD_shiftLeft]
    by_cases hl : lo ≤ i
    · rw [lowBits_getLsbD _ _ _ (by omega)]
      have : (i - lo < u) ↔ (i < lo + u) := by omega
      simp [hi, this, hl]
    · simp [hl]
  have hx : ((x &&& lowBits w u) <<< lo).getLsbD i = (decide (lo ≤ i) && decide (i < lo + u) && x.getLsbD (i - lo)) := by
    rw [BitVec.getLsbD_shiftLeft]
    by_cases hl : lo ≤ i
    · rw [BitVec.getLsbD_and, lowBits_getLsbD _ _ _ (by omega)]
      have : (i - lo < u) ↔ (i < lo + u) := by omega
      simp [hi, this, hl, Bool.and_comm]
    · simp [hl]
  simp only [insertField, BitVec.getLsbD_or, BitVec.getLsbD_and, BitVec.getLsbD_not, hs, hx, hi, decide_true, Bool.true_and]
  by_cases h : lo ≤ i ∧ i < lo + u
  · simp [h.1, h.2]
  · rw [if_neg h]
    have : (decide (lo ≤ i) && decide (i < lo + u)) = false := by
      simp; omega
    simp [this]
theorem insert_eq_bits (x y d : Word) : insertField d x (field32 y).1 (field32 y).2 =
    maskOf fun k => if (y.extractLsb' 0 5).toNat ≤ k.val ∧ k.val < (y.extractLsb' 0 5).toNat + (min (y.extractLsb' 5 6).toNat (32 - (y.extractLsb' 0 5).toNat)) then
      x.getLsbD (k.val - (y.extractLsb' 0 5).toNat) else d.getLsbD k.val := by
  apply BitVec.eq_of_getLsbD_eq
  intro i hi
  rw [insertField_getLsbD _ _ _ _ _ hi, maskOf_getLsbD _ _ hi, field32_eq]
theorem reverseBits_eq_mask (x : Word) : reverseBits x = maskOf fun k => x.getLsbD (31 - k.val) := by
  apply BitVec.eq_of_getLsbD_eq
  intro i hi
  rw [maskOf_getLsbD _ _ hi]
  have key : ∀ (l : List Nat) (r : Word), (∀ k ∈ l, k < 32) → (l.foldl (fun r k => if x.getLsbD k then r ||| (1#32 <<< (31 - k)) else r) r).getLsbD i
      = (r.getLsbD i || decide (31 - i ∈ l) && x.getLsbD (31 - i)) := by
    intro l
    induction l with
    | nil => intro r _; simp
    | cons k t ih =>
      intro r hk
      have hk32 := hk k (by simp)
      rw [List.foldl_cons, ih _ (fun j hj => hk j (by simp [hj]))]
      by_cases he : 31 - i = k
      · have : 31 - k = i := by omega
        subst he
        by_cases hf : x.getLsbD (31 - i) <;> simp [hf, this, hi]
      · have h1 : (1#32 <<< (31 - k)).getLsbD i = false := by
          simp [BitVec.getLsbD_shiftLeft]; omega
        by_cases hf : x.getLsbD k
        · simp [hf, h1, he]
        · simp [hf, he]
  rw [reverseBits, key _ _ (fun k hk => List.mem_range.mp hk)]
  simp
  intro _; omega

-- quotients, remainders and the overflow of a difference

theorem sdivide_eq {w : Nat} (x y : BitVec w) : sdivide x y =
    if y = 0 then BitVec.allOnes w
    else if x = BitVec.intMin w ∧ y = BitVec.allOnes w then BitVec.intMin w
    else BitVec.ofInt w (x.toInt.tdiv y.toInt) := by
  unfold sdivide
  split
  · rfl
  · split
    · next h0 h =>
      obtain ⟨rfl, rfl⟩ := h
      cases w with
      | zero => exact BitVec.eq_of_toNat_eq (by simp)
      | succ n =>
        have h1 : (BitVec.allOnes (n + 1)).toInt = -1 := by simp
        rw [h1, Int.tdiv_neg, Int.tdiv_one, BitVec.ofInt_neg, BitVec.ofInt_toInt]
        exact BitVec.neg_intMin
    · rfl
theorem sremain_eq {w : Nat} (x y : BitVec w) : sremain x y =
    if y = 0 then x else if x = BitVec.intMin w ∧ y = BitVec.allOnes w then 0 else BitVec.ofInt w (x.toInt.tmod y.toInt) := by
  unfold sremain
  split
  · rfl
  · split
    · next h0 h =>
      obtain ⟨rfl, rfl⟩ := h
      cases w with
      | zero => exact BitVec.eq_of_toNat_eq (by simp)
      | succ n =>
        have h1 : (BitVec.allOnes (n + 1)).toInt = -1 := by simp
        rw [h1, Int.tmod_neg, Int.tmod_one]; rfl
    · rfl
theorem udivide_eq {w : Nat} (x y : BitVec w) : udivide x y = if y = 0 then BitVec.allOnes w else x / y := by
  unfold udivide
  split
  · rfl
  · apply BitVec.eq_of_toNat_eq
    rw [BitVec.toNat_ofNat, BitVec.toNat_udiv]
    exact Nat.mod_eq_of_lt (Nat.lt_of_le_of_lt (Nat.div_le_self _ _) x.isLt)
theorem uremain_eq {w : Nat} (x y : BitVec w) : uremain x y = if y = 0 then x else x % y := by
  unfold uremain
  split
  · rfl
  · apply BitVec.eq_of_toNat_eq
    rw [BitVec.toNat_ofNat, BitVec.toNat_umod]
    exact Nat.mod_eq_of_lt (Nat.lt_of_le_of_lt (Nat.mod_le _ _) x.isLt)
/-- A difference of two numbers of a range, wrapped once. -/
theorem bmod_small (D : Int) (M : Nat) (hM : 0 < M) (h1 : -(2 * M : Int) < D) (h2 : D < 2 * M) :
    Int.bmod D (2 * M) = if D < -(M : Int) then D + 2 * M else if (M : Int) ≤ D then D - 2 * M else D := by
  have hm : ((2 * M : Nat) : Int) = 2 * M := by simp
  rw [Int.bmod_def, hm]
  by_cases h0 : 0 ≤ D
  · rw [Int.emod_eq_of_lt h0 h2]
    split <;> split <;> (try split) <;> omega
  · have : D % (2 * M : Int) = D + 2 * M := by
      rw [← Int.add_emod_right, Int.emod_eq_of_lt (by omega) (by omega)]
    rw [this]
    split <;> split <;> (try split) <;> omega
theorem overflow_eq {w : Nat} (x y : BitVec w) :
    decide (x.toInt - y.toInt ≠ (x - y).toInt) = ((x.msb != y.msb) && (x.msb != (x - y).msb)) := by
  cases w with
  | zero => simp [BitVec.eq_nil x, BitVec.eq_nil y]
  | succ n =>
    have hx := BitVec.le_toInt x
    have hx2 := BitVec.toInt_lt (x := x)
    have hy := BitVec.le_toInt y
    have hy2 := BitVec.toInt_lt (x := y)
    simp only [Nat.add_sub_cancel] at hx hx2 hy hy2
    have hp : 0 < 2 ^ n := Nat.pow_pos (by omega)
    have hc : ((2 ^ n : Nat) : Int) = 2 ^ n := by simp
    rw [← hc] at hx hx2 hy hy2
    have hs := bmod_small (x.toInt - y.toInt) (2 ^ n) hp (by omega) (by omega)
    rw [BitVec.msb_eq_toInt, BitVec.msb_eq_toInt, BitVec.msb_eq_toInt, BitVec.toInt_sub, Nat.pow_succ, Nat.mul_comm, hs]
    clear hs hc
    revert hx hx2 hy hy2 hp
    generalize 2 ^ n = M
    generalize x.toInt = X
    generalize y.toInt = Y
    intro hp hx hx2 hy hy2
    by_cases a : X < 0 <;> by_cases b : Y < 0 <;> by_cases c : X - Y < -(M : Int) <;> by_cases d : (M : Int) ≤ X - Y <;>
      simp only [a, b, c, d, if_true, if_false, decide_true, decide_false] <;>
      rw [Bool.eq_iff_iff] <;> simp <;> omega

/-- A bit field of a doubleword. -/
theorem field64_eq (y : Dword) : field64 y =
    ((y.extractLsb' 0 6).toNat, min (y.extractLsb' 6 7).toNat (64 - (y.extractLsb' 0 6).toNat)) := by
  simp [field64, Nat.shiftRight_eq_div_pow]

end Sys2Proof.Machine
end

