-- ==== Sys2Proof/Tests/Slice0.lean ====
section
/-!
SUPPORT. Tests/Slice0.lean: words of the spec and what they decode to, ill-formed terms, one-step tests, and for every statement of
Certificates/Slice0/Obligations.lean with hypotheses a state and operands that meet them.
-/

namespace Sys2Proof.Tests

open Sys2Proof.Machine Sys2Proof.Claims

noncomputable section

-- one thread: the whole file at once would start too many
set_option Elab.async false

-- small states

/-- Slot A of strand 0 of core 0. -/
def here : SlotRef := ⟨0, 0, .a⟩
/-- A strand with all lanes active: v0 is 7 in every lane, v1 the lane's number, s0 8, s1 0x1000. -/
def strand0 : Strand :=
  let st := placeStrand false
  { st with
    v := (st.v.setIfInBounds 0 (splat 7)).setIfInBounds 1 (tab fun k => BitVec.ofNat 32 k.val)
    s := (st.s.setIfInBounds 0 8).setIfInBounds 1 0x1000 }
/-- Its party, with 4 KiB of scratchpad. -/
def party0 : Party := { Party.blank with scratchSize := 4096 }.setStrand 0 strand0
/-- The party with its first strand changed. -/
def with0 (f : Strand → Strand) : Party := party0.modStrand 0 f
/-- The slot of a party is about to issue. -/
def at0 (p : Party) : State := { State.reset with
  focus := .slot here
  parties := [(0, p)] }
/-- The checks of `Issues`, to be evaluated. -/
def issuesB (p : Party) (i : Instr) : Bool :=
  p.slotReady here && p.operandsReady here i && decide (p.issueFault here i none = none) && decide (fetchCount i = 0) &&
    !((p.strand 0).step && !(p.strand 0).inh)
theorem issues_of {p : Party} {i : Instr} (h : issuesB p i = true) : Issues (at0 p) here p i := by
  simp only [issuesB, Bool.and_eq_true, decide_eq_true_eq, Bool.not_eq_true'] at h
  obtain ⟨⟨⟨⟨h1, h2⟩, h3⟩, h4⟩, h5⟩ := h
  exact ⟨rfl, by simp [at0, State.party?, kget, here], h1, h2, h3, h4, h5⟩
/-- The same in any state with the slot in focus and the party on core 0. -/
theorem issues_in {s : State} {p : Party} {i : Instr} (hf : s.focus = .slot here) (hp : s.party? 0 = some p) (h : issuesB p i = true) :
    Issues s here p i := by
  have h' := issues_of h
  exact ⟨hf, hp, h'.slot, h'.operands, h'.checks, h'.plain, h'.unstepped⟩

/-- A computation that ends well. -/
def isOk {ε α : Type} (x : Except ε α) : Bool := match x with
  | .ok _ => true
  | .error _ => false
theorem exists_ok {ε α : Type} {x : Except ε α} (h : isOk x = true) : ∃ a, x = .ok a := by
  cases x with
  | ok a => exact ⟨a, rfl⟩
  | error _ => cases h
theorem exists_some {α : Type} {x : Option α} (h : x.isSome = true) : ∃ a, x = some a := Option.isSome_iff_exists.mp h

def failOf {ε α : Type} (x : Except ε α) : Option ε := match x with
  | .ok _ => none
  | .error e => some e

-- witnesses: lane and uniform instructions

/-- LaneInstructionsGiveTheirResult: an addition, and an NCVT whose format register holds a valid 8-bit format. -/
theorem wit_lane : Issues (at0 party0) here party0 (.vadd ⟨2, 0, 1, false, false⟩) ∧
    (laneResult here (begun (at0 party0) here party0 (.vadd ⟨2, 0, 1, false, false⟩)) (.vadd ⟨2, 0, 1, false, false⟩)).isSome = true := by
  refine ⟨issues_of ?_, ?_⟩ <;> decide +kernel
def party8 : Party := with0 fun st => { st with fmt := st.fmt.setIfInBounds 0 0xC607 }
theorem wit_lane_ncvt : Issues (at0 party8) here party8 (.ncvt ⟨2, 0, false, 0⟩) ∧
    (laneResult here (begun (at0 party8) here party8 (.ncvt ⟨2, 0, false, 0⟩)) (.ncvt ⟨2, 0, false, 0⟩)).isSome = true := by
  refine ⟨issues_of ?_, ?_⟩ <;> decide +kernel
/-- ProducersPutTheirResultInFlight: a division, and its write-back in the cycle it is due and the one before. -/
theorem wit_producer : Issues (at0 party0) here party0 (.vdiv ⟨2, 0, 1, false, false⟩) ∧
    (product here (begun (at0 party0) here party0 (.vdiv ⟨2, 0, 1, false, false⟩)) (.vdiv ⟨2, 0, 1, false, false⟩)).isSome = true := by
  refine ⟨issues_of ?_, ?_⟩ <;> decide +kernel
def divider : Producer := ⟨0, [2], .lanes 2 (BitVec.allOnes 32) (splat 3), none, 8, some 40⟩
def dividing : Party := { party0 with producers := [(5, divider)] }
def dividingAt (n : Nat) : State := { at0 dividing with now := n }
theorem wit_writeback : (dividingAt 8).party? 0 = some dividing ∧ kget dividing.producers 5 = some divider ∧
    (∀ d x off, divider.res ≠ .batch d x off) ∧ (∀ d x v e, divider.res ≠ .fetched d x v e) ∧
    divider.due ≤ (dividingAt 8).now ∧ (dividingAt 7).party? 0 = some dividing ∧ (dividingAt 7).now < divider.due := by
  refine ⟨rfl, rfl, nofun, nofun, ?_, rfl, ?_⟩ <;> decide +kernel
/-- UniformInstructionsGiveTheirResult. -/
theorem wit_uniform : Issues (at0 party0) here party0 (.sadd ⟨90, 88, 89, false, false, false⟩) ∧
    (uniformResult (at0 party0) here placeVa (begun (at0 party0) here party0 (.sadd ⟨90, 88, 89, false, false, false⟩))
      (.sadd ⟨90, 88, 89, false, false, false⟩)).isSome = true := by
  refine ⟨issues_of ?_, ?_⟩ <;> decide +kernel
theorem wit_uniform_sysrd : Issues (at0 party0) here party0 (.sysrd ⟨90, 126, false, 0⟩) ∧
    (uniformResult (at0 party0) here placeVa (begun (at0 party0) here party0 (.sysrd ⟨90, 126, false, 0⟩))
      (.sysrd ⟨90, 126, false, 0⟩)).isSome = true := by
  refine ⟨issues_of ?_, ?_⟩ <;> decide +kernel
/-- JumpsToRegistersAreChecked: the three clauses, at the values next to each other. -/
def jumpTo (x : Dword) : Party := with0 fun st => { st with s := st.s.setIfInBounds 0 x }
theorem wit_jump (i : Instr) (h : i = .jmpr ⟨126, 88, 126, false, false, false⟩ ∨ i = .callr ⟨126, 88, 126, false, false, false⟩ ∨ i = .ret ⟨126, 88, 126, false, false, false⟩) :
    Issues (at0 (jumpTo 2)) here (jumpTo 2) i ∧ Issues (at0 (jumpTo (2 ^ 56))) here (jumpTo (2 ^ 56)) i ∧
      Issues (at0 (jumpTo (2 ^ 56 - 4))) here (jumpTo (2 ^ 56 - 4)) i := by
  obtain rfl | rfl | rfl := h <;> exact ⟨issues_of (by decide +kernel), issues_of (by decide +kernel), issues_of (by decide +kernel)⟩
theorem wit_jump_values :
    ((jumpTo 2).srcU here 88).1.extractLsb' 0 2 ≠ 0 ∧
    ((jumpTo (2 ^ 56)).srcU here 88).1.extractLsb' 0 2 = 0 ∧ ((jumpTo (2 ^ 56)).srcU here 88).1.extractLsb' 56 8 ≠ 0 ∧
    ((jumpTo (2 ^ 56 - 4)).srcU here 88).1.extractLsb' 0 2 = 0 ∧ ((jumpTo (2 ^ 56 - 4)).srcU here 88).1.extractLsb' 56 8 = 0 := by
  decide +kernel

-- witnesses: divergence, barriers, sleep, traps

/-- A strand whose slots are both live; slot B runs the upper lanes or waits at a JOIN. -/
def pairOf (st : SlotState) (pc : Pc) (em : Word) : Party := with0 fun x =>
  { x with m := x.m.setIfInBounds 2 0xFF }.setSlot .a { x.slot .a with em := 0xFFFF, m0 := 0xFFFF }
    |>.setSlot .b { Slot.dead with st := st, pc := pc, em := em, m0 := em }
/-- SplitDividesTheSlot: beside no live slot, and beside a live one whose push succeeds. -/
theorem wit_split : Issues (at0 party0) here party0 (.split ⟨3, 5⟩) ∧ (party0.strand 0).pairLive = false := by
  refine ⟨issues_of ?_, ?_⟩ <;> decide +kernel
theorem wit_split_pair : let p := pairOf .running 0x20000 0xFFFF0000
    Issues (at0 p) here p (.split ⟨3, 5⟩) ∧ (p.strand 0).pairLive = true ∧
      (p.strand 0).atBarrier .b = false ∧ (p.accesses.any fun a => a.strand == 0 && a.loc && a.step == .attempt) = false ∧
      ((p.strand 0).slot .b).wait = .none ∧ isOk ((begun (at0 p) here p (.split ⟨3, 5⟩)).pushDivergence 0 .b) = true := by
  refine ⟨issues_of ?_, ?_⟩ <;> decide +kernel
/-- JoinMergesThePair: beside a vacant slot, at the same JOIN, beside a running slot, at another JOIN. -/
theorem wit_join_vacant : let p := pairOf .running 0x20000 0
    Issues (at0 p) here p (.join ⟨0⟩) ∧ (p.strand 0).pairLive = true ∧ ((p.strand 0).slot .b).em = 0 ∧ (p.strand 0).depth = 0 := by
  refine ⟨issues_of ?_, ?_⟩ <;> decide +kernel
theorem wit_join_meet : let p := pairOf .atJoin placeVa 0xFFFF0000
    Issues (at0 p) here p (.join ⟨0⟩) ∧ (p.strand 0).pairLive = true ∧ ((p.strand 0).slot .b).st = .atJoin ∧
      ((p.strand 0).slot .b).pc = (p.slot here).pc ∧ (p.strand 0).depth = 0 := by
  refine ⟨issues_of ?_, ?_⟩ <;> decide +kernel
theorem wit_join_underflow : Issues (at0 party0) here party0 (.join ⟨0⟩) ∧ (party0.strand 0).pairLive = false := by
  refine ⟨issues_of ?_, ?_⟩ <;> decide +kernel
/-- One entry on the divergence stack: lanes 0 to 3 at 0x30000. -/
def stacked : Party := (pairOf .running 0x20000 0).modStrand 0 (fun st => { st with depth := 1 })
    |>.writeScratch 0 16 (0x30000 + (0xF + 0xF * 2 ^ 32) * 2 ^ 64)
theorem wit_join_pop : Issues (at0 stacked) here stacked (.join ⟨0⟩) ∧ (stacked.strand 0).pairLive = true ∧ ((stacked.strand 0).slot .b).em = 0 ∧
    portFree stacked here ∧ (stacked.strand 0).depth = 0 + 1 ∧ stacked.readScratch ((stacked.strand 0).entryOff 0 + 8) 8 = 0xF0000000F ∧
    (((stacked.strand 0).slot .a).em ||| ((stacked.strand 0).slot .b).em) &&& ~~~0xF ≠ 0 ∧ (stacked.strand 0).owed = [] := by
  refine ⟨issues_of ?_, ?_, ?_, by unfold portFree; decide +kernel, ?_⟩ <;> decide +kernel
theorem wit_join_wait : let p := pairOf .running 0x20000 0xFFFF0000
    Issues (at0 p) here p (.join ⟨0⟩) ∧ (p.strand 0).pairLive = true ∧ ((p.strand 0).slot .b).em ≠ 0 ∧ ((p.strand 0).slot .b).st ≠ .atJoin := by
  refine ⟨issues_of ?_, ?_⟩ <;> decide +kernel
theorem wit_join_mismatch : let p := pairOf .atJoin 0x20000 0xFFFF0000
    Issues (at0 p) here p (.join ⟨0⟩) ∧ (p.strand 0).pairLive = true ∧ ((p.strand 0).slot .b).em ≠ 0 ∧
      ((p.strand 0).slot .b).st = .atJoin ∧ ((p.strand 0).slot .b).pc ≠ (p.slot here).pc := by
  refine ⟨issues_of ?_, ?_⟩ <;> decide +kernel
/-- BarriersAndSleepsWait: an arrival that is not the last, one that is; SLEEP of 0 and of 1; its expiry in time and before. -/
def atBarrier (pend : Nat) : Party := party0.setBar 3 ⟨5, pend, false, 2, false⟩
theorem wit_bar : Issues (at0 (atBarrier 2)) here (atBarrier 2) (.bar ⟨126, 126, false, 3⟩) ∧
    Issues (at0 (atBarrier 1)) here (atBarrier 1) (.bar ⟨126, 126, false, 3⟩) ∧ ((atBarrier 2).bar 3).count ≠ 0 ∧
    (atBarrier 2).accesses = [] ∧ (at0 (atBarrier 2)).packets = [] ∧ 1 < ((atBarrier 2).bar 3).pend ∧ ((atBarrier 1).bar 3).pend ≤ 1 := by
  refine ⟨issues_of ?_, issues_of ?_, ?_, rfl, rfl, ?_⟩ <;> decide +kernel
theorem wit_sleep : Issues (at0 party0) here party0 (.sleep ⟨126, 126, false, 0⟩) ∧ Issues (at0 party0) here party0 (.sleep ⟨126, 126, false, 1⟩) := by
  refine ⟨issues_of ?_, issues_of ?_⟩ <;> decide +kernel
def asleep : Party := party0.modSlot here fun l => { l with wait := .sleep 16 placeVa }
theorem wit_wake : ({ at0 asleep with now := 16 }.slotOf here).wait = .sleep 16 placeVa ∧
    ({ at0 asleep with now := 15 }.slotOf here).wait = .sleep 16 placeVa := by decide +kernel
/-- FaultingInstructionsTrap, HandlersAreEnteredAndLeft, UndeliveredFaultsHaltTheParty. -/
def handled : Party := { party0 with thnd := 0x8000 }
def inHandler : Party := { with0 (fun st => { st with inh := true, trap := { st.trap with olive := true, otherSt := .atJoin } }) with thnd := 0x8000 }
theorem wit_trap : Issues (at0 handled) here handled (.trap ⟨126, 126, false, 31⟩) ∧ Issues (at0 handled) here handled (.brk ⟨126, 126, false, 0⟩) ∧
    handled.thnd ≠ 0 ∧ (handled.strand 0).inh = false ∧
    Issues (at0 party0) here party0 (.trap ⟨126, 126, false, 31⟩) ∧ party0.thnd = 0 ∧
    Issues (at0 inHandler) here inHandler (.trap ⟨126, 126, false, 31⟩) ∧ (inHandler.strand 0).inh = true := by
  refine ⟨issues_of ?_, issues_of ?_, ?_, ?_, issues_of ?_, rfl, issues_of ?_, ?_⟩ <;> decide +kernel
theorem wit_words : party0.slotReady here = true ∧ sequencerOnly 0xE8000000 = true ∧
    sequencerOnly 0b0_00011011_0000011_0000100_0000101_00 = false ∧
    (0b0_00011011_0000011_0000100_0000101_00 : Word).extractLsb' 24 8 ≠ 0xE1 ∧
    (decodeFields 0b0_00011011_0000011_0000100_0000101_00 0).any (party0.operandsReady here) = true ∧
    (decodeFields 0b0_00011011_0000011_0000000_0000101_00 0).any (fun i => (with0 fun st => { st with full := st.full &&& ~~~(1#120) }).operandsReady here i)
      = false := by decide +kernel
/-- A write of SCOPE7 whose d is not zr: by a party that may, and one that may not, write it. -/
theorem wit_words_scope : let w : Word := 0xE1000000 + 88 * 2 ^ 10 + 0x067
    decodeWords w 0 = .reservedField ∧ w.extractLsb' 24 8 = 0xE1 ∧ (w.extractLsb' 0 9).toNat = 0x067 ∧ sequencerOnly w = false ∧
      (decodeFields w 0).any (party0.operandsReady here) = true ∧ party0.priv = false := by decide +kernel
theorem wit_eret : Issues (at0 inHandler) here inHandler (.eret ⟨0⟩) ∧ (inHandler.strand 0).inh = true ∧ (inHandler.strand 0).trap.olive = true := by
  refine ⟨issues_of ?_, ?_⟩ <;> decide +kernel
def causeOf (c : Cause) : TrapInfo := ⟨c, placeVa, ⟨0, 0⟩, none, 0, 0, ⟨0, 0⟩, placeVa + 4, false⟩
theorem wit_undelivered : (at0 party0).party? 0 = some party0 ∧ party0.status ≠ .halting ∧ (causeOf .machineCheck).cause = .machineCheck ∧
    (causeOf .illegalOperand).cause ≠ .machineCheck ∧ (causeOf .illegalOperand).cause ≠ .breakpoint ∧
    (causeOf .illegalOperand).cause ≠ .singleStep ∧ (inHandler.strand 0).inh = true ∧ inHandler.status ≠ .halting ∧ party0.thnd = 0 ∧
    (party0.strand 0).inh = false ∧ (causeOf .breakpoint).cause = .breakpoint := by
  refine ⟨rfl, ?_, rfl, nofun, nofun, nofun, ?_, ?_, rfl, ?_, rfl⟩ <;> decide +kernel
/-- EndStopsTheStrand: with one slot live, with both. -/
theorem wit_end : Issues (at0 party0) here party0 (.endStrand ⟨0⟩) ∧ (party0.strand 0).txn = none ∧ party0.accesses = [] ∧
    (at0 party0).packets = [] ∧ (party0.strand 0).pairLive = false ∧ party0.shadows = false ∧ (party0.strand 0).held = none := by
  refine ⟨issues_of ?_, ?_, rfl, rfl, ?_, rfl, ?_⟩ <;> decide +kernel
/-- With a shadow strand that has no access. -/
def shadowed : Party := { party0 with shadows := true }
theorem wit_end_shadow : Issues (at0 shadowed) here shadowed (.endStrand ⟨0⟩) ∧ (shadowed.strand 0).txn = none ∧ shadowed.shadows = true ∧
    (shadowed.accesses.any fun a => a.strand == 0 + 8) = false ∧ (shadowed.strand 0).pairLive = false := by
  refine ⟨issues_of ?_, ?_⟩ <;> decide +kernel
theorem wit_end_pair : let p := pairOf .running 0x20000 0xFFFF0000
    Issues (at0 p) here p (.endStrand ⟨0⟩) ∧ (p.strand 0).txn = none ∧ p.accesses = [] ∧ (p.strand 0).pairLive = true := by
  refine ⟨issues_of ?_, ?_, rfl, ?_⟩ <;> decide +kernel
/-- SystemRegisterWritesWrite and SyswrChecksTheRegister: RNGSEED; SCOPE7 of a party that may and may not write it; an unassigned number;
DSP and TEPC where they may not be written. -/
theorem wit_syswr : Issues (at0 party0) here party0 (.syswr ⟨126, 88, false, 0x018⟩) ∧
    (sysPut here 0x018 ((begun (at0 party0) here party0 (.syswr ⟨126, 88, false, 0x018⟩)).srcU here 88).1 1
      ((begun (at0 party0) here party0 (.syswr ⟨126, 88, false, 0x018⟩)).srcU here 88).2).isSome = true := by
  refine ⟨issues_of ?_, ?_⟩ <;> decide +kernel
def privileged : Party := { with0 (fun st => { st with s := st.s.setIfInBounds 0 0 }) with priv := true }
theorem wit_syswr_scope : Issues (at0 privileged) here privileged (.syswr ⟨126, 88, false, 0x067⟩) ∧ privileged.priv = true ∧
    (sysPut here 0x067 ((begun (at0 privileged) here privileged (.syswr ⟨126, 88, false, 0x067⟩)).srcU here 88).1 1
      ((begun (at0 privileged) here privileged (.syswr ⟨126, 88, false, 0x067⟩)).srcU here 88).2).isSome = true := by
  refine ⟨issues_of ?_, rfl, ?_⟩ <;> decide +kernel
theorem wit_syswr_steps : (sysPut here 0x018 7 1 party0).isSome = true ∧ (sysPut here (0x040 + 15 % 16) 16 1 party0).isSome = true ∧
    (sysPut here (0x060 + 31 % 32) 0 1 party0).isSome = true ∧ (sysPut here (0x032 + 3 * (3 % 4)) 0 1 party0).isSome = true := by decide +kernel
theorem wit_syswr_checks : party0.slotReady here = true ∧
    (∀ i ∈ [Instr.syswr ⟨126, 88, false, 0x067⟩, .syswr ⟨126, 88, false, 0x07F⟩, .syswr ⟨126, 88, false, 0x1FF⟩, .syswr ⟨126, 88, false, 0x010⟩],
      party0.operandsReady here i = true ∧ fetchCount i = 0 ∧ reservedOk i = true ∧ operandOk i = true ∧
        party0.rolesOk here (roles i) = true) ∧
    party0.priv = false ∧ sysAssigned 0x1FF = false ∧ (party0.strand 0).inh = false := by decide +kernel
theorem wit_syswr_dsp : let p := pairOf .running 0x20000 0xFFFF0000
    p.slotReady here = true ∧ p.operandsReady here (.syswr ⟨126, 88, false, 0x001⟩) = true ∧ reservedOk (.syswr ⟨126, 88, false, 0x001⟩) = true ∧
      operandOk (.syswr ⟨126, 88, false, 0x001⟩) = true ∧ p.rolesOk here (roles (.syswr ⟨126, 88, false, 0x001⟩)) = true ∧
      (p.strand 0).pairLive = true := by decide +kernel
/-- The length of a watchpoint that is enabled; a barrier with an arrival; a barrier count of 17; lengths of 1 and 56. -/
def watched : Party := with0 fun st => st.setWatch 0 ⟨0, 2, 0, 0, false, 0, true, none, ⟨0, true, 0, []⟩, 0⟩
def valued (x : Dword) : Party := with0 fun st => { st with s := st.s.setIfInBounds 0 x }
theorem wit_syswr_values : [(watched, 0x031), (atBarrier 1, 0x043), (valued 17, 0x04F), (valued 1, 0x03A), (valued 56, 0x031)].all (fun (p, n) =>
      p.slotReady here && p.operandsReady here (.syswr ⟨126, 88, false, n⟩) && reservedOk (.syswr ⟨126, 88, false, n⟩) &&
        operandOk (.syswr ⟨126, 88, false, n⟩) && p.rolesOk here (roles (.syswr ⟨126, 88, false, n⟩)) &&
        (p.srcsFault here (roles (.syswr ⟨126, 88, false, n⟩)).srcs []).isNone) = true ∧
    ((watched.strand 0).watch 0).en = true ∧ ((atBarrier 1).bar 3).pend ≠ ((atBarrier 1).bar 3).count + 0 ∧ ((atBarrier 1).bar 3).seq = false ∧
    16 < (((valued 17).srcU here 88).1.extractLsb' 0 5).toNat ∧ (((valued 1).srcU here 88).1.extractLsb' 0 6).toNat < 2 ∧
    55 < (((valued 56).srcU here 88).1.extractLsb' 0 6).toNat := by decide +kernel

-- witnesses: accesses, fences, transactions

/-- An R W X A D L leaf of the page at the start of the second tier. -/
def dataLeaf : Dword := BitVec.ofNat 64 (placePa + 0x380F)
/-- The state of a party with one page mapped at 0x10000. -/
def mapped (p : Party) (leaf : Dword) : State := { at0 p with tlb := [⟨0, 0, 0, 1, leaf, 0⟩] }
theorem issues_mapped {p : Party} {i : Instr} {leaf : Dword} (h : issuesB p i = true) : Issues (mapped p leaf) here p i := by
  have h' := issues_of h
  exact ⟨rfl, by simp [mapped, at0, State.party?, kget, here], h'.slot, h'.operands, h'.checks, h'.plain, h'.unstepped⟩

/-- LaneAccessesStart: a load from s1 plus an offset, a store of a quad through pairs. -/
theorem wit_load : laneLoadOf (.ldw ⟨2, 0, 1, 0, 2⟩) = some (⟨2, 0, 1, 0, 2⟩, .load, 4, .zext) ∧ Issues (at0 party0) here party0 (.ldw ⟨2, 0, 1, 0, 2⟩) :=
  ⟨rfl, issues_of (by decide +kernel)⟩
theorem wit_store : laneStoreOf (.stq ⟨4, 0, 25, 0, 0⟩) = some (⟨4, 0, 25, 0, 0⟩, .store, 16, .l128) ∧
    Issues (at0 party0) here party0 (.stq ⟨4, 0, 25, 0, 0⟩) :=
  ⟨rfl, issues_of (by decide +kernel)⟩
/-- UniformAccessesAndTagfillStart: a local load and a global store of a doubleword; TAGFILL of an empty, a short, a long range. -/
theorem wit_uniform_access : Issues (at0 party0) here party0 (.sldw ⟨90, 88, false, 0x1FF⟩) ∧
    Issues (at0 party0) here party0 (.sstd ⟨90, 89, false, 0x080⟩) := by
  refine ⟨issues_of ?_, issues_of ?_⟩ <;> decide +kernel
def filling (x n : Dword) : Party := with0 fun st => { st with s := (st.s.setIfInBounds 0 x).setIfInBounds 1 n }
def tagfillI : Instr := .tagfill ⟨126, 88, 89, false, false, false, 3⟩
theorem wit_tagfill : Issues (at0 (filling 32 0)) here (filling 32 0) tagfillI ∧
    Issues (at0 (filling 32 (2 ^ 48 - 1))) here (filling 32 (2 ^ 48 - 1)) tagfillI ∧
    Issues (at0 (filling 32 (2 ^ 48))) here (filling 32 (2 ^ 48)) tagfillI := by
  refine ⟨issues_of ?_, issues_of ?_, issues_of ?_⟩ <;> decide +kernel
theorem wit_tagfill_values : ((filling 32 0).srcU here 88).1.toNat % 32 = 0 ∧ ((filling 32 0).srcU here 89).1 = 0 ∧
    ((filling 32 (2 ^ 48 - 1)).srcU here 89).1 ≠ 0 ∧ ((filling 32 (2 ^ 48 - 1)).srcU here 89).1.toNat < 2 ^ 48 ∧
    ((filling 32 (2 ^ 48)).srcU here 89).1.toNat % 32 = 0 ∧ 2 ^ 48 ≤ ((filling 32 (2 ^ 48)).srcU here 89).1.toNat := by decide +kernel
/-- OrderedAccessesStart: LDO of quads, STO of words, a CAS. -/
theorem wit_ordered : (party0.strand 0).txn = none ∧ Issues (at0 party0) here party0 (.ldo ⟨4, 126, 0, false, false, 0, 1, 0, 0, 2, 126, 0⟩) ∧
    Issues (at0 party0) here party0 (.sto ⟨126, 2, 0, false, false, 0, 24, 0, 0, 0, 126, 0⟩) ∧
    Issues (at0 party0) here party0 (.atom ⟨4, 2, 0, false, false, 9, 1, 0, 0, 0, 6, 0⟩) := by
  refine ⟨?_, issues_of ?_, issues_of ?_, issues_of ?_⟩ <;> decide +kernel
/-- LocalStoresWriteTheScratchpad and LocalLoadsReadTheScratchpad: words of v1 x 4, the last lane's at offset 124. -/
theorem wit_local_store : laneStoreOf (.stw ⟨2, 1, 24, 0, 2⟩) = some (⟨2, 1, 24, 0, 2⟩, .store, 4, .l32) ∧
    Issues (at0 party0) here party0 (.stw ⟨2, 1, 24, 0, 2⟩) ∧ party0.accesses = [] ∧
    (∀ k, inMask (party0.active here) k = true →
      (laneAddress here ((begun (at0 party0) here party0 (.stw ⟨2, 1, 24, 0, 2⟩)).dataSrc here .l32 2).2 24 1 2 k).toNat % 4 = 0 ∧
      (laneAddress here ((begun (at0 party0) here party0 (.stw ⟨2, 1, 24, 0, 2⟩)).dataSrc here .l32 2).2 24 1 2 k).toNat + 4 ≤ 4096) := by
  refine ⟨rfl, issues_of ?_, rfl, ?_⟩ <;> decide +kernel
theorem wit_local_load : laneLoadOf (.ldhs ⟨2, 1, 24, 0, 1⟩) = some (⟨2, 1, 24, 0, 1⟩, .load, 2, .sext) ∧
    Issues (at0 party0) here party0 (.ldhs ⟨2, 1, 24, 0, 1⟩) ∧ party0.accesses = [] ∧
    (∀ k, inMask (party0.active here) k = true →
      (laneAddress here (begun (at0 party0) here party0 (.ldhs ⟨2, 1, 24, 0, 1⟩)) 24 1 1 k).toNat % 2 = 0 ∧
      (laneAddress here (begun (at0 party0) here party0 (.ldhs ⟨2, 1, 24, 0, 1⟩)) 24 1 1 k).toNat + 2 ≤ 4096 ∧
      party0.scratchPoison (laneAddress here (begun (at0 party0) here party0 (.ldhs ⟨2, 1, 24, 0, 1⟩)) 24 1 1 k).toNat 2 = false) := by
  refine ⟨rfl, issues_of ?_, rfl, ?_⟩ <;> decide +kernel
/-- FencesAndTransactionsStart: FENCE of kind 0 and of kind 3; TBEGIN, TCANCEL and TCOMMIT with and without an open transaction. -/
theorem wit_fence : Issues (at0 party0) here party0 (.fence ⟨126, 126, false, 0⟩) ∧ Issues (at0 party0) here party0 (.fence ⟨126, 126, false, 0x66⟩) ∧
    (party0.strand 0).txn = none := by
  refine ⟨issues_of ?_, issues_of ?_, ?_⟩ <;> decide +kernel
def opened : Txn := ⟨BitVec.allOnes 32, Vector.replicate 32 ⟨[], [], 0⟩, placeVa, none, 0⟩
def inTxn : Party := with0 fun st => { st with txn := some opened }
theorem wit_txn : Issues (at0 party0) here party0 (.tbegin ⟨126, 126, 126, false, false⟩) ∧
    Issues (at0 party0) here party0 (.tcancel ⟨126, 126, 126, false, false⟩) ∧
    Issues (at0 party0) here party0 (.tcommit ⟨3, 0, 126, 126, false, false⟩) ∧ (party0.strand 0).txn = none ∧
    Issues (at0 inTxn) here inTxn (.tcancel ⟨126, 126, 126, false, false⟩) ∧
    Issues (at0 inTxn) here inTxn (.tcommit ⟨3, 0, 126, 126, false, false⟩) ∧ (inTxn.strand 0).txn = some opened ∧ inTxn.accesses = [] ∧
    (at0 inTxn).packets = [] := by
  refine ⟨issues_of ?_, issues_of ?_, issues_of ?_, ?_, issues_of ?_, issues_of ?_, ?_, rfl, rfl⟩ <;> decide +kernel

-- witnesses: anchors, pitches, copies

/-- A party with an anchor at 64: phase 2, one arrival and five sectors pending. -/
def anchored : Party := (with0 fun st => { st with s := (st.s.setIfInBounds 0 64).setIfInBounds 1 5 }).putAnchor 64 ⟨false, false, 0, 0, 5, 1, 5, 1, 2⟩
/-- CountEventsUpdateTheAnchor: its tag is the phase, the next one, or neither. -/
theorem wit_count : (at0 anchored).party? 0 = some anchored ∧ (anchored.anchorAt 64).ph = 2 ∧ anchored.q4.length + 2 ≤ 128 ∧
    (3 = ((anchored.anchorAt 64).ph + 1) % 16) ∧ 4 ≠ (anchored.anchorAt 64).ph ∧ 4 ≠ ((anchored.anchorAt 64).ph + 1) % 16 := by
  refine ⟨rfl, ?_⟩ <;> decide +kernel
/-- AnchorInstructionsChangeAndAwaitAnchors. -/
theorem wit_anchor : portFree anchored here ∧ allSettled (at0 anchored) anchored here ∧
    Issues (at0 anchored) here anchored (.anset ⟨3, 88, 126, false, false, false⟩) ∧
    Issues (at0 anchored) here anchored (.aninit ⟨126, 88, 89, false, false, false⟩) ∧
    Issues (at0 anchored) here anchored (.anexp ⟨126, 88, 89, false, false, false⟩) ∧
    Issues (at0 anchored) here anchored (.anarr ⟨126, 88, 89, false, false, false⟩) ∧
    Issues (at0 anchored) here anchored (.anwait ⟨90, 88, 89, false, false, false⟩) := by
  refine ⟨by unfold portFree; decide +kernel, by unfold allSettled; decide +kernel, issues_of ?_, issues_of ?_, issues_of ?_, issues_of
    ?_, issues_of ?_⟩ <;> decide +kernel
theorem wit_anchor_values : namesAnchor anchored (anchored.srcU here 88).1 ∧ (anchored.srcU here 89).1.extractLsb' 44 20 = 0 ∧
    (anchored.srcU here 89).1 ≠ 0 ∧ (anchored.anchorAt 64).ps + (anchored.srcU here 89).1.toNat < 2 ^ 24 ∧
    (anchored.srcU here 89).1.toNat < 2 ^ 20 ∧ isQ (88 : BitVec 7) = false ∧ isQ (89 : BitVec 7) = false ∧
    (anchored.anchorAt 64).ph ≠ (anchored.srcU here 89).1.toNat % 16 := by
  unfold namesAnchor; decide +kernel
def anchored2 : Party := anchored.modStrand 0 fun st => { st with s := st.s.setIfInBounds 1 18 }
theorem wit_anwait_same : Issues (at0 anchored2) here anchored2 (.anwait ⟨90, 88, 89, false, false, false⟩) ∧ portFree anchored2 here ∧
    (anchored2.anchorAt 64).ph = (anchored2.srcU here 89).1.toNat % 16 := by
  refine ⟨issues_of ?_, by unfold portFree; decide +kernel, ?_⟩ <;> decide +kernel
/-- PitchesCloseAndComplete: a pitch that is open next to the completed ones; waits for 0, 1, 2 and 65,535 pitches ahead. -/
def waitsFor (x : Dword) : Party := with0 fun st => { st with
  s := st.s.setIfInBounds 0 x
  pitch := ⟨2, 0, false, [(1, 1, false)]⟩ }
theorem wit_pclose : Issues (at0 party0) here party0 (.pclose ⟨90, 126, 126, false, false, false⟩) ∧
    ((party0.strand 0).pitch.openN - 1 - (party0.strand 0).pitch.done).toNat ≠ 32767 ∧
    (party0.strand 0).pitch.done + 1 = (party0.strand 0).pitch.openN ∧ (party0.strand 0).pitch.pending = [] := by
  refine ⟨issues_of ?_, ?_⟩ <;> decide +kernel
theorem wit_waitp : ([(0 : Dword), 1, 2, 0xFFFF].all fun x => issuesB (waitsFor x) (.waitp ⟨126, 88, 126, false, false, false⟩)) = true ∧
    isQ (88 : BitVec 7) = false ∧ (((waitsFor 0).srcU here 88).1.extractLsb' 0 16 - 0).toNat = 0 ∧
    32768 ≤ (((waitsFor 0xFFFF).srcU here 88).1.extractLsb' 0 16 - 0).toNat ∧
    ((((waitsFor 1).strand 0).pitch.openN - 1 - ((waitsFor 1).strand 0).pitch.done).toNat = 1) ∧
    (((waitsFor 1).srcU here 88).1.extractLsb' 0 16 - 0).toNat = 1 ∧ (((waitsFor 2).srcU here 88).1.extractLsb' 0 16 - 0).toNat = 2 := by
  decide +kernel
/-- CopiesAreCheckedAndAccepted: a copy of words that passes; one whose scratchpad offset is misaligned; one whose page is absent. -/
def copyI : Instr := .cpw ⟨2, 0, 1, 0, 0⟩
def boxI : Instr := .cpbox ⟨126, 89, 88, false, false, false, 0⟩
def copying (ptr : Dword) (off : Word) : Party := with0 fun st => { st with
  s := st.s.setIfInBounds 1 ptr
  v := (st.v.setIfInBounds 0 (splat 0)).setIfInBounds 2 (splat off) }
/-- Its page table lies in memory that nothing has written. -/
def copyingFar : Party := { copying 0x90000 64 with root := placePa }
def copyAccess (p : Party) (i : Instr) : Option (Party × Access) := copyOf here (begun (mapped p dataLeaf) here p i) i
inductive Verdict3 where
  | ok | bad | missing | again
  deriving DecidableEq
def verdictOf : Checked → Verdict3
  | .ok _ _ => .ok
  | .bad _ _ => .bad
  | .missing _ _ => .missing
  | .again => .again
def copyVerdict (p : Party) (i : Instr) : Option Verdict3 := (copyAccess p i).map fun (q, a) =>
  verdictOf ((after (mapped p dataLeaf) here q).checkCommand 0 q { a with pc := (p.slot here).pc, id := (mapped p dataLeaf).nextId })
def copyReady (p : Party) (i : Instr) : Bool := issuesB p i && (p.strand 0).txn.isNone &&
  !(p.accesses.any fun a => a.strand == 0 && a.loc && a.step == .attempt) && p.cmdRoom &&
  (copyAccess p i).all fun (q, a) => !q.inLog { a with pc := (p.slot here).pc } && !(a.readsBox && q.storesLeft 0)
theorem wit_copy : (copyReady (copying 0x10000 64) copyI && copyReady (copying 0x10000 63) copyI && copyReady copyingFar boxI) = true ∧
    copyVerdict (copying 0x10000 64) copyI = some .ok ∧ copyVerdict (copying 0x10000 63) copyI = some .bad ∧
    copyVerdict copyingFar boxI = some .missing := by decide +kernel

-- witnesses: the dispenser, bins

/-- A launch header for 100 items, with one bin of 16-byte records, 64 to a ring. -/
def header0 : Header :=
  { ptr := 0, hashed := false, edgeRoute := false, movable := false, priv := false, nstrand := 1, cpart := 0, cstrand := 0, edgeMask := 0,
    entry := 0, handler := 0, shadow := 0, centry := 0, scratch := 0, kshift := 0, kbits := 0, stealIdle := 1, kmul := 0, kbase := 0,
    fields := [⟨8, 100⟩], coreset := some [0], bins := [⟨0, 0x10000, 8, 16, 64, 4⟩] }
/-- Its grid, tag 7, with items 10 to 19 left on die 0. -/
def grid0 : Grid :=
  { tag := 7, hdr := header0, args := 0, root := 0, failLog := 0, save := 0, compute := [0], parts := 1, colls := [], ranges := [(0, 10, 20)],
    edges := [], back := [], queues := [], idle := [], rings := [], seqs := [], withdrawn := [], live := 1, cause := .none, causeAt := 0,
    failed := 0, whole := false }
def bound0 (f : Strand → Strand) : Party := { with0 f with grid := 7 }
def gridState (p : Party) : State := { at0 p with grids := [(7, grid0)] }
theorem issues_grid {p : Party} {i : Instr} (h : issuesB p i = true) : Issues (gridState p) here p i := by
  have h' := issues_of h
  exact ⟨rfl, by simp [gridState, at0, State.party?, kget, here], h'.slot, h'.operands, h'.checks, h'.plain, h'.unstepped⟩
/-- FetchTakesWork: a bound strand, a strand of a collective party; FETCHB into a descriptor at the end of the scratchpad. -/
def fetching : Party := bound0 fun st => { st with s := st.s.setIfInBounds 0 4064 }
def collecting : Party := { fetching with collective := true }
theorem wit_fetch : Issues (gridState fetching) here fetching (.fetch ⟨90, 126, 126, false, false, false⟩) ∧ fetching.collective = false ∧
    fetching.shadows = false ∧ fetching.items.length < 16 ∧ (gridState fetching).fetchFree 0 fetching.grid 1 = true ∧
    Issues (gridState collecting) here collecting (.fetch ⟨90, 126, 126, false, false, false⟩) ∧ collecting.collective = true := by
  refine ⟨issues_grid ?_, rfl, rfl, ?_, ?_, issues_grid ?_, rfl⟩ <;> decide +kernel
def fetchingAt (x : Dword) : Party := bound0 fun st => { st with s := st.s.setIfInBounds 0 x }
theorem wit_fetchb : Issues (gridState fetching) here fetching (.fetchb ⟨90, 88, 126, false, false, false⟩) ∧
    (gridState fetching).grid? fetching.grid = some grid0 ∧ grid0.hdr.bins ≠ [] ∧ fetching.batchCount < 16 ∧
    (fetching.srcU here 88).1.toNat + 32 ≤ fetching.scratchSize ∧ (fetching.srcU here 88).1.toNat < 2 ^ 32 ∧
    (fetching.srcU here 88).1.toNat % 32 = 0 := by
  refine ⟨issues_grid ?_, rfl, ?_⟩ <;> decide +kernel
/-- FETCHB of an offset that is one byte too far, of one that is inside and misaligned, and by a strand that no bin serves. -/
theorem wit_fetchb_faults : ([0x0FE1, 0x0FDF].all fun x => issuesB (fetchingAt x) (.fetchb ⟨90, 88, 126, false, false, false⟩)) = true ∧
    ¬((fetchingAt 0x0FE1).srcU here 88).1.toNat + 32 ≤ (fetchingAt 0x0FE1).scratchSize ∧
    ((fetchingAt 0x0FDF).srcU here 88).1.toNat + 32 ≤ (fetchingAt 0x0FDF).scratchSize ∧
    ((fetchingAt 0x0FDF).srcU here 88).1.toNat % 32 ≠ 0 ∧ issuesB collecting (.fetchb ⟨90, 88, 126, false, false, false⟩) = true ∧
    collecting.batchCount < 16 ∧ (collecting.srcU here 88).1.toNat + 32 ≤ collecting.scratchSize ∧
    (collecting.srcU here 88).1.toNat % 32 = 0 ∧ ¬(collecting.collective = false) := by decide +kernel
/-- WdoneRetiresTheItem: of a held item, of a held batch, of neither. -/
def holding (x : Dword) : Party :=
  { with0 (fun st => { st with s := st.s.setIfInBounds 0 x }) with items := [⟨3, 55⟩], batches := [⟨66, 0, 0, 0, 4⟩] }
theorem wit_wdone : ([(55 : Dword), 66, 77].all fun x => issuesB (holding x) (.wdone ⟨126, 88, 126, false, false, false⟩)) = true ∧
    ((holding 55).batches.all fun b => b.handle != ((holding 55).srcU here 88).1) = true ∧
    (holding 55).items.find? (·.wid == ((holding 55).srcU here 88).1) = some ⟨3, 55⟩ ∧
    (holding 66).batches.find? (·.handle == ((holding 66).srcU here 88).1) = some ⟨66, 0, 0, 0, 4⟩ ∧
    ((holding 77).batches.all fun b => b.handle != ((holding 77).srcU here 88).1) = true ∧
    ((holding 77).items.all fun k => k.wid != ((holding 77).srcU here 88).1) = true := by decide +kernel
/-- EmitAppendsRecords: all lanes to bin 0, records of four registers. -/
def emitI : Instr := .emit ⟨126, 84, 126, false, false, 0, 0, 0, 0, 0, 10, 0⟩
theorem wit_emit : Issues (gridState (bound0 id)) here (bound0 id) emitI ∧ ((bound0 id).strand 0).txn = none ∧
    (gridState (bound0 id)).grid? (bound0 id).grid = some grid0 ∧ (bound0 id).shadows = false ∧ (84 : BitVec 7).toNat < 88 ∧
    (∀ k, inMask ((bound0 id).active here) k = true → (((begun (gridState (bound0 id)) here (bound0 id) emitI).src32 here 10).1[k]).toNat = 0) ∧
    (grid0.bin? 0).map BinEntry.recSz = some 16 ∧ (∀ j, j < 4 → ((bound0 id).strand 0).isFull (84 + j) = true) ∧
    grid0.roomFor 0 (grid0.numberRecords 0 (laneParts ((bound0 id).active here) fun k => (0, ((bound0 id).strand 0).record256 84 4 k, 0)) []) = true := by
  refine ⟨issues_grid ?_, ?_, rfl, rfl, ?_⟩ <;> decide +kernel
/-- BinTimersExpire and IdlePackagesSteal, before their time and in it. -/
def pendingGrid : Grid := { grid0 with rings := [⟨0, 0, 3, 0, [], [], some 100, false, none⟩] }
def gridAt (g : Grid) (n : Nat) : State := { State.reset with
  now := n
  grids := [(7, g)] }
theorem wit_timer : (gridAt pendingGrid 99).grid? 7 = some pendingGrid ∧ (gridAt pendingGrid 100).grid? 7 = some pendingGrid ∧
    (pendingGrid.bin? 0).isSome = true ∧ pendingGrid.tag = 7 ∧ (pendingGrid.ring 0 0).timer = some 100 ∧ 0 < (pendingGrid.ring 0 0).pending :=
  ⟨rfl, rfl, rfl, rfl, rfl, by decide +kernel⟩
def idleGrid : Grid := { grid0 with queues := [(0, [4, 5, 6])], idle := [(1, 44)] }
theorem wit_steal : (gridAt idleGrid 299).grid? 7 = some idleGrid ∧ (gridAt idleGrid 300).grid? 7 = some idleGrid ∧ kget idleGrid.idle 1 = some 44 ∧
    (kget idleGrid.queues 1).getD [] = [] ∧ idleGrid.whole = false ∧ (299 : Nat) < 44 + idleGrid.hdr.stealIdle * 256 ∧
    44 + idleGrid.hdr.stealIdle * 256 ≤ (300 : Nat) ∧ idleGrid.hashVictim 1 = some (0, [4, 5, 6]) := by
  refine ⟨rfl, rfl, rfl, rfl, rfl, ?_⟩ <;> decide +kernel

-- witnesses: group instructions and flow commands

/-- A flow, number 2, on the window page at 0x10000. -/
def flow0 : Flow := ⟨2, 0x10000, 0, 4, false, [], [0], none⟩
def flowing : Party := { with0 (fun st => { st with s := st.s.setIfInBounds 1 0x10000 }) with flows := [flow0] }
theorem wit_group : (flowing.strand 0).txn = none ∧ flowing.flow? 2 = some flow0 ∧ flow0.closing = none ∧
    Issues (at0 flowing) here flowing (.xput ⟨126, 2, 0, false, false, 0, 1, 0, 0, 0, 10, 2⟩) ∧
    Issues (at0 flowing) here flowing (.xget ⟨4, 126, 0, false, false, 0, 1, 0, 0, 0, 10, 2⟩) ∧
    Issues (at0 flowing) here flowing (.xred ⟨126, 2, 0, false, false, 0, 1, 0, 0, 0, 10, 2⟩) ∧
    Issues (at0 flowing) here flowing (.xamo ⟨4, 2, 0, false, false, 9, 1, 0, 0, 0, 10, 2⟩) ∧
    Issues (at0 flowing) here flowing (.xsig ⟨126, 2, 126, false, false, 0, 1, 0, 0, 0, 10, 2⟩) ∧
    tagsDiffer flow0 ⟨.sig, 0, false, true, true, 2⟩
      (groupLanes here (begun (at0 flowing) here flowing (.xsig ⟨126, 2, 126, false, false, 0, 1, 0, 0, 0, 10, 2⟩))
        ⟨126, 2, 126, false, false, 0, 1, 0, 0, 0, 10, 2⟩ true .l32 false).2.2.2 = false ∧
    ((groupLanes here (begun (at0 flowing) here flowing (.xsig ⟨126, 2, 126, false, false, 0, 1, 0, 0, 0, 10, 2⟩))
        ⟨126, 2, 126, false, false, 0, 1, 0, 0, 0, 10, 2⟩ true .l32 false).2.2.2.all fun y => decide (y.x < 2 ^ 20)) = true := by
  refine ⟨?_, rfl, rfl, issues_of ?_, issues_of ?_, issues_of ?_, issues_of ?_, issues_of ?_, ?_⟩ <;> decide +kernel
/-- FlowCommandsAreTried: a group of one member, core 0, whose region is its scratchpad, with an anchor at 64; the layout map at 0x20000
is the identity on one word. -/
def windowLeaf0 : Dword := 0x3C07
def mapLeaf0 : Dword := BitVec.ofNat 64 (placePa + 0x10000 + 0x380F)
def flowState (p : Party) : State :=
  let s := ((at0 p).writeMem 0 (natBytes 2 1)).writeMem 32 (natBytes 8 0 ++ natBytes 8 4096 ++ natBytes 2 0 ++ natBytes 2 1 ++ natBytes 4 64)
  { s.writeMem (placePa + 0x10000) (natBytes 4 0x020101 ++ natBytes 5 0x0403020100 ++ natBytes 10 0xFFFFFFFFFFFFFFFFFFFF ++ natBytes 1 0 ++
      natBytes 6 0x000100010001 ++ natBytes 6 0 ++ natBytes 20 (1 + 2 ^ 32 + 2 ^ 64 + 2 ^ 96 + 2 ^ 128) ++ natBytes 12 0 ++ natBytes 4 4 ++
      natBytes 16 0 ++ natBytes 4 4) with
    pkgs := [(0, { Pkg.reset with hbmEnd := 1 })]
    tlb := [⟨0, 0, 0, 1, windowLeaf0, 0⟩, ⟨0, 0, 0, 2, mapLeaf0, 0⟩] }
theorem issues_flow {p : Party} {i : Instr} (h : issuesB p i = true) : Issues (flowState p) here p i := by
  have h' := issues_of h
  exact ⟨rfl, by simp [flowState, State.writeMem, at0, State.party?, kget, here], h'.slot, h'.operands, h'.checks, h'.plain, h'.unstepped⟩
def opensI : UL := ⟨90, 89, 126, false, false, false, 0x03030000⟩
def closesI : UL := ⟨90, 126, 126, false, false, false, 0x82000000⟩
def abortI : UL := ⟨126, 89, 88, false, false, false, 0x01000000⟩
def txaI : UL := ⟨92, 91, 90, false, false, false, 0x00008000⟩
def flowing2 : Party := flowing.modStrand 0 fun st => { st with
  s := (((st.s.setIfInBounds 2 0x20000).setIfInBounds 3 0x20000).setIfInBounds 4 0x10000).setIfInBounds 5 0 }
/-- The leaf that a pointer's translation gives meets a condition. -/
def windowIs (x : Option (Except Cause (State × TlbEntry))) (f : State → TlbEntry → Bool) : Bool :=
  match x with
  | some (.ok (u, t)) => f u t
  | _ => false
/-- FlowCommandsAreTried: opens of a page that may be written; closes of no flow and of an open one; an abort of a group of one. -/
theorem wit_xflow : Issues (flowState flowing) here flowing (.xflow opensI) ∧ flowOp opensI ≠ 2 ∧ (flowing.strand 0).txn = none ∧
    Issues (flowState party0) here party0 (.xflow closesI) ∧ flowOp closesI = 2 ∧ party0.flow? (flowArg closesI) = none ∧
    Issues (flowState flowing) here flowing (.xflow closesI) ∧ flowing.flow? (flowArg closesI) = some flow0 ∧ flow0.closing = none := by
  refine ⟨issues_flow ?_, ?_, ?_, issues_flow ?_, ?_, rfl, issues_flow ?_, rfl, rfl⟩ <;> decide +kernel
theorem wit_xflow_opens : let x := (begun (flowState flowing) here flowing (.xflow opensI)).srcU here 89
    let a := { flowAccess (flowState flowing) here flowing (.xflow opensI) 1 with pl2 := logUniform x.1, parts := pointerPart x.1 1 }
    let q := { x.2 with accesses := x.2.accesses ++ [a] }
    x.2.inLog a = false ∧ windowIs ((after (flowState flowing) here q).bump.windowLeaf 0 q x.1) (fun _ t =>
      (pteR t.pte || pteW t.pte) && !(pteP t.pte && !flowing.priv)) = true := by decide +kernel
theorem wit_xabort : Issues (flowState flowing) here flowing (.xabort abortI) ∧ flowing.flow? (w1 abortI 27 23) = some flow0 ∧
    flow0.closing = none ∧ flowing.movable = false ∧ (flowing.strand 0).txn = none := by
  refine ⟨issues_flow ?_, rfl, rfl, rfl, ?_⟩ <;> decide +kernel
theorem wit_xabort_sends : let x := (begun (flowState flowing) here flowing (.xabort abortI)).srcU here 89
    let y := x.2.srcU here 88
    let a := { flowAccess (flowState flowing) here flowing (.xabort abortI) 1 with pl2 := logUniform x.1, pl3 := logUniform y.1, parts := pointerPart x.1 1 }
    let q := { y.2 with accesses := y.2.accesses ++ [a] }
    y.2.inLog a = false ∧ flow0.inWindow (x.1.toNat % 2 ^ 56) = true ∧ y.1.toNat < 2 ^ 32 ∧
    windowIs ((after (flowState flowing) here q).bump.windowLeaf 0 q x.1) (fun u t =>
      let n := u.groupCount (ptePa t.pte)
      pteW t.pte && !(pteP t.pte && !flowing.priv) && n == 1 && ((List.range n).all fun r => (u.memberAt (ptePa t.pte) r).any fun m => m.anchor != 0) &&
        decide (y.1.toNat + (n + 3) / 4 ≤ flowing.scratchSize)) = true := by decide +kernel
/-- TxaIsAcceptedIntoItsPitch. -/
theorem wit_txa : Issues (flowState flowing2) here flowing2 (.txa txaI) ∧ flowing2.flow? (txaFlow txaI) = some flow0 ∧
    flow0.closing = none ∧ flowing2.movable = false ∧ flowing2.txas.length < 4 ∧ flowing2.accesses = [] ∧ (flowing2.strand 0).txn = none := by
  refine ⟨issues_flow ?_, rfl, rfl, rfl, ?_, rfl, ?_⟩ <;> decide +kernel
def loadsAre (x : Loads) (f : State → List Byte → Bool) : Bool :=
  match x with
  | .got v bs => f v bs
  | _ => false
theorem wit_txa_accepted : let x := (begun (flowState flowing2) here flowing2 (.txa txaI)).srcU here 91
    let y := x.2.srcU here 90
    let d0 := y.2.srcU here 92
    let d1 := d0.2.srcU here 93
    let a := { flowAccess (flowState flowing2) here flowing2 (.txa txaI) 16 with
      ord := txaOrd txaI
      entry := flowing2.entryAt (txaScope txaI)
      pl1 := tab fun k => if k.val = 0 then d1.1 ++ d0.1 else 0
      pl2 := logUniform x.1
      pl3 := logUniform y.1
      parts := pointerPart x.1 128 ++ pointerPart d0.1 1 }
    let q := { d1.2 with accesses := d1.2.accesses ++ [a] }
    d1.1.extractLsb' 12 52 = 0 ∧ d1.2.inLog a = false ∧ d1.2.accesses = [] ∧ d1.2.storesLeft 0 = false ∧
    flow0.inWindow (d0.1.toNat % 2 ^ 56) = true ∧
    windowIs ((after (flowState flowing2) here q).bump.windowLeaf 0 q d0.1) (fun u t =>
      pteW t.pte && !(pteP t.pte && !flowing2.priv) && loadsAre (u.strandLoads 0 q a x.1 8) fun v bs =>
        txaFault q txaI (LayoutMap.ofBytes bs) ((List.range (v.groupCount (ptePa t.pte))).filterMap fun r => v.memberAt (ptePa t.pte) r)
          (v.groupCount (ptePa t.pte)) d1.1.toNat (flow0.offset (d0.1.toNat % 2 ^ 56)) y.1 == none) = true := by decide +kernel

-- witnesses: the stream and its operations

/-- A party whose sequencer runs: k0 0, k1 16, k2 a TCFG value of one 16 x 16 x 4 F32 tile, k3 64; the scratchpad holds an F16 format
block with a 16-byte stride at 32. -/
def tcfg0 : Dword := 16 + 16 * 2 ^ 10 + 4 * 2 ^ 20 + 2 ^ 33
def streamer (f : Sequencer → Sequencer) : Party :=
  ({ Party.blank with scratchSize := 65536 }.writeScratch 32 32 (2 * 2 ^ 16 + 16 * 2 ^ 96)).modSeq fun q => f { q with
    state := .running
    pc := placeVa
    valid := 1
    k := (((q.k.setIfInBounds 1 16).setIfInBounds 2 tcfg0).setIfInBounds 3 64).setIfInBounds 4 32 }
def stream0 (p : Party) : State := { State.reset with
  focus := .sequencer 0
  parties := [(0, p)] }
def running0 : Party := streamer id
def configured : Party := streamer fun q => { q with cfg := tcfg0 }
theorem streams_of {p : Party} {i : Instr} (h : (reservedOk i && !p.seq.hold.onOp) = true) : Streams (stream0 p) 0 p i := by
  simp only [Bool.and_eq_true, Bool.not_eq_true'] at h
  exact ⟨rfl, by simp [stream0, State.party?, kget], h.1, h.2⟩
/-- StreamInstructionsWriteKRegisters. -/
theorem wit_stream_k : Streams (stream0 running0) 0 running0 (.kadd ⟨126, 1, 2, false, false, false⟩) ∧
    Streams (stream0 running0) 0 running0 (.kaddi ⟨15, 126, false, 0x1FF⟩) ∧ Streams (stream0 running0) 0 running0 (.klim ⟨126, 1, false, 1⟩) ∧
    Streams (stream0 running0) 0 running0 (.kloop ⟨1, 126, false, 0x1FE⟩) ∧ Streams (stream0 running0) 0 running0 (.kloop ⟨126, 126, false, 0x1FE⟩) ∧
    Streams (stream0 running0) 0 running0 (.slimz ⟨15, false, 3, 0xFFFF⟩) ∧ Streams (stream0 running0) 0 running0 (.slimk ⟨0, false, 0, 1⟩) ∧
    isKz 126 ∧ isK 15 ∧ ¬isK 126 ∧ isK 1 := by
  refine ⟨streams_of ?_, streams_of ?_, streams_of ?_, streams_of ?_, streams_of ?_, streams_of ?_, streams_of ?_, .inr rfl, ?_⟩
  all_goals first | decide +kernel | (unfold isK; decide)
/-- StreamsStartWaitAndEnd: with nothing in flight, with a TZERO; a KBAR that is not the last arrival, that is, at a barrier of strands. -/
def zeroing : StreamOp := ⟨9, placeVa, .tzero, some 0, none⟩
def working : Party := streamer fun q => { q with cfg := tcfg0, ops := [zeroing] }
theorem wit_mfence : Streams (stream0 running0) 0 running0 (.mfence ⟨0⟩) ∧ Streams (stream0 running0) 0 running0 (.mend ⟨0⟩) ∧
    running0.seq.ops = [] ∧ running0.cmds = [] ∧ Streams (stream0 working) 0 working (.mfence ⟨0⟩) ∧
    Streams (stream0 working) 0 working (.mend ⟨0⟩) ∧ working.seq.ops ≠ [] := by
  refine ⟨streams_of ?_, streams_of ?_, ?_, ?_, streams_of ?_, streams_of ?_, ?_⟩ <;> decide +kernel
def kbarAt (b : Barrier) : Party := running0.setBar 3 b
theorem wit_kbar : [(⟨5, 2, true, 1, false⟩ : Barrier), ⟨5, 1, true, 1, false⟩, ⟨5, 1, false, 1, false⟩].all (fun b =>
      reservedOk (.kbar ⟨126, 126, false, 3⟩) && !(kbarAt b).seq.hold.onOp && decide ((kbarAt b).seq.hold = .none) &&
        !((kbarAt b).seq.ops.any StreamOp.holdsKbar) && decide ((kbarAt b).bar 3 = b)) = true ∧ (3 : BitVec 9).getLsbD 4 = false := by decide +kernel
def starter : Party := with0 fun st => { st with s := st.s.setIfInBounds 0 0x20000 }
theorem wit_mstart : Issues (at0 starter) here starter (.mstart ⟨126, 88, 104, false, false, false, 0xFF⟩) ∧ starter.seq.state = .idle ∧
    allSettled (at0 starter) starter here ∧ (starter.srcU here 88).1.toNat < 2 ^ 56 ∧ (starter.srcU here 88).1.toNat % 4 = 0 ∧
    isS (104 : BitVec 7) = true ∧ (∀ n, n < 8 → 104 + n < 112 ∧ (starter.strand 0).isFull (104 + n) = true) := by
  refine ⟨issues_of ?_, rfl, by unfold allSettled; decide +kernel, ?_⟩ <;> decide +kernel
/-- TilesAreConfiguredZeroedAndLoaded: the only tile, the next one, no configuration; a valid value of TCFG, the value 0; a WLOAD of 64
bytes from the scratchpad and from memory. -/
def tcfg1 : Tcfg := Tcfg.of tcfg0
theorem wit_tiles : Streams (stream0 configured) 0 configured (.tzero ⟨126, 126, false, 0⟩) ∧ configured.seq.tcfg = some tcfg1 ∧ 0 < tcfg1.tcnt ∧
    Streams (stream0 configured) 0 configured (.tzero ⟨126, 126, false, 1⟩) ∧ tcfg1.tcnt ≤ 1 ∧ running0.seq.tcfg = none ∧
    Streams (stream0 running0) 0 running0 (.tcfg ⟨126, 2, 126, false, false, false, 0⟩) ∧ isK 2 ∧ running0.seq.ops = [] ∧
    (Tcfg.of (running0.seq.kreg 2)).valid = true ∧ (Tcfg.of (running0.seq.kreg 2)).rope = 0 ∧ (Tcfg.of (running0.seq.kreg 0)).valid = false := by
  refine ⟨streams_of ?_, ?_, ?_, streams_of ?_, ?_, ?_, streams_of ?_, by unfold isK; decide, ?_⟩ <;> decide +kernel
def wloadSp : UL := ⟨126, 1, 3, false, false, false, 0x20000000⟩
def wloadMem : UL := ⟨126, 1, 3, false, false, false, 0⟩
theorem wit_wload : Streams (stream0 running0) 0 running0 (.wload wloadSp) ∧ Streams (stream0 running0) 0 running0 (.wload wloadMem) ∧ isK 1 ∧ isK 3 ∧
    running0.cmdRoom = true ∧ (running0.seq.kreg 3).extractLsb' 19 13 = 0 ∧ (running0.seq.kreg 3).extractLsb' 50 14 = 0 ∧
    ((running0.seq.kreg 3).extractLsb' 0 19).toNat = 64 ∧ ((running0.seq.kreg 3).extractLsb' 32 18).toNat = 0 ∧
    (running0.seq.kreg 1).toNat + 64 ≤ running0.scratchSize ∧ (running0.seq.kreg 1).toNat % 16 = 0 ∧
    (running0.seq.kreg 1).extractLsb' 60 4 = 0 ∧ wloadSp.w1.getLsbD 29 = true ∧ wloadSp.w1.extractLsb' 20 7 = 0 ∧
    wloadMem.w1.getLsbD 29 = false ∧ wloadMem.w1.getLsbD 26 = false := by
  refine ⟨streams_of ?_, streams_of ?_, by unfold isK; decide, by unfold isK; decide, ?_⟩ <;> decide +kernel
/-- TileLoadsAndDrainsStart: all of tile 0 by rows of 64 bytes from offset 0; a drain of no rows. -/
def tloadI : UL := ⟨126, 0, 3, false, false, false, 0x20000000⟩
def drainI (d : BitVec 7) : UL := ⟨d, 0, 3, false, false, false, 0x20000FC0⟩
theorem wit_drain : isKz 126 ∧ isKz 0 ∧ isK 0 ∧ isK 3 ∧ configured.cmdRoom = true ∧ configured.seq.tcfg = some tcfg1 ∧ w1 tloadI 19 15 < tcfg1.tcnt ∧
    (configured.seq.kreg 126).extractLsb' 32 32 = 0 ∧ (configured.seq.kreg 0).toNat % 16 = 0 ∧ (configured.seq.kreg 3).toNat % 16 = 0 ∧
    (configured.seq.kreg 0).toNat < 2 ^ 32 ∧ tloadI.w1.getLsbD 29 = true ∧ w1 tloadI 14 12 = 0 ∧ tloadI.w1.getLsbD 26 = false ∧
    Streams (stream0 configured) 0 configured (.tload tloadI) ∧ Streams (stream0 configured) 0 configured (.drain (drainI 126)) ∧
    Streams (stream0 configured) 0 configured (.drain (drainI 0)) ∧
    rowsOut configured 0 64 16 (16 * drainBits tcfg1 0 0 / 8) = false := by
  refine ⟨.inr rfl, by unfold isKz; decide, by unfold isK; decide, by unfold isK; decide, ?_, ?_, ?_, ?_, ?_, ?_, ?_, ?_, ?_, ?_,
    streams_of ?_, streams_of ?_, streams_of ?_, ?_⟩ <;> decide +kernel
theorem wit_drain_values : (drainI 126).w1.getLsbD 29 = true ∧ w1 (drainI 126) 14 12 = 0 ∧ (drainI 126).w1.extractLsb' 27 2 = 0 ∧
    w1 (drainI 126) 31 30 < 2 ∧ (drainI 126).w1.extractLsb' 5 7 = 126 ∧ configured.seq.hold = .none ∧
    rowsOut configured 0 64 16 (packedBytes 16 (drainBits tcfg1 0 ((configured.seq.kreg 126).setWidth 16))) = false ∧
    (configured.seq.kreg 0).toNat % 65536 = 0 := by decide +kernel
/-- A TLOAD that acquires, a DRAIN that releases and acquires. -/
def tloadAcq : UL := ⟨126, 0, 3, false, false, false, 0x22000000⟩
def drainAcqRel : UL := ⟨126, 0, 3, false, false, false, 0x26000FC0⟩
theorem wit_drain_ordered : Streams (stream0 configured) 0 configured (.tload tloadAcq) ∧ Streams (stream0 configured) 0 configured (.drain drainAcqRel) ∧
    tloadAcq.w1.getLsbD 29 = true ∧ tloadAcq.w1.getLsbD 25 = true ∧ tloadAcq.w1.getLsbD 26 = false ∧ w1 tloadAcq 14 12 = 0 ∧
    drainAcqRel.w1.getLsbD 29 = true ∧ drainAcqRel.w1.getLsbD 25 = true ∧ drainAcqRel.w1.getLsbD 26 = true ∧ w1 drainAcqRel 14 12 = 0 ∧
    drainAcqRel.w1.extractLsb' 27 2 = 0 ∧ w1 drainAcqRel 31 30 < 2 := by
  refine ⟨streams_of ?_, streams_of ?_, ?_⟩ <;> decide +kernel
/-- MultipliesStart: A and B by the block at 32; MMAR of the whole tile and of none of it, on core 28. -/
def mmaI : UL := ⟨126, 4, 4, false, false, false, 0x01F80000⟩
def mmarI (r : BitVec 32) : UL := ⟨126, 4, 4, false, false, false, r <<< 18⟩
def ragged : Party := streamer fun q => { q with cfg := tcfg0, k := q.k.setIfInBounds 5 (16 + 16 * 2 ^ 16 + 4 * 2 ^ 32) }
def stream28 (p : Party) : State := { State.reset with
  focus := .sequencer 28
  parties := [(28, p)] }
theorem wit_mma : Streams (stream0 configured) 0 configured (.mma mmaI) ∧ configured.seq.tcfg = some tcfg1 ∧ tcfg1.ashare = false ∧
    configured.seq.hold = .none ∧ configured.seq.ops = [] ∧ w1 mmaI 29 25 < tcfg1.tcnt ∧
    (FormatBlock.of ((List.range 32).map (configured.scratchFn 32))).1.layout ≠ 1 ∧
    configured.mmaFault tcfg1 32 32 tcfg1.mt tcfg1.nt tcfg1.kt (w1 mmaI 31 30) false false = none ∧ (configured.seq.kreg 4).toNat = 32 ∧
    0 < tcfg1.mt ∧ 0 < tcfg1.nt ∧ 0 < tcfg1.kt := by
  refine ⟨streams_of ?_, ?_⟩ <;> decide +kernel
theorem wit_mmar : (stream28 ragged).focus = .sequencer 28 ∧ (stream28 ragged).party? 28 = some ragged ∧ reservedOk (.mmar (mmarI 5)) = true ∧
    reservedOk (.mmar (mmarI 0)) = true ∧ ragged.seq.hold = .none ∧ 28 ≤ 28 % 32 ∧ (mmarI 5).w1.extractLsb' 18 7 = 5 ∧ tcfg1.rope = 0 ∧
    (ragged.seq.kreg 5).extractLsb' 48 16 = 0 ∧ (ragged.seq.kreg 5).toNat % 65536 = tcfg1.mt ∧ (ragged.seq.kreg 5).toNat / 65536 % 65536 = tcfg1.nt ∧
    (ragged.seq.kreg 5).toNat / 2 ^ 32 % 65536 = tcfg1.kt ∧ ragged.mmaFault tcfg1 32 32 16 16 4 (w1 (mmarI 5) 31 30) false true = none ∧
    (ragged.seq.kreg 0).toNat % 65536 = 0 := by
  refine ⟨rfl, rfl, ?_⟩ <;> decide +kernel
/-- MatrixOperationsComplete: the TZERO of `working`, a WLOAD of 64 clean bytes into slot 3. -/
def loading : Party := streamer fun q => { q with cfg := tcfg0, ops := [⟨9, placeVa, .wload none 0 64 0, none, some 3⟩] }
theorem wit_complete : (stream0 working).party? 0 = some working ∧ working.seq.ops = [zeroing] ∧ zeroing.id = 9 ∧ working.seq.tcfg = some tcfg1 ∧
    (stream0 loading).party? 0 = some loading ∧ loading.seq.tcfg = some tcfg1 ∧
    (loading.engineRead ((List.range 64).map (0 + ·))).all (fun b => !b.2) = true := by
  refine ⟨rfl, rfl, rfl, ?_, rfl, ?_⟩ <;> decide +kernel

-- witnesses: segments, copies, ADD drains

/-- The line of the second tier at 0x200 in it, on die 1. -/
def line1 : Nat := (placePa + 0x200) / 128
def segment (l : Bool) : Segment := ⟨0, 0x10000, 128, 4, [], l, [1, 2, 3, 4], [], [], false, .ready, none⟩
def command (k : CmdKind) (l : Bool) (swz : Option Nat) : EngineCmd := { EngineCmd.fresh k 0 placeVa with
  id := 7
  box := swz.isSome
  swz := swz.getD 0
  segs := [segment l] }
def copyParty (k : CmdKind) (l : Bool) (swz : Option Nat) : Party := { party0 with cmds := [command k l swz] }
def copyState (k : CmdKind) (l : Bool) (swz : Option Nat) : State := mapped (copyParty k l swz) dataLeaf
/-- The checks of `SegGoes`, to be evaluated. -/
def goesB (s : State) (core : Nat) (p : Party) (c : EngineCmd) (g : Segment) : Bool :=
  decide (p.cmd? c.id = some c) && decide (g.step = .ready) && !p.enginesStopped && !(s.pkg (pkgOfCore core)).paused &&
    decide (p.fixEntries + g.runs.length ≤ 256) && !p.fixups.contains (c.id, g.id) && !s.segBlocked core p c g && p.cmdTurn c.id && c.acqs.isNone
theorem goes_of {s : State} {core : Nat} {p : Party} {c : EngineCmd} {g : Segment} (hp : s.party? core = some p)
    (h : goesB s core p c g = true) : SegGoes s core p c g := by
  simp only [goesB, Bool.and_eq_true, decide_eq_true_eq, Bool.not_eq_true', Option.isNone_iff_eq_none] at h
  obtain ⟨⟨⟨⟨⟨⟨⟨⟨h1, h2⟩, h3⟩, h4⟩, h5⟩, h6⟩, h7⟩, h8⟩, h9⟩ := h
  exact ⟨hp, h1, h2, h3, h4, h5, h6, h7, h8, h9⟩
/-- What the runs of a segment read, without poison. -/
def readsClean (k : CmdKind) (tags : Bool) : Bool :=
  let g := segment false
  match State.readRuns ((copyParty k false none).reader 0) 0 7 tags (copyState k false none) g.runs with
  | .got _ bss => (firstPoison (g.runs.map Prod.fst) bss).isNone
  | _ => false
def writesDone (k : CmdKind) (swz : Option Nat) (bss : List (List (Byte × Bool))) : Bool :=
  match (copyState k false swz).writeRuns ((copyParty k false swz).reader 0) 0 7 (((segment false).runs.map Prod.fst).zip bss)
      (command k false swz).tagMode with
  | .done _ => true
  | _ => false
/-- SegmentsLandAndCopiesComplete: a fill, reads of memory by a copy, a WLOAD and a TLOAD, a copy out, one of a box with the tag of its
KiB and with another, a plain drain. -/
theorem wit_segment_goes : ([(CmdKind.copyIn, true, none), (.copyIn, false, none), (.copyOut, false, none), (.copyOut, false, some 0),
      (.copyOut, false, some 1), (.wload 0, false, none), (.tload 0, false, none), (.drain false 0, false, none)] :
        List (CmdKind × Bool × Option Nat)).all (fun x =>
    goesB (copyState x.1 x.2.1 x.2.2) 0 (copyParty x.1 x.2.1 x.2.2) (command x.1 x.2.1 x.2.2) (segment x.2.1) &&
      decide ((command x.1 x.2.1 x.2.2).seg? 0 = some (segment x.2.1))) = true := by decide +kernel
theorem wit_segment_reads : readsClean .copyIn ((command .copyIn false none).tagMode != 2) = true ∧ readsClean (.wload 0) true = true ∧
    readsClean (.tload 0) true = true := by decide +kernel
theorem wit_segment_writes :
    writesDone .copyOut none ((segment false).runs.map fun (_, off, n) => (copyParty .copyOut false none).engineRead (swizzled off n 0)) = true ∧
    (copyParty .copyOut false (some 0)).swzTag 128 = 0 ∧ (copyParty .copyOut false (some 1)).swzTag 128 ≠ 1 ∧
    writesDone (.drain false 0) none ((copyState (.drain false 0) false none).drainBytes ((copyParty (.drain false 0) false none).reader 0)
      (segment false)) = true := by decide +kernel
theorem wit_segment_state (k : CmdKind) (l : Bool) (swz : Option Nat) : (copyState k l swz).party? 0 = some (copyParty k l swz) ∧
    (segment l).step ≠ .landed ∧ (segment l).step ≠ .failed :=
  ⟨rfl, nofun, nofun⟩
/-- A copy out to a line whose home is on die 1; its segment once it is sent. -/
def farSegment : Segment := { segment false with ptr := 0x10200 }
def farOut : LineOut := ⟨line1, dataLeaf, 1, 7, 0, 0, 0, none⟩
def farParty (g : Segment) : Party := { party0 with cmds := [{ command .copyOut false none with segs := [g] }] }
/-- The links between dies 0 and 1 of package 0. -/
def joined (s : State) : State := { s with links := [(0, Link.trained 16), (revLink 0, Link.trained 16)] }
def farState (g : Segment) : State := joined (mapped (farParty g) dataLeaf)
theorem wit_segment_away : goesB (farState farSegment) 0 (farParty farSegment) { command .copyOut false none with segs := [farSegment] } farSegment = true ∧
    (match (farState farSegment).writeRuns ((farParty farSegment).reader 0) 0 7 ((farSegment.runs.map Prod.fst).zip
        (farSegment.runs.map fun (_, off, n) => (farParty farSegment).engineRead (swizzled off n 0))) 0 with
      | .away _ out => out.line == line1
      | _ => false) = true := by decide +kernel
theorem wit_segment_sent : let g := { farSegment with step := .sent, out := some farOut }
    (farParty g).cmd? 7 = some { command .copyOut false none with segs := [g] } ∧
      ({ command .copyOut false none with segs := [g] } : EngineCmd).seg? 0 = some g ∧ g.step = .sent ∧ g.out = some farOut := by decide +kernel
theorem wit_copy_done : (copyParty .copyIn true none).cmd? 7 = some (command .copyIn true none) ∧ (command .copyIn true none).acqs = none ∧
    (command .copyIn true none).seq = false := by decide +kernel
/-- An ADD drain of the first element of the tile to the mapped page, in the accumulator's format. -/
def adding (ptr : Dword) : Segment := ⟨0, ptr, 0, 4, [], false, [], [], [0], false, .ready, none⟩
def addCommand (ptr : Dword) : EngineCmd := { EngineCmd.fresh (.drain true 0) 0 placeVa with
  id := 7
  segs := [adding ptr] }
def addOp : StreamOp := ⟨7, placeVa, .drain (some 7) 1 false 0x10000 64 1 1 0 0 0 true [], some 0, none⟩
def adder (ptr : Dword) : Party := { streamer fun q => { q with cfg := tcfg0, ops := [addOp] } with cmds := [addCommand ptr] }
def addState (ptr : Dword) : State := { stream0 (adder ptr) with tlb := [⟨0, 0, 0, 1, dataLeaf, 0⟩] }
def addsDone (s : State) (o : Reader) (g : Segment) : Bool :=
  match s.checkRun o g.ptr g.len true with
  | .ok (u, at_, _) =>
    match u.addSource at_ g with
    | .ok old =>
      match u.writeRuns o 0 7 (addRuns tcfg1 0 ((g.runs.map Prod.fst).zip (g.perRun g.vals (· / 4))) old) 0 with
      | .done _ => true
      | _ => false
    | .error _ => false
  | .error _ => false
theorem wit_add : SegGoes (addState 0x10000) 0 (adder 0x10000) (addCommand 0x10000) (adding 0x10000) ∧
    ((addCommand 0x10000).segs.find? fun g => ptrLine g.ptr == 512) = some (adding 0x10000) ∧ (adder 0x10000).seq.tcfg = some tcfg1 ∧
    drainBits tcfg1 0 0 / 8 = 4 ∧
    ((adding 0x10000).runs.all fun r => decide (failOf ((addState 0x10000).checkRun ((adder 0x10000).reader 0) r.1 r.2.2 false) = none)) = true ∧
    addsDone (addState 0x10000) ((adder 0x10000).reader 0) (adding 0x10000) = true := by
  refine ⟨goes_of rfl ?_, ?_⟩ <;> decide +kernel
/-- Its line at its home, free and in turn, with clean bytes. -/
def addOut : LineOut := ⟨line1, dataLeaf, 0xF, 0, 0, 0, 0, none⟩
theorem wit_add_line : let g := { adding 0x10000 with out := some addOut }
    ({ addCommand 0x10000 with segs := [g] }.segs.find? fun g => ptrLine g.ptr == 512) = some g ∧ (addState 0x10000).locked addOut.line = false ∧
      (addState 0x10000).notInTurn 0 addOut.line (.addDrainLine ⟨0, 7, 512, some (0, 0)⟩) = false ∧
      isOk ((addState 0x10000).addSource (.global (lineAddr addOut.line)) g) = true ∧
      isOk ({ addState 0x10000 with poison := [(lineAddr addOut.line / 32, true)] }.addSource (.global (lineAddr addOut.line)) g) = false := by
  decide +kernel

-- witnesses: the memory system

/-- One part of an access, sent to the line at the start of the second tier; the access; its state. -/
def part0 (place : Place) : LanePart := ⟨0, 0x10000, 0, 0, placePa, dataLeaf, place, .sent, 0, false, false⟩
def access0 (k : AccKind) (place : Place) : Access := { (party0.ctx here (.ldw ⟨2, 0, 1, 0, 0⟩)).access party0 k 4 with
  id := 4
  step := .active
  parts := [part0 place] }
def accessing (k : AccKind) (place : Place) : State := mapped { party0 with accesses := [access0 k place] } dataLeaf
def line0 : Nat := placePa / 128
/-- OrderedAccessesStart and GroupInstructionsStart with an order field: a release that stands, and one that an earlier access of the strand
keeps waiting. -/
def busyP (p : Party) : Party := { p with accesses := [access0 .load (.global 0)] }
def busyAt (p : Party) : State := { at0 (busyP p) with nextId := 9 }
theorem wit_release : (at0 party0).fenceDone 0 0 ⟨2, party0.cover 0, (at0 party0).nextId, true, []⟩ = true ∧
    (busyAt party0).fenceDone 0 0 ⟨2, (busyP party0).cover 0, 9, true, []⟩ = false ∧ ((busyP party0).strand 0).txn = none ∧
    (at0 flowing).fenceDone 0 0 ⟨2, flowing.cover 0, (at0 flowing).nextId, true, []⟩ = true ∧
    (busyAt flowing).fenceDone 0 0 ⟨2, (busyP flowing).cover 0, 9, true, []⟩ = false ∧ (busyP flowing).flow? 2 = some flow0 := by decide +kernel
theorem wit_ordered_release : Issues (at0 party0) here party0 (.ldo ⟨4, 126, 0, false, false, 0, 1, 0, 1, 2, 126, 0⟩) ∧
    Issues (at0 party0) here party0 (.sto ⟨126, 2, 0, false, false, 0, 24, 0, 2, 0, 126, 0⟩) ∧
    Issues (at0 party0) here party0 (.atom ⟨4, 2, 0, false, false, 9, 1, 0, 3, 0, 6, 0⟩) ∧
    Issues (busyAt party0) here (busyP party0) (.sto ⟨126, 2, 0, false, false, 0, 24, 0, 2, 0, 126, 0⟩) ∧
    Issues (busyAt party0) here (busyP party0) (.atom ⟨4, 2, 0, false, false, 9, 1, 0, 3, 0, 6, 0⟩) := by
  refine ⟨issues_of ?_, issues_of ?_, issues_of ?_, issues_in rfl rfl ?_, issues_in rfl rfl ?_⟩ <;> decide +kernel
theorem wit_group_release : Issues (at0 flowing) here flowing (.xput ⟨126, 2, 0, false, false, 0, 1, 0, 2, 0, 10, 2⟩) ∧
    Issues (at0 flowing) here flowing (.xget ⟨4, 126, 0, false, false, 0, 1, 0, 1, 0, 10, 2⟩) ∧
    Issues (at0 flowing) here flowing (.xred ⟨126, 2, 0, false, false, 0, 1, 0, 2, 0, 10, 2⟩) ∧
    Issues (at0 flowing) here flowing (.xamo ⟨4, 2, 0, false, false, 9, 1, 0, 3, 0, 10, 2⟩) ∧
    Issues (at0 flowing) here flowing (.xsig ⟨126, 2, 126, false, false, 0, 1, 0, 2, 0, 10, 2⟩) ∧
    Issues (busyAt flowing) here (busyP flowing) (.xput ⟨126, 2, 0, false, false, 0, 1, 0, 2, 0, 10, 2⟩) := by
  refine ⟨issues_of ?_, issues_of ?_, issues_of ?_, issues_of ?_, issues_of ?_, issues_in rfl rfl ?_⟩ <;> decide +kernel
/-- ReadsAndWalksAreAnswered: a walk that finds a 64 GiB leaf, one that finds nothing, one whose table a commit holds; a write through an
entry of the TLB without D, unchanged at its home and changed; a local line that no commit holds. -/
def withTables (s : State) : State :=
  (s.writeMem placePa (natBytes 8 (placePa + 0x10001))).writeMem (placePa + 0x10000) (natBytes 8 (placePa + 0x380F))
def tableState : State := withTables (at0 party0)
def heldBy (s : State) (line who : Nat) : State := { s with l2 := [(line, ⟨0, 0, false, false, some who⟩)] }
theorem wit_walk : tableState.missHeld 0 placePa 0x10000 = false ∧ isOk (tableState.walk 0 placePa 0x10000) = true ∧
    (at0 party0).missHeld 0 placePa 0x10000 = false ∧ isOk ((at0 party0).walk 0 placePa 0x10000) = false ∧
    tableState.tlbFind 0 placePa 0x10000 = none ∧ (heldBy tableState (lineOf (resolved 0 placePa)) 9).missHeld 0 placePa 0x10000 = true := by
  decide +kernel
def cleanState : State :=
  let s := tableState.writeMem (placePa + 0x10000) (natBytes 8 (placePa + 0x280F))
  match s.walk 0 placePa 0x10000 with
  | .ok u => u
  | .error _ => s
theorem wit_walk_dirty : let moved := { cleanState with mem := [] }
    cleanState.missHeld 0 placePa 0x10000 = false ∧ ((cleanState.tlbFind 0 placePa 0x10000).bind cleanState.setDirty).isSome = true ∧
    moved.missHeld 0 placePa 0x10000 = false ∧
    (moved.tlbFind 0 placePa 0x10000).any (fun e => (moved.setDirty e).isNone && !isOk ({ moved with tlb := moved.tlb.filter fun x => x != e }.walk 0 placePa 0x10000)) = true ∧
    (cleanState.tlbFind 0 placePa 0x10000).any (fun e => cleanState.walkerUp 0 (homeDie e.home)) = true ∧
    (cleanState.tlbFind 0 placePa 0x10000).any (fun e => ({ cleanState with fenced := [homeDie e.home] } : State).walkerUp 0 (homeDie e.home)) = false := by
  decide +kernel
theorem wit_home_read : (at0 party0).locked line0 = false ∧ resPkg (lineAddr line0) = pkgOfCore 0 ∧
    ((at0 party0).touchedBy 0 4 line0).watchedLine line0 = false ∧ (heldBy (at0 party0) line0 9).locked line0 = true ∧ LineMode.si ≠ .ts := by
  decide +kernel
theorem wit_read_answer : let s0 := (accessing .load (.global line0)).foldPts 0 5
    (s0.access? 0 4) = some (access0 .load (.global line0)) ∧
      ((access0 .load (.global line0)).parts.find? fun q => q.step == .sent && q.place == .global line0) = some (part0 (.global line0)) := by
  decide +kernel
/-- StoresDrainAndReachTheirHome. -/
def stored (sent : Bool) : SbEntry := ⟨0, 2, 0, 0x10000 / 128, line0, dataLeaf, 1, 7, 0, 0, sent, false, []⟩
def storing (sent : Bool) : State := { at0 party0 with cores := [(0, { Core.reset with sb := [(3, stored sent)] })] }
theorem wit_drain_store : ((storing false).core 0).sb = [(3, stored false)] ∧ (stored false).sent = false ∧
    kget ((storing true).core 0).sb 3 = some (stored true) ∧ (stored true).recs = [] ∧ (at0 party0).locked line0 = false ∧
    isMmioOff (resOff (lineAddr line0)) = false ∧ ((storing false).pkg 0).paused = false ∧
    ({ storing false with pkgs := [(0, { Pkg.reset with paused := true })] }.pkg 0).paused = true := by decide +kernel
/-- A younger store of the line; a store that another of its core was handed to the home before. -/
def younger : State := { at0 party0 with cores := [(0, { Core.reset with sb := [(2, stored true), (3, stored false)] })] }
def homeMsg (sb : Nat) : StoreMsg := ⟨0, sb, line0, 1, 7, 0, 0, 0, none, none, 0⟩
def givenState (evs : List Instr) : State := { at0 party0 with windows := [⟨homeDie (lineAddr line0), 0, 0, [], evs.zipIdx.map fun (e, k) => (k, e), []⟩] }
theorem wit_store_order : kget (younger.core 0).sb 3 = some (stored false) ∧
    (((younger.core 0).sb.takeWhile (·.1 != 3)).any fun x => x.2.line == (stored false).line) = true ∧
    (givenState [.homeStore (homeMsg 2), .homeStore (homeMsg 3)]).notInTurn 0 line0 (.homeStore (homeMsg 3)) = true ∧
    (givenState [.homeStore (homeMsg 2), .homeStore (homeMsg 3)]).notInTurn 0 line0 (.homeStore (homeMsg 2)) = false ∧
    (at0 party0).notInTurn 0 line0 (.homeStore (homeMsg 3)) = false ∧ (homeMsg 3).evict = none := by decide +kernel
/-- HomesActOnAtomicsAndScratchpads: an aligned word of clean memory, one of poisoned memory; an answer; a scratchpad with a party, one
without; a load and a store. -/
def poisoned : State := { at0 party0 with poison := [(placePa / 32, true)] }
theorem wit_atomic : (at0 party0).locked (lineOf placePa) = false ∧ isMmioOff (resOff placePa) = false ∧
    isMmioOff (resOff (lineAddr (lineOf placePa))) = false ∧ placePa % 4 = 0 ∧ sget false (at0 party0).poison (placePa / 32) = false ∧
    poisoned.locked (lineOf placePa) = false ∧ sget false poisoned.poison (placePa / 32) = true ∧
    ((accessing .atomic (.global line0)).foldPts 0 1).access? 0 4 = some (access0 .atomic (.global line0)) := by decide +kernel
def atomMsg (lane : Nat) : AtomMsg := ⟨0, 4, lane, placePa, 9, false, 1, 0, 0⟩
/-- A tagged page: the pointer's tag is 0, the granule's is 0 or 5. -/
def taggedPart : LanePart := { part0 (.global line0) with pte := dataLeaf ||| 0x20 }
theorem wit_atomic_order : (givenState [.homeStore (homeMsg 2), .atomicRequest (atomMsg 0)]).notInTurn 0 (lineOf placePa) (.atomicRequest (atomMsg 0)) = true ∧
    (at0 party0).notInTurn 0 (lineOf placePa) (.atomicRequest (atomMsg 0)) = false ∧ taggedPart.strays ((at0 party0).lineTags line0) = false ∧
    taggedPart.strays ({ at0 party0 with tags := [(placePa / 32, 5)] }.lineTags line0) = true := by decide +kernel
def backed (k : AccKind) (off : Nat) : State :=
  { accessing k (.coreBacked 32 off) with parties := [(0, { party0 with accesses := [access0 k (.coreBacked 32 off)] }), (32, party0)] }
theorem wit_core_backed : (accessing .load (.coreBacked 32 64)).access? 0 4 = some (access0 .load (.coreBacked 32 64)) ∧
    (accessing .load (.coreBacked 32 64)).party? 32 = none ∧ (backed .load 64).party? 32 = some party0 ∧
    (backed .load 64).access? 0 4 = some (access0 .load (.coreBacked 32 64)) ∧ (access0 .load (.coreBacked 32 64)).kind = .load ∧
    (backed .store 64).access? 0 4 = some (access0 .store (.coreBacked 32 64)) ∧ (access0 .store (.coreBacked 32 64)).kind = .store := by
  refine ⟨?_, rfl, rfl, ?_⟩ <;> decide +kernel
/-- The lane that arrives; at the last offsets of the scratchpad and one byte beyond. -/
theorem wit_core_backed_lane : ((access0 .load (.coreBacked 32 64)).arriving 32 0 64).map LanePart.lane = [0] ∧
    (access0 .store (.coreBacked 32 64)).arriving 32 0 64 = [part0 (.coreBacked 32 64)] ∧
    { part0 (.coreBacked 32 4092) with step := .sent }.backed + 4 ≤ party0.scratchSize ∧
    ((access0 .load (.coreBacked 32 4093)).arriving 32 0 4093).any (fun q => decide (party0.scratchSize < q.backed + 4)) = true := by
  decide +kernel
/-- What the checks of a lane meet there: nothing, no party, a range too long, a core that no route reaches. -/
theorem wit_core_backed_checks : (joined (backed .load 64)).backedFault 0 party0.grid 32 64 4 = none ∧
    (accessing .load (.coreBacked 32 64)).backedFault 0 party0.grid 32 64 4 = some .homeUnreachable ∧
    (joined (backed .load 4093)).backedFault 0 party0.grid 32 4093 4 = some .scratchRange ∧
    (backed .load 64).routeUp (dieOfCore 0) (dieOfCore 32) = false ∧ (joined (backed .load 64)).routeUp (dieOfCore 0) (dieOfCore 32) = true ∧
    ({ part0 (.coreBacked 32 64) with step := .sent } : LanePart).place = .coreBacked 32 64 ∧ (access0 .store (.coreBacked 32 64)).fixed = false ∧
    (access0 .atomic (.coreBacked 32 64)).arriving 32 0 64 = [part0 (.coreBacked 32 64)] ∧ (access0 .load (.coreBacked 32 64)).step = .active := by
  decide +kernel
/-- An answer to a store on the scratchpad of another die. -/
def answeredAcc : Access := { access0 .store (.coreBacked 32 64) with parts := [{ part0 (.coreBacked 32 64) with step := .answered }] }
theorem wit_core_backed_answer : ((at0 { party0 with accesses := [answeredAcc] }).party? 0).bind (·.cmd? 4) = none ∧
    (at0 { party0 with accesses := [answeredAcc] }).access? 0 4 = some answeredAcc ∧
    (answeredAcc.parts.find? fun r => r.lane == 0) = some { part0 (.coreBacked 32 64) with step := .answered } := by decide +kernel
/-- CommitsLockThenApply: a write line that is free; that the core's store buffer holds, or a pause, before the first lock; that another
commit holds; that this one holds; a strand without a transaction. -/
def committing : Txn := { opened with
  lanes := Vector.replicate 32 ⟨[], [(line0, 1, 7)], 0⟩
  commit := some 3 }
def commitState (s : State) : State := { s with parties := [(0, with0 fun st => { st with txn := some committing })] }
theorem wit_commit : ((commitState (at0 party0)).strandOf ⟨0, 0, .a⟩).txn = some committing ∧ committing.commit = some 3 ∧
    ((at0 party0).strandOf ⟨0, 0, .a⟩).txn = none :=
  ⟨rfl, rfl, rfl⟩
theorem wit_commit_lines : committing.writeLines = [line0] ∧ committing.readLines = [] ∧
    (commitState (at0 party0)).routeUp (dieOfCore 0) (homeDie (lineAddr line0)) = true ∧
    ((commitState (at0 party0)).stamps line0).lock ≠ some 0 ∧ (commitState (at0 party0)).locked line0 = false ∧
    ((commitState (at0 party0)).pkg 0).paused = false ∧ ((commitState (at0 party0)).core 0).sb = [] ∧
    ((commitState (storing false)).core 0).sb.any (fun x => x.2.line == line0 && x.2.strand == 0) = true ∧
    (commitState (heldBy (at0 party0) line0 9)).locked line0 = true ∧ ((commitState (heldBy (at0 party0) line0 0)).stamps line0).lock = some 0 := by
  decide +kernel
/-- The line has its home on die 0, or on die 1. -/
theorem wit_commit_home : homeDie (lineAddr line0) = dieOfCore 0 ∧ homeDie (lineAddr line1) ≠ dieOfCore 0 ∧
    ({ at0 party0 with l2 := [(line0, ⟨0, 0, false, false, some 0⟩)] } : State).l2.any (fun x => x.2.lock == some 0) = true := by decide +kernel
/-- PoisonIsMarkedAndLogged: at a slice with no log, and with one. -/
theorem wit_poison : (at0 party0).resolve placePa = some placePa ∧ kget (at0 party0).plogs (homeSlice placePa) = none ∧
    kget { at0 party0 with plogs := [(homeSlice placePa, ⟨5, 0⟩)] }.plogs (homeSlice placePa) = some ⟨5, 0⟩ := by decide +kernel
/-- IdleClocksDrift: after 256 cycles, after 255; a stamp above the clock and one at it. -/
theorem wit_drift : let d := ((at0 party0).pkg (pkgOfCore 0)).drift
    ((at0 party0).core 0).lastAdv + d ≤ 256 ∧ 255 < ((at0 party0).core 0).lastAdv + d ∧ ((at0 party0).core 0).pts < 1 ∧
      0 ≤ ((at0 party0).core 0).pts := by decide +kernel
/-- PackagesAreRebased: a clock at the threshold with nothing in flight; with a store sent; a line of the old generation. -/
def due (sent : Bool) : State := { at0 party0 with cores := [(0, { Core.reset with
  pts := rebaseAt
  sb := if sent then [(3, stored true)] else [] })] }
theorem wit_rebase : (due false).rebaseDue 0 = true ∧ (due false).sweeping 0 = false ∧ (due false).requestsInFlight 0 = false ∧
    (due true).rebaseDue 0 = true ∧ (due true).requestsInFlight 0 = true ∧ (at0 party0).rebaseDue 0 = false ∧ Core.reset.pts < 2 ^ 22 + 1 ∧ kget (due false).cores 0 = some { Core.reset with pts := rebaseAt } ∧
    kget { due false with l2 := [(line0, ⟨rebaseAt, rebaseAt, true, false, none⟩)] }.l2 line0 = some ⟨rebaseAt, rebaseAt, true, false, none⟩ := by
  decide +kernel

-- witnesses: parties, faults, holds

/-- PartiesEndAreSavedAndHalt: a party with a live strand; one that is over; one that is being saved and cannot yet, and one that can; one
that halts, one that halts for debug; a held hit. -/
def over0 : Party := { party0.modStrand 0 fun st => { st with live := false } with grid := 7 }
def saving (busy : Bool) : Party := { over0 with
  status := .saving
  producers := if busy then [(5, divider)] else [] }
theorem wit_party_end : (at0 party0).party? 0 = some party0 ∧ party0.anyLive = true ∧ (at0 over0).party? 0 = some over0 ∧ over0.anyLive = false ∧
    over0.status = .running ∧ over0.seq.state = .idle ∧ over0.seq.ops = [] ∧ over0.cmds = [] ∧ over0.accesses = [] ∧ over0.producers = [] ∧
    ((at0 over0).core 0).sb = [] ∧ (at0 over0).packetsOut over0 = false := by
  refine ⟨rfl, ?_, rfl, ?_⟩ <;> decide +kernel
/-- A grid whose save area lies in a page of 64 GiB that Base Camp may write. -/
def saveState : State := { withTables (gridState (saving false)) with
  bc := { BaseCamp.reset with qroot := placePa } }
theorem wit_party_save : (at0 (saving true)).maySave 0 (saving true) = false ∧ saveState.party? 0 = some (saving false) ∧
    (saving false).status = .saving ∧ saveState.maySave 0 (saving false) = true ∧ saveState.grid? (saving false).grid = some grid0 ∧
    saveState.slotFault (grid0.saveSlot (saving false).index) = none := by
  refine ⟨?_, rfl, ?_⟩ <;> decide +kernel
/-- One whose save area is not mapped; one that is over and has a write-back to come. -/
theorem wit_party_stuck : (at0 { over0 with producers := [(5, divider)] }).mayEnd 0 { over0 with producers := [(5, divider)] } = false ∧
    ({ over0 with producers := [(5, divider)] } : Party).status ≠ .halting ∧
    ((gridState (saving false)).slotFault (grid0.saveSlot (saving false).index)).isSome = true ∧ (gridState (saving false)).maySave 0 (saving false) = true := by
  decide +kernel
def haltInfo : HaltInfo := ⟨causeOf .illegalOperand, 0, .a, false, false, true, 0⟩
def halted (st : PartyStatus) (busy : Bool) : Party := { over0 with
  status := st
  grid := 0
  halt := some haltInfo
  producers := if busy then [(5, divider)] else [] }
/-- The state in which a halting party's steps are looked at. -/
def haltingState (busy : Bool) : State :=
  ((at0 (halted .halting busy)).setParty 0 (halted .halting busy).dropEmits).noteHalt 0 haltInfo
theorem wit_party_halt : (at0 (halted .halting true)).party? 0 = some (halted .halting true) ∧ (halted .halting true).status = .halting ∧
    (halted .halting true).halt = some haltInfo ∧ haltInfo.all = false ∧
    (haltingState true).workDone 0 (halted .halting true).dropEmits false = false ∧
    (haltingState false).mayDump 0 (halted .halting false).dropEmits false = true ∧ (haltingState false).commitsHold = false ∧
    ((haltingState false).writeInventory 0 (halted .halting false).dropEmits haltInfo).2 = true := by
  refine ⟨rfl, ?_⟩ <;> decide +kernel
/-- A halting party whose stream has a drain of rows that no strand pops. -/
def stuckP : Party := { halted .halting false with
  q1out := List.replicate q1Depth (splat 0)
  seq := { (halted .halting false).seq with
    ops := [⟨7, placeVa, .drain none 2 true 0 64 1 1 0 0 0 true [splat 0], some 0, none⟩]
    hold := .op 7 } }
def stuckState : State := ((at0 stuckP).setParty 0 stuckP.dropEmits).noteHalt 0 haltInfo
theorem wit_party_halt_stuck : stuckState.workDone 0 stuckP.dropEmits false = true ∧ stuckState.mayDump 0 stuckP.dropEmits false = false := by
  decide +kernel
/-- A debug halt that is asked for, of a party that runs and of one that is being saved. -/
theorem wit_debug_asked : ({ party0 with dbgWant := some true } : Party).status = .running ∧ (saving true).status = .saving ∧ party0.dbgWant = none := by
  decide +kernel
def debugged (busy : Bool) : Party := halted .debugHalt busy
theorem wit_party_debug : (at0 party0).party? 0 = some party0 ∧ party0.status = .running ∧ (at0 (debugged false)).party? 0 = some (debugged false) ∧
    (debugged false).status = .debugHalt ∧ (debugged false).dbg = false ∧ (debugged false).halt = some haltInfo ∧
    (([true, false].map fun b => (((at0 (debugged b)).setParty 0 (debugged b)).stopSequencer 0).party? 0 == some (debugged b) &&
      (((at0 (debugged b)).setParty 0 (debugged b)).stopSequencer 0).strandsQuiet 0 (debugged b) &&
      (((at0 (debugged b)).setParty 0 (debugged b)).stopSequencer 0).streamQuiet 0 (debugged b) && (debugged b).haltedEngines false) = [false, true]) ∧
    (((at0 (debugged true)).setParty 0 (debugged true)).stopSequencer 0).party? 0 = some (debugged true) := by
  refine ⟨rfl, rfl, rfl, ?_⟩ <;> decide +kernel
/-- A held hit, with a fault before it, in the handler, and outside it. -/
def hit (inh : Bool) : Party := with0 fun st => { st with held := some ⟨0, 0x10000, 0, 0, 0⟩, inh := inh }
def stopped : Access := { access0 .load (.global line0) with step := .faulted }
theorem wit_held : ((at0 { hit false with accesses := [access0 .load (.global line0), stopped] }).deliverAccess 0 0).2 = false ∧
    ((at0 (hit true)).deliverAccess 0 0).2 = true ∧ ((hit true).strand 0).held = some ⟨0, 0x10000, 0, 0, 0⟩ ∧ ((hit true).strand 0).inh = true ∧
    ((at0 (hit false)).deliverAccess 0 0).2 = true ∧ ((hit false).strand 0).held = some ⟨0, 0x10000, 0, 0, 0⟩ ∧ ((hit false).strand 0).inh = false ∧
    (hit false).status = .running ∧ (((hit false).strand 0).slot .a).st = .running ∧ (((hit false).strand 0).slot .a).em ≠ 0 := by decide +kernel
/-- FaultsAreServedOrTimeOut: an access in the log whose page stands in the tables, and whose page does not; a record before and at its
limit. -/
def logged : Access := { access0 .load (.global line0) with
  step := .logged
  fault := some ⟨.pageNotPresent, 1, some 0, 0x10000⟩ }
def waitingP : Party := { party0 with
  root := placePa
  accesses := [logged] }
theorem wit_fault : (at0 waitingP).party? 0 = some waitingP ∧ waitingP.stillWaits (.access 4) = true ∧ (at0 waitingP).bc.faults = [] ∧
    failOf ((at0 waitingP).walkFrom (at0 waitingP).campUp waitingP.root 0x10000 3) = some .pageNotPresent ∧
    isOk ((withTables (at0 waitingP)).walkFrom (withTables (at0 waitingP)).campUp waitingP.root 0x10000 3) = true ∧
    (at0 waitingP).commitsHold = false ∧ (heldBy (at0 waitingP) line0 9).commitsHold = true ∧
    ({ at0 waitingP with bc := { BaseCamp.reset with faults := [⟨6, 0, 0, 0, 0x10000, 0, .access 4, 10, false, false⟩] } }.bc.faults.any fun f =>
      f.grid == waitingP.grid && f.index == waitingP.index && f.who == FaultWho.access 4 && f.va == 0x10000) = true := by
  refine ⟨rfl, ?_⟩ <;> decide +kernel
def record0 : FaultRec := ⟨6, 0, 0, 0, 0x10000, 0, .access 4, 10, false, false⟩
theorem wit_timeout : { BaseCamp.reset with faults := [record0] }.faults.find? (·.id == 6) = some record0 ∧ record0.fatal = false ∧
    (4000009 : Nat) < record0.time + 4000000 ∧ record0.time + 4000000 ≤ (4000010 : Nat) := by decide +kernel
/-- HoldsSensorsAndThePowerCap: one unit above T_HI and at it; a hold one unit below T_LO, and at it before and after HOLDMAX; the last
sensor of each kind. -/
def onHoldAt (n : Nat) : State := { State.reset with
  now := n
  holds := [⟨0, 0, false⟩] }
theorem wit_hold : (State.reset.pkg 0).tHi * 4 < 381 ∧ 380 ≤ (State.reset.pkg 0).tHi * 4 ∧ State.reset.droopExcess 0 = false ∧
    (onHoldAt 399999).holds.find? (·.core == 0) = some ⟨0, 0, false⟩ ∧ 351 < ((onHoldAt 399999).pkg 0).tLo * 4 ∧
    ((onHoldAt 399999).pkg 0).tLo * 4 ≤ 352 ∧ (onHoldAt 399999).droopExcess 0 = false ∧ (onHoldAt 399999).now < 0 + ((onHoldAt 399999).pkg 0).holdMax ∧
    0 + ((onHoldAt 400000).pkg 0).holdMax ≤ (onHoldAt 400000).now ∧ 0 < (State.reset.pkg 0).droopWin ∧
    { State.reset with droops := [(0, List.replicate 8 0)] }.droopsOf 0 = 8 ∧ (State.reset.pkg 0).droopMax < 8 + 1 := by decide +kernel
theorem wit_sensor : (sensorPlace 0 255).isSome = true ∧ (sensorPlace 2 15).isSome = true ∧ (sensorPlace 3 8).isSome = true ∧
    (sensorPlace 4 0).isSome = true := by decide

-- witnesses: packets

/-- A packet of four bytes from core 0 to offset 0 of core 33's region, its scratchpad at 128, with an anchor at 64. -/
def packet0 (step : PktStep) : Packet := { packetBase flowing 0 0 flow0 ⟨1, 128, 256, 33, true, 64⟩ .put 4 4 with
  id := 9
  bytes := [(0, 1), (1, 2), (2, 3), (3, 4)]
  step := step }
def packetState (k : Packet) : State := { at0 flowing with
  parties := [(0, flowing), (33, party0)]
  packets := [k] }
/-- PacketsAreAccepted: with room in its window, with all of it taken, without its flow's party. -/
def packet1 (n : Nat) : Packet := { packet0 .sent with id := n }
def crowded : State := { packetState (packet0 .waiting) with packets := [packet1 1, packet1 2, packet1 3, packet1 4, packet0 .waiting] }
theorem wit_packet_accept : (packetState (packet0 .waiting)).packet? 9 = some (packet0 .waiting) ∧ (packet0 .waiting).step = .waiting ∧
    (packetState (packet0 .waiting)).sender (packet0 .waiting) = some flowing ∧ flowing.flow? (packet0 .waiting).flow = some flow0 ∧
    (packet0 .waiting).faulted = none ∧ (packetState (packet0 .waiting)).mayAccept (packet0 .waiting) flow0 = true ∧
    crowded.packet? 9 = some (packet0 .waiting) ∧ crowded.sender (packet0 .waiting) = some flowing ∧ crowded.mayAccept (packet0 .waiting) flow0 = false ∧
    { packetState (packet0 .waiting) with parties := [] }.sender (packet0 .waiting) = none := by
  refine ⟨?_, ?_, rfl, ?_, ?_, ?_, ?_, rfl, ?_⟩ <;> decide +kernel
/-- What a package's count of rack time reads is at most 64 cycles more than the cycle, whatever its skew. -/
theorem rackTime_bounds (s : State) (p : Nat) : s.now ≤ s.rackTime p ∧ s.rackTime p ≤ s.now + 64 := by
  simp only [State.rackTime, rackCount]
  omega
/-- PacketsArrive: without order; in turn and out of turn; with its outcome. -/
def ordered0 (n : Nat) (step : PktStep) : Packet := { packet0 step with
  ordered := true
  seq := some n }
theorem wit_packet_arrive : (packetState (packet0 .sent)).packet? 9 = some (packet0 .sent) ∧ (packet0 .sent).step = .sent ∧ (packet0 .sent).ordered = false ∧
    (ordered0 0 .sent).seq = some ((packetState (ordered0 0 .sent)).flowRec (ordered0 0 .sent)).exp ∧ (ordered0 1 .sent).ordered = true ∧
    (ordered0 1 .sent).seq ≠ some ((packetState (ordered0 1 .sent)).flowRec (ordered0 1 .sent)).exp ∧
    (packetState (packet0 .judged)).packet? 9 = some (packet0 .judged) := by decide +kernel
/-- PacketsAreApplied: at the delivery bound and past it; to a queue that is full; with a tag that the anchor does not admit. -/
def signal0 (tag : BitVec 4) : Packet := { packet0 .ready with
  tag := tag
  count := some (1, 0) }
def mail0 : Packet := { packet0 .ready with
  kind := .mbx
  bytes := []
  lanes := [⟨0, 0, 5, 0⟩] }
def isDelivered (r : State × Packet × Nat × Outcome) : Bool := r.2.2.2 == .delivered
theorem wit_packet_apply : let k := signal0 1
    let s := packetState k
    s.packet? 9 = some k ∧ k.step = .ready ∧ s.fenced.contains k.die = false ∧ ((s.party? k.mem.core).filter fun t => t.grid == k.grid) = some party0 ∧
      ¬(k.count.isSome = true ∧ k.tag.toNat ≠ (party0.anchorAt 64).ph ∧ k.tag.toNat ≠ ((party0.anchorAt 64).ph + 1) % 16) ∧
      s.fits k (some party0) = true ∧ s.mustWait k (some party0) = false ∧ isDelivered (s.perform k) = true ∧
      { s with now := k.bound + 1 }.fits k (some party0) = true := by
  refine ⟨?_, ?_, ?_, rfl, ?_⟩ <;> decide +kernel
/-- In time; past the bound; past four of them. -/
theorem wit_packet_times : let k := signal0 1
    let t (n : Nat) : Nat := { packetState k with now := n }.rackTime (pkgOfDie k.die)
    t 0 ≤ k.time + k.bound ∧ (k.time + k.bound < t (k.bound + 1) ∧ t (k.bound + 1) ≤ k.time + 4 * k.bound) ∧ k.time + 4 * k.bound < t (4 * k.bound + 1) := by
  intro k t
  have hk : k.time = 0 ∧ k.bound = 4000 := by decide +kernel
  have ht (n : Nat) : n ≤ t n ∧ t n ≤ n + 64 := rackTime_bounds { packetState k with now := n } (pkgOfDie k.die)
  rw [hk.1, hk.2]
  have h0 := ht 0
  have h1 := ht (4000 + 1)
  have h4 := ht (4 * 4000 + 1)
  omega
/-- First of its flow to have arrived, and second; at a die that is fenced; to a core with no party, gone and suspended; an abort. -/
def arrivedState (ids : List Nat) : State := { packetState (packet0 .ready) with
  flowRecs := [{ (packetState (packet0 .ready)).flowRec (packet0 .ready) with arrived := ids }] }
theorem wit_packet_turn : ((arrivedState [9, 8]).flowRec (packet0 .ready)).arrived.head? = some (packet0 .ready).id ∧
    ((arrivedState [8, 9]).flowRec (packet0 .ready)).arrived.head? ≠ some (packet0 .ready).id ∧ (packet0 .ready).ordered = false ∧
    { packetState (signal0 1) with fenced := [1] }.fenced.contains (signal0 1).die = true ∧
    ({ packetState (signal0 1) with parties := [(0, flowing)] }.party? (signal0 1).mem.core) = none ∧
    ({ packetState (signal0 1) with parties := [(0, flowing)], saved := [⟨33, party0⟩] }.saved.any fun j =>
      j.core == (signal0 1).mem.core && j.party.grid == (signal0 1).grid) = true ∧ ({ signal0 1 with kind := .abort } : Packet).kind = .abort := by
  decide +kernel
theorem wit_packet_refused : let k := signal0 2
    (packetState k).packet? 9 = some k ∧ k.step = .ready ∧ k.count.isSome = true ∧ k.tag.toNat ≠ (party0.anchorAt 64).ph ∧
      k.tag.toNat ≠ ((party0.anchorAt 64).ph + 1) % 16 := by decide +kernel
theorem wit_packet_wait : let t := { party0 with q2 := List.replicate 32 0 }
    mail0.count = none ∧ ({ packetState mail0 with parties := [(0, flowing), (33, t)] }.fits mail0 (some t)) = true ∧
      (({ packetState mail0 with parties := [(0, flowing), (33, t)] } : State).mustWait mail0 (some t)) = true := by decide +kernel
/-- OutcomesReachTheSender: delivered; late; not unheard of for 8 bounds yet, and for longer, whatever the skew; with and without an outcome. -/
def judged (r : Outcome) (c : Cause) : Packet := { packet0 .judged with outcome := some (r, c) }
theorem wit_outcome : (packetState (judged .delivered .none)).packet? 9 = some (judged .delivered .none) ∧
    (judged .delivered .none).outcome = some (.delivered, .none) ∧
    (packetState (judged .delivered .none)).sender (judged .delivered .none) = some flowing ∧
    (packetState (judged .late .flowLate)).packet? 9 = some (judged .late .flowLate) ∧ Cause.flowLate ≠ .none ∧
    (packetState (judged .late .flowLate)).sender (judged .late .flowLate) = some flowing ∧ (judged .late .flowLate).step = .judged ∧
    0 + 64 < (judged .late .flowLate).time + 8 * (judged .late .flowLate).bound ∧
    (judged .late .flowLate).time + 8 * (judged .late .flowLate).bound ≤ 32000 ∧ (packet0 .sent).step ≠ .judged := by
  refine ⟨?_, ?_, rfl, ?_, ?_, rfl, ?_⟩ <;> decide +kernel

-- witnesses: links, packages, hosts

/-- A link of package 0 with both directions trained, and one message of a slot waiting. -/
def message0 : Message := ⟨1, .driftTick ⟨32⟩, 1, [], none⟩
def flit0 : Flit := ⟨some 0, [message0], 1, 0, none⟩
def link0 (f : Link → Link) : State := { State.reset with links := [(0, f (Link.trained 16)), (revLink 0, Link.trained 16)] }
theorem wit_flit_start : let x := { Link.trained 16 with queue := [(message0, 1)] }
    let y := { Link.trained 16 with due := [flit0] }
    kget (link0 fun _ => x).links 0 = some x ∧ (link0 fun _ => x).linkUp 0 = true ∧ (link0 fun _ => x).hasWork 0 x = true ∧ x.nextModule = some 1 ∧
      x.due = [] ∧ x.queue ≠ [] ∧ x.buffer.length < replayMax 0 ∧ (link0 fun _ => y).linkUp 0 = true ∧ (link0 fun _ => y).hasWork 0 y = true ∧
      y.nextModule = some 1 ∧ y.due = [flit0] ∧ x.modules[1]? = some (Module.fresh true) ∧ (Module.fresh true).busy < 21 * (0 + 1) ∧
      21 * (0 + 1) ≤ ({ Module.fresh true with busy := 56 } : Module).busy ∧ hopPorts 0 = [0] ∧ (link0 fun _ => x).feed 0 x = some 0 ∧
      isPort 0 = false := by decide +kernel
theorem wit_flit_receive : let x := { Link.trained 16 with wire := [flit0] }
    let s := link0 fun _ => x
    let s1 := { s with links := kput s.links 0 { x with wire := [] } }
    kget s.links 0 = some x ∧ s.linkUp 0 = true ∧ (s1.takeHeader 0 flit0).linkUp 0 = true ∧
      kget (s1.takeHeader 0 flit0).links 0 = some (Link.trained 16) ∧ flit0.seq = some (Link.trained 16).rx ∧ x.asked = none ∧
      { x with asked := some (0, 1) }.asked ≠ none ∧ ({ flit0 with seq := some 5 } : Flit).seq ≠ some x.rx := by decide +kernel
theorem wit_ack : let x := fun (n : Nat) => { Link.trained 16 with
      buffer := [flit0]
      fails := n }
    kget (link0 fun _ => x 6).links 0 = some (x 6) ∧ (x 6).buffer = [flit0] ∧ (2047 : Nat) < (x 6).since + 2048 ∧ (x 6).since + 2048 ≤ (2048 : Nat) ∧
      (x 6).fails < 7 ∧ 7 ≤ (x 7).fails := by decide +kernel
theorem wit_module_check : let k : Module := { Module.fresh true with check := some 5 }
    let x := { Link.trained 1 with modules := [k] }
    let y (low high : Bool) : Link := { x with modules := x.modules.zipIdx.map fun (m, i) => if i = 0 then
      { m with low := m.low && !low, high := m.high && !high, check := none, changes := m.changes + 1 } else m }
    x.modules[0]? = some k ∧ (y true false).alive = true ∧ (y true true).alive = false ∧ x.down = false ∧
      (4100 : Nat) < 5 + 4096 ∧ 5 + 4096 ≤ (4101 : Nat) := by decide +kernel
/-- TheRackIsBroughtUpAndWatched. -/
def upState : State := { State.reset with pkgs := [(0, { Pkg.reset with ready := true }), (1, { Pkg.reset with ready := true })] }
theorem wit_heartbeat : upState.fenced.contains 3 = false ∧ (upState.pkg (pkgOfDie 3)).ready = true ∧ (kget upState.misses 3).getD 0 + 1 ≠ 3 ∧
    (kget { upState with misses := [(3, 2)] }.misses 3).getD 0 + 1 = 3 ∧ 3 ≤ (kget { upState with misses := [(576, 3)] }.misses 576).getD 0 ∧
    3 ≤ (kget { upState with misses := [(575, 3)] }.misses 575).getD 0 ∧ upState.fenced.contains 576 = false ∧
    upState.fenced.contains 575 = false := by decide +kernel
def roleState (role : Nat) : State := { upState with
  bc := { BaseCamp.reset with roles := [(role, 0)] }
  fenced := [hostDie 0] }
theorem wit_role : kget (roleState 0).bc.roles 0 = some 0 ∧ (roleState 0).answering 0 = false ∧ (roleState 0).roleHolder 0 = some 1 ∧
    kget (roleState 1).bc.roles 1 = some 0 ∧ (roleState 1).answering 0 = false ∧ (roleState 1).roleHolder 1 = some 1 := by decide +kernel
/-- A request of host 0 of package 0, that owns the rack or does not; its data in the mailbox. -/
def host0 : HostId := .pcie 0 0
def asking (owner ready : Bool) (d : List Byte) : State := { State.reset with
  mailQ := [host0]
  mailboxes := [(host0, ⟨true, 0, 0, 0, d.zipIdx.filterMap fun (b, k) => if b = 0 then none else some (k, b), []⟩)]
  pkgs := [(0, { Pkg.reset with ready := ready })]
  own := ⟨if owner then some ⟨host0, [1], 0⟩ else none, [⟨.pcie 1 0, natBytes 32 7, 0⟩], none, []⟩
  links := [(revLink 0, Link.trained 16), (0, { Link.trained 16 with modules := List.replicate 16 (Module.fresh false) }),
    (8, Link.trained 16), (revLink 8, Link.trained 16)] }
/-- LoadfwBringsAPackageUp: 64 KiB and one byte is a bad size. What a host's memory holds, and whether an image passes its check, are free
functions: both answers of the check are cases of the statement. -/
theorem wit_loadfw : Asks (asking false false (natBytes 24 (65537 * 2 ^ 128))) host0 0 ∧
    ((asking false false (natBytes 24 (65537 * 2 ^ 128))).pkg 0).ready = false ∧
    fieldAt ((asking false false (natBytes 24 (65537 * 2 ^ 128))).mailData host0 0 24) 16 8 % 65536 ≠ 0 ∧
    Asks (asking false false (natBytes 24 (65536 * 2 ^ 128))) host0 0 ∧
    fieldAt ((asking false false (natBytes 24 (65536 * 2 ^ 128))).mailData host0 0 24) 16 8 % 65536 = 0 ∧
    fieldAt ((asking false false (natBytes 24 (65536 * 2 ^ 128))).mailData host0 0 24) 16 8 ≤ hbmBytes := by
  refine ⟨⟨rfl, rfl⟩, rfl, ?_, ⟨rfl, rfl⟩, ?_⟩ <;> decide +kernel
theorem wit_retrain : Asks (asking true true [0, 0, 15]) host0 0 ∧ owns (asking true true [0, 0, 15]) host0 ∧
    ((asking true true [0, 0, 15]).pkg 0).ready = true ∧ fieldAt ((asking true true [0, 0, 15]).mailData host0 0 3) 2 1 = 15 ∧
    namedLink 0 0 0 15 = some 8 ∧ (asking true true [0, 0, 15]).trainable 0 0 8 = true ∧
    kget (asking true true [0, 0, 15]).links 8 = some (Link.trained 16) ∧ 15 < (Link.trained 16).modules.length ∧ isPort 8 = false := by
  refine ⟨⟨rfl, rfl⟩, rfl, rfl, ?_⟩ <;> decide +kernel
theorem wit_host_access : (upState.pkg 0).ready = true ∧ (127 : Nat) % 128 + 1 ≤ 128 ∧ (127 : Nat) < 2 ^ 40 ∧
    upState.locked (lineOf (resolved 0 (0x80000000000 + 127))) = false ∧
    upState.fenced.contains (homeDie (resolved 0 (0x80000000000 + 127))) = false ∧
    upState.resolve 0x80000000040 = some (resolved 0 0x80000000040) ∧ isMmioOff (resOff (resolved 0 0x80000000040)) = false ∧ 0x80000000040 % 128 + 64 ≤ 128 ∧
    upState.locked (lineOf (resolved 0 0x80000000040)) = false ∧ upState.fenced.contains (homeDie (resolved 0 0x80000000040)) = false := by decide +kernel

-- witnesses: the command queue

/-- A packet of an operation with three operands; Base Camp at its second step, with the command space mapped. -/
def cmd0 (op : Nat) (a b c : Dword) : Cmd := ⟨0, 0, 1, BitVec.ofNat 64 op, 0, 0, a, b, c, 0, 0⟩
def campState : State := { withTables State.reset with
  bc := { BaseCamp.reset with
    qroot := placePa
    stage := 2 }
  pkgs := [(0, { Pkg.reset with ready := true })] }
theorem plain_of {s : State} {o : Cmd} {n : Nat} (h : (decide (s.bc.stage = 2) && s.bc.stop.isNone && !s.commitsHold && decide (o.sem = 0) && decide (o.op ≤ 0x0A) &&
    (List.range 5).all (fun k => !o.bound k) && decide (o.dclass = 0 ∧ o.fence = false) && decide (o.dw0.extractLsb' 18 14 = 0) &&
    o.zeroFrom n) = true) : Plain s o n := by
  simp only [Bool.and_eq_true, decide_eq_true_eq, List.all_eq_true, List.mem_range, Bool.not_eq_true', Option.isNone_iff_eq_none] at h
  obtain ⟨⟨⟨⟨⟨⟨⟨⟨h1, hs⟩, h0⟩, h2⟩, h3⟩, h4⟩, h5⟩, h6⟩, h7⟩ := h
  exact ⟨h1, hs, h0, h2, h3, h4, h5, h6, h7⟩
/-- PacketsWaitAndAreChecked: a semaphore that reads 0 below 1; an unused operand that is not zero; a NOP. -/
theorem wit_packet_waits : let o : Cmd := { cmd0 0 0 0 0 with sem := 0x20000, semval := 1 }
    (Instr.nopCommand o, 0) ∈ commands o ∧ campState.bc.stage = 2 ∧ o.sem ≠ 0 ∧ o.sem.toNat % 8 = 0 ∧
      (match campState.campWord o.sem with | .ok (_, v) => decide (v < o.semval) | .error _ => false) = true ∧
      (cmd0 0 1 0 0).zeroFrom 0 = false ∧ (∀ k, k < 5 → (cmd0 0 1 0 0).bound k = false) ∧
      campState.commitsHold = false ∧ (heldBy campState line0 9).commitsHold = true ∧ campState.bc.stop = none ∧
      { campState with bc := { campState.bc with stop := some .record } }.bc.stop.isSome = true := by
  refine ⟨List.mem_cons_self .., rfl, ?_⟩ <;> decide +kernel
theorem wit_packet_plain : Plain campState (cmd0 0 0 0 0) 0 := plain_of (by decide +kernel)
/-- SmallCommandsAct. -/
def wrote (r : State × Nat × Option (Cause × Dword)) : Bool := r.2.2.isNone
theorem wit_small_commands : Plain campState (cmd0 4 0x20000 7 0) 3 ∧ Plain campState (cmd0 4 0x20000 7 1) 3 ∧ Plain campState (cmd0 9 0x20008 0 0) 1 ∧
    Plain campState (cmd0 8 0x20000 0x30000 64) 3 ∧ Plain campState (cmd0 6 0x20000 2 0) 2 := by
  refine ⟨plain_of ?_, plain_of ?_, plain_of ?_, plain_of ?_, plain_of ?_⟩ <;> decide +kernel
theorem wit_small_effects : (taken campState).bc.earlierDone = true ∧
    wrote ((taken campState).campWrite (taken campState).bc.qroot 0x20000 (natBytes 8 7)) = true ∧ isOk ((taken campState).campWord 0x20000) = true ∧
    wrote ((taken campState).campWrite (taken campState).bc.qroot 0x20008 (natBytes 8 (campState.rackTime campState.rackHolder))) = true ∧
    (taken campState).bc.selfRef 0x20000 128 = false ∧ (cmd0 6 0x20000 2 0).depth < 4 := by decide +kernel
/-- A SEMSIG behind a command that is not complete. -/
theorem wit_semsig_waits : let s := { campState with bc := { campState.bc with active := [⟨0, 1, 9, false, 0, .buffer none⟩] } }
    Plain s (cmd0 4 0x20000 7 1) 3 ∧ (taken s).bc.earlierDone = false := by
  refine ⟨plain_of ?_, ?_⟩ <;> decide +kernel
/-- GridCommandsAct: a header of no fields for core 0, with a save area at 16 MiB; a grid that is there; a map of nothing new. -/
def launchState : State := (campState.writeMem (placePa + 0x20038) (natBytes 8 0x21000)).writeMem (placePa + 0x21000) [1]
def launchI : Cmd := { cmd0 1 0x20000 0 0 with
  dw0 := 1 + 7 * 2 ^ 32
  dw7 := 0x1000000 }
def launchRead (s : State) : Option (State × Header) :=
  match (s.modBc BaseCamp.dequeued).readHeader launchI.dw3 with
  | .error _ => none
  | .ok r => some r
def busyState : State := { launchState with parties := [(0, party0)] }
/-- What GridCommandsAct asks of a LAUNCH: its header read, whether it can start, whether its save area is mapped. -/
def launchCase (s : State) (o : Cmd) (start mapped : Bool) : Bool :=
  (launchRead s).any fun (t, h) =>
    let held := t.modBc fun b => { b with stage := 6, taken := some h }
    let v := t.modBc fun b => { b with stage := 6, taken := none }
    held.canStart h == start && v.saveMapped o.dw7 (v.participants h).length == mapped && (v.participants h).length == if start then 1 else 0
def farI : Cmd := { launchI with dw7 := 0x1000000000 }
theorem wit_launch : Plain launchState launchI 5 ∧ Plain launchState farI 5 ∧ Plain busyState launchI 5 ∧ launchI.dw3.toNat % 64 = 0 ∧
    launchI.dw5 = 0 ∧ (launchState.modBc BaseCamp.dequeued).grid? launchI.tag = none ∧ launchCase launchState launchI true true = true ∧
    launchCase launchState farI true false = true ∧ launchCase busyState launchI false true = true := by
  refine ⟨plain_of ?_, plain_of ?_, plain_of ?_, ?_⟩ <;> decide +kernel
def griddedState : State := { campState with grids := [(7, grid0)] }
theorem wit_grid_commands : Plain griddedState (cmd0 2 7 0 0) 2 ∧ Plain griddedState (cmd0 3 7 0 0) 2 ∧ Plain griddedState (cmd0 10 7 0 0) 3 ∧
    Plain griddedState (cmd0 10 7 0 1) 3 ∧ Plain griddedState (cmd0 7 0x10000 0x10000 0) 4 := by
  refine ⟨plain_of ?_, plain_of ?_, plain_of ?_, plain_of ?_, plain_of ?_⟩ <;> decide +kernel
theorem wit_grid_checks : isOk (gridCheck true (cmd0 2 7 0 0) (griddedState.modBc BaseCamp.dequeued)) = true ∧
    isOk (debugCheck (cmd0 10 7 0 1) (griddedState.modBc BaseCamp.dequeued)) = true ∧ isOk (griddedState.coreSet 0) = true ∧
    griddedState.grid? (cmdGrid (cmd0 2 7 0 0)) = some grid0 ∧ resumeCan (cmd0 3 7 0 0) griddedState = true ∧
    isOk (mapCheck (cmd0 7 0x10000 0x10000 0) (griddedState.modBc BaseCamp.dequeued)) = true := by decide +kernel
/-- CompletionsWriteTheirRecord: with room in the ring, with none. -/
def result0 : CmdResult := ⟨7, 1, .none, 3, 0, true⟩
def doneState (tail : Nat) : State := { campState with bc := { campState.bc with
  done := [(result0, 5)]
  cqbase := 0x40000
  cqtail := tail } }
theorem wit_completion : (doneState 0).bc.done = [(result0, 5)] ∧ (doneState 0).bc.stop = none ∧ (doneState 16).bc.recordRoom = false ∧
    (doneState 15).bc.recordRoom = true ∧
    wrote ((doneState 15).campWrite (doneState 15).bc.qroot (BitVec.ofNat 64 ((doneState 15).bc.cqbase + 32 * ((doneState 15).bc.cqtail % 2 ^ (doneState 15).bc.cqsize)))
      (recordBytes result0 5)) = true ∧ (doneState 15).commitsHold = false ∧ (heldBy (doneState 15) line0 9).commitsHold = true := by decide +kernel
/-- RegisterWritesWriteTheirField: an owner, another host; a free ring of 16 and one entry more; a package with no party, with one; the
mailbox of the host. -/
theorem wit_registers : (asking true true []).mayWrite host0 = true ∧ (asking false true []).mayWrite host0 = false ∧
    (16 + 2 ^ 32 - (asking true true []).bc.qhead) % 2 ^ 32 ≤ 2 ^ (asking true true []).bc.qsize ∧
    2 ^ (asking true true []).bc.qsize < (17 + 2 ^ 32 - (asking true true []).bc.qhead) % 2 ^ 32 ∧ (asking true true []).bc.state ≠ 2 ∧
    (2 : Dword).getLsbD 1 = true ∧ (1 : Dword).getLsbD 1 = false ∧ (asking true true []).partyIn 0 = false ∧ (at0 party0).partyIn 0 = true ∧
    (15 ≤ (15 * 2 ^ 32 + 1) / 2 ^ 32 % 2 ^ 16 ∧ (15 * 2 ^ 32 + 1) % 256 ≠ 0) ∧ hostPkg host0 = some 0 ∧
    (State.reset.mailbox host0).busy = false ∧ (mailEvent 8 host0).isSome = true := by decide +kernel
/-- OwnersAndFirmwareChangeAsAsked: a claim whose padding is not zero; a window of 10 ms and one cycle less; an owner and another host. The
hash, the challenge and the signature check are free functions: what they answer are cases of the statement. -/
theorem wit_claim : Asks (asking false true (zeros 0x81 ++ [1])) host0 0 ∧ ((asking false true (zeros 0x81 ++ [1])).pkg 0).ready = true ∧
    (((asking false true (zeros 0x81 ++ [1])).mailData host0 0 200).drop 0x81).take 7 ≠ zeros 7 ∧
    (((asking false true []).mailData host0 0 200).drop 0x81).take 7 = zeros 7 ∧
    (39999999 : Nat) < 0 + 40000000 ∧ (bestClaim (asking false true []).own.claims).isSome = true := by
  refine ⟨⟨rfl, rfl⟩, rfl, ?_, ?_, by decide, ?_⟩ <;> decide +kernel
theorem wit_owner : ¬owns (asking false true []) host0 ∧ owns (asking true true []) host0 ∧ Asks (asking true true (natBytes 32 7)) host0 0 ∧
    (asking true true (natBytes 32 7)).own.claims.find? (fun c => c.ident == (asking true true (natBytes 32 7)).mailData host0 0 32) =
      some ⟨.pcie 1 0, natBytes 32 7, 0⟩ ∧
    (asking true true (natBytes 32 8)).own.claims.find? (fun c => c.ident == (asking true true (natBytes 32 8)).mailData host0 0 32) = none ∧
    [(host0, 3)].find? (fun d : HostId × Nat => d.1 == host0) = some (host0, 3) := by
  refine ⟨by unfold owns; decide +kernel, rfl, ⟨rfl, rfl⟩, ?_⟩ <;> decide +kernel
theorem wit_firmware : Asks (asking true true (natBytes 17 (8 * 2 ^ 128))) host0 0 ∧
    fieldAt ((asking true true (natBytes 17 (8 * 2 ^ 128))).mailData host0 0 17) 16 1 = 8 ∧
    kget { Pkg.reset with staged := [(8, ⟨2, [], 0⟩)] }.staged (fieldAt ((asking true true [8]).mailData host0 0 1) 0 1) = some ⟨2, [], 0⟩ ∧
    (asking true true []).switchable 0 = true := by
  refine ⟨⟨rfl, rfl⟩, ?_⟩ <;> decide +kernel

-- witnesses: frames, waits, faults at issue, steps

/-- IssuesWaitFaultStepAndFetch: a slot that sleeps; a source that is not full; an odd pair; that source read with its e bit; SINGLE_STEP;
two items of q3, for a strand that a dispenser serves and for one that none serves. -/
def emptied : Party := with0 fun st => { st with full := st.full &&& ~~~(1#120) }
def stepping : Party := with0 fun st => { st with step := true }
def takesTwo : Instr := .sadd ⟨90, 123, 123, false, false, false⟩
theorem wit_wait : asleep.slotReady here = false ∧ emptied.operandsReady here (.vadd ⟨2, 0, 1, false, false⟩) = false ∧
    (roles (.vadd ⟨2, 0, 1, false, false⟩)).pipe = .lane := by decide +kernel
theorem wit_issue_fault : party0.slotReady here = true ∧ party0.operandsReady here (.vadd64 ⟨3, 0, 2, false, false⟩) = true ∧
    fetchCount (.vadd64 ⟨3, 0, 2, false, false⟩) = 0 ∧ reservedOk (.vadd64 ⟨3, 0, 2, false, false⟩) = true ∧
    (laneResult here (begun (at0 party0) here party0 (.vadd64 ⟨3, 0, 2, false, false⟩)) (.vadd64 ⟨3, 0, 2, false, false⟩)).isSome = true ∧
    operandOk (.vadd64 ⟨3, 0, 2, false, false⟩) = false ∧
    emptied.operandsReady here (.vadd ⟨2, 0, 1, true, false⟩) = true ∧ emptied.rolesOk here (roles (.vadd ⟨2, 0, 1, true, false⟩)) = true ∧
    operandOk (.vadd ⟨2, 0, 1, true, false⟩) = true ∧
    emptied.srcsFault here (roles (.vadd ⟨2, 0, 1, true, false⟩)).srcs [] = some .feEmpty ∧
    stepping.issueFault here (.vadd ⟨2, 0, 1, false, false⟩) none = none ∧ (stepping.strand 0).step = true ∧ (stepping.strand 0).inh = false := by
  decide +kernel
/-- A slot that owes its step trap, with the access of the stepped instruction still in flight and without. -/
def owing : Party := party0.modSlot here fun l => { l with stepped := some ⟨placeVa, ⟨0, 0⟩, 4, 5⟩ }
theorem wit_step_owed : (owing.slot here).stepped = some ⟨placeVa, ⟨0, 0⟩, 4, 5⟩ ∧ (owing.strand 0).live = true ∧ (owing.strand 0).inh = false ∧
    owing.status = .running ∧ (owing.slot here).st = .running ∧ (owing.slot here).wait = .none ∧ owing.accesses = [] ∧
    (4 ≤ (access0 .load (.global line0)).id ∧ (access0 .load (.global line0)).id < 5) ∧ (access0 .load (.global line0)).strand = 0 := by decide +kernel
theorem wit_q3 : let x := (gridState fetching).markIssued.popsOfQ3 here 2 none
    fetching.slotReady here = true ∧ fetching.operandsReady here takesTwo = true ∧ fetchCount takesTwo = 1 + 1 ∧
      fetching.issueFault here takesTwo none = none ∧ fetching.bound here = true ∧ (gridState fetching).fetchFree 0 fetching.grid 2 = true ∧
      fetching.items.length + 1 < 16 ∧ x.1.isSome = true ∧
      ((x.2.party? 0).any fun p1 => (uniformResult x.2 here placeVa (p1.beginIssue (fetching.ctx here takesTwo) .uniform 0) takesTwo).isSome) = true ∧
      collecting.bound here = false ∧ collecting.issueFault here takesTwo none = none := by decide +kernel
/-- AStepRunsTheDecodedInstruction: VADD v2, v0, v1 at the slot's PC; KADD at the sequencer's; an event that the schedule picks. -/
def vaddWord : List Byte := encodeBytes (.vadd ⟨2, 0, 1, false, false⟩)
def kaddWord : List Byte := encodeBytes (.kadd ⟨2, 0, 1, false, false, false⟩)
def runs (i : Instr) (focus : Focus) (s : State) : Bool :=
  match exec i { s with focus := focus, issued := false } with
  | .next t => t.issued
  | _ => false
def isNext (r : Out) : Bool := match r with
  | .next _ => true
  | _ => false
theorem wit_step_slot : let s := State.reset.place vaddWord false
    let p := placeParty false
    s.pend = 0 ∧ s.turn = 0 ∧ s.phase = 0 ∧ s.parties = [(0, p)] ∧ s.laneRegs = none ∧ p.shadows = false ∧ p.status = .running ∧ (p.strand 0).live = true ∧
      (p.slot here).st = .running ∧ (p.slot here).lastAt ≠ some s.now ∧ (s.core 0).pipe0 ≤ s.now ∧ (s.core 0).pipe1 ≤ s.now ∧
      s.instrAt 0 p.root p.priv (p.slot here).pc = some (.vadd ⟨2, 0, 1, false, false⟩) ∧
      placeOf (pipeOf (.vadd ⟨2, 0, 1, false, false⟩)) = some 0 ∧ runs (.vadd ⟨2, 0, 1, false, false⟩) (.slot here) s = true := by
  refine ⟨?_, ?_, ?_, rfl, ?_⟩ <;> decide +kernel
theorem wit_step_only_slot : (p : Party) → p = placeParty false → (List.range 16).all (fun k => k == 0 || !(p.strand k).live) = true ∧
    (p.slot ⟨0, 0, .b⟩).st ≠ .running := by
  rintro _ rfl
  decide +kernel
theorem wit_step_stream : let s := { State.reset.place kaddWord true with phase := 15 }
    let p := placeParty true
    s.pend = 0 ∧ s.turn = 0 ∧ s.phase = 15 ∧ s.parties = [(0, p)] ∧ p.status = .running ∧ p.seq.state = .running ∧ p.seq.hold.onOp = false ∧
      s.instrAt 0 p.root p.priv p.seq.pc = some (.kadd ⟨2, 0, 1, false, false, false⟩) ∧
      runs (.kadd ⟨2, 0, 1, false, false, false⟩) (.sequencer 0) s = true := by
  refine ⟨?_, ?_, ?_, rfl, ?_⟩ <;> decide +kernel
theorem wit_step_event : let s := { State.reset with agenda := [.driftTick ⟨0⟩, .driftTick ⟨1⟩], pend := 2, sched := [4] }
    s.pend ≠ 0 ∧ 4 % (s.pend + 1) < s.pend ∧ takeAt s.agenda (4 % (s.pend + 1)) = some (.driftTick ⟨1⟩, [.driftTick ⟨0⟩]) ∧ s.evicts = [] := by
  decide +kernel
/-- ThePcNamesItsWords. -/
theorem wit_pc : let s := State.reset.place vaddWord false
    (0x10002 : Pc).extractLsb' 0 2 ≠ 0 ∧ placeVa.extractLsb' 0 2 = 0 ∧ (s.tlbFind (clusterOfCore 0) 0 placeVa.toNat).isSome = true ∧
      pteX placeLeaf = true ∧ pteP placeLeaf = false ∧ pteHome placeLeaf ≠ 3 ∧ pteMcast placeLeaf = false ∧
      s.resolve (leafPa 0 placeLeaf placeVa.toNat) = some placePa ∧ s.routeUp (dieOfCore 0) (homeDie placePa) = true ∧
      isLong (BitVec.ofNat 32 (bytesNat vaddWord)) = false := by decide +kernel
/-- DecodeReadsWhatEncodeWrites, EncodeWritesWhatDecodeRead, NoStepStops, EveryStepKeepsTheMaps. -/
theorem wit_encode : isEncoded (.atom ⟨4, 2, 0, false, false, 9, 1, 31, 3, 1, 6, 0⟩) = true ∧ reservedOk (.atom ⟨4, 2, 0, false, false, 9, 1, 31, 3, 1, 6, 0⟩) = true ∧
    decodeWords 0b0_00000001_0000011_0000100_0000101_00 0 = .instr (.vadd ⟨3, 4, 5, false, false⟩) := by decide +kernel
theorem wit_whole : (∀ i ∈ State.reset.agenda, agendaEvent i = true) ∧ State.reset.mapsOk = true ∧ isNext (step State.reset) = true := by
  refine ⟨by intro i h; simp [State.reset] at h, ?_⟩ <;> decide +kernel


-- a word for every encoded instruction

/-- Words 1: opcode and rulers of R83 and R86, R70 for the two-word forms. -/
def words1 : List (Nat × Nat × Instr) := [
  (32, 0x00A9F24D, .vadd ⟨41, 121, 19, false, true⟩),
  (32, 0x010613A6, .vsub ⟨6, 9, 105, true, false⟩),
  (32, 0x01AE941F, .vadds ⟨46, 74, 7, true, true⟩),
  (32, 0x021B082C, .vsubs ⟨27, 4, 11, false, false⟩),
  (32, 0x02883C2E, .vaddsn ⟨8, 30, 11, true, false⟩),
  (32, 0x0307D321, .vsubsn ⟨7, 105, 72, false, true⟩),
  (32, 0x039CA143, .vmul ⟨28, 80, 80, true, true⟩),
  (32, 0x04079328, .vmulh ⟨7, 73, 74, false, false⟩),
  (32, 0x04FC3817, .vmulhn ⟨124, 28, 5, true, true⟩),
  (32, 0x05114AD5, .vmad ⟨17, 37, 53, false, true⟩),
  (32, 0x058F929F, .vdiv ⟨15, 73, 39, true, true⟩),
  (32, 0x06572E37, .vdivn ⟨87, 23, 13, true, true⟩),
  (32, 0x06D130BD, .vrem ⟨81, 24, 47, false, true⟩),
  (32, 0x075B1121, .vremn ⟨91, 8, 72, false, true⟩),
  (32, 0x079A7F5E, .vmin ⟨26, 63, 87, true, false⟩),
  (32, 0x086350EF, .vmax ⟨99, 40, 59, true, true⟩),
  (32, 0x08BA5C99, .vminn ⟨58, 46, 38, false, true⟩),
  (32, 0x0917B38C, .vmaxn ⟨23, 89, 99, false, false⟩),
  (32, 0x09C94D0D, .vand ⟨73, 38, 67, false, true⟩),
  (32, 0x0A2BBAE5, .vor ⟨43, 93, 57, false, true⟩),
  (32, 0x0AFD123E, .vxor ⟨125, 9, 15, true, false⟩),
  (32, 0x0B15C0AD, .vandn ⟨21, 96, 43, false, true⟩),
  (32, 0x0BBE6A17, .vshl ⟨62, 53, 5, true, true⟩),
  (32, 0x0C09C31F, .vshr ⟨9, 97, 71, true, true⟩),
  (32, 0x0CF0D0A1, .vsar ⟨112, 104, 40, false, true⟩),
  (32, 0x0D2C98FF, .vrot ⟨44, 76, 63, true, true⟩),
  (32, 0x0DBA11FA, .vabs ⟨58, 8, 126, true, false⟩),
  (32, 0x0E0BF1F8, .vneg ⟨11, 120, 126, false, false⟩),
  (32, 0x0EBCB3FA, .vclz ⟨60, 89, 126, true, false⟩),
  (32, 0x0F080FFA, .vpop ⟨8, 7, 126, true, false⟩)]
theorem test_decode_words1 : words1.all (fun x => decide (decodeTableWord x.1 x.2.1 = some x.2.2)) = true := by decide +kernel
/-- Words 2: opcode and rulers of R83 and R86, R70 for the two-word forms. -/
def words2 : List (Nat × Nat × Instr) := [
  (32, 0x0FD94FFA, .vbrev ⟨89, 39, 126, true, false⟩),
  (32, 0x1049FF5E, .vsel ⟨73, 127, 87, true, false⟩),
  (32, 0x10A4B6C7, .vbfxn ⟨36, 91, 49, true, true⟩),
  (32, 0x112C05E0, .vbfxs ⟨44, 2, 120, false, false⟩),
  (32, 0x11959C38, .vbfi ⟨21, 78, 14, false, false⟩),
  (32, 0x121BC5F8, .vmov ⟨27, 98, 126, false, false⟩),
  (32, 0x1290BDF8, .vmrank ⟨16, 94, 126, false, false⟩),
  (32, 0x183265D6, .vadd64 ⟨50, 50, 117, true, false⟩),
  (32, 0x188A2AE5, .vsub64 ⟨10, 21, 57, false, true⟩),
  (32, 0x1923E246, .vmul64 ⟨35, 113, 17, true, false⟩),
  (32, 0x19EE8C8E, .vmulw ⟨110, 70, 35, true, false⟩),
  (32, 0x1A7E5B5E, .vmulwn ⟨126, 45, 87, true, false⟩),
  (32, 0x1AFA3A4C, .vshl64 ⟨122, 29, 19, false, false⟩),
  (32, 0x1B133B50, .vshr64 ⟨19, 29, 84, false, false⟩),
  (32, 0x1BBED52C, .vsar64 ⟨62, 106, 75, false, false⟩),
  (32, 0x2024006B, .vaddi ⟨36, 0, false, 107⟩),
  (32, 0x20C45F90, .vandi ⟨68, 47, true, 144⟩),
  (32, 0x2128F2B0, .vori ⟨40, 121, false, 176⟩),
  (32, 0x21ED839E, .vxori ⟨109, 65, true, 158⟩),
  (32, 0x2253AD01, .vshli ⟨83, 86, true, 1⟩),
  (32, 0x22BAE718, .vshri ⟨58, 115, true, 24⟩),
  (32, 0x2379DF19, .vsari ⟨121, 111, true, 25⟩),
  (32, 0x23C76466, .vmuli ⟨71, 50, false, 102⟩),
  (32, 0x24321A14, .vroti ⟨50, 13, false, 20⟩),
  (32, 0x24B3FC0F, .vmovi ⟨51, 126, false, 15⟩),
  (32, 0x2811FC68, .vcmp ⟨1, 1, 126, 26, false, false⟩),
  (32, 0x2885981A, .vcmpi ⟨0, 5, 76, false, 26⟩),
  (32, 0x29092711, .vcmp64 ⟨0, 9, 19, 68, false, true⟩),
  (32, 0x29A90626, .fcmpF64 ⟨2, 9, 3, 9, true, false⟩),
  (32, 0x2A462745, .fcmpF32 ⟨4, 6, 19, 81, false, true⟩)]
theorem test_decode_words2 : words2.all (fun x => decide (decodeTableWord x.1 x.2.1 = some x.2.2)) = true := by decide +kernel
/-- Words 3: opcode and rulers of R83 and R86, R70 for the two-word forms. -/
def words3 : List (Nat × Nat × Instr) := [
  (32, 0x2AA95CF0, .fcmpF16 ⟨2, 9, 46, 60, false, false⟩),
  (32, 0x2B67FFF4, .fcmpB16 ⟨6, 7, 127, 125, false, false⟩),
  (32, 0x2BB1141A, .fclass ⟨3, 1, 10, false, 26⟩),
  (32, 0x305F5778, .vshfl ⟨95, 43, 94, false, false⟩),
  (32, 0x30EAB010, .vxch ⟨106, 88, false, 16⟩),
  (32, 0x3102351E, .vrotl ⟨2, 26, true, 30⟩),
  (32, 0x31C35C16, .vbcast ⟨67, 46, false, 22⟩),
  (32, 0x3245EA0F, .vscan ⟨69, 117, 3, true, true⟩),
  (32, 0x32A6FB4A, .vscanx ⟨38, 125, 82, true, false⟩),
  (32, 0x3359D9F8, .vredadd ⟨89, 108, 126, false, false⟩),
  (32, 0x33C25DFA, .vredmin ⟨66, 46, 126, true, false⟩),
  (32, 0x34155BFA, .vredmax ⟨21, 45, 126, true, false⟩),
  (32, 0x349C89FA, .vredminn ⟨28, 68, 126, true, false⟩),
  (32, 0x356381F8, .vredmaxn ⟨99, 64, 126, false, false⟩),
  (32, 0x35D139FA, .vredand ⟨81, 28, 126, true, false⟩),
  (32, 0x3667C9FA, .vredor ⟨103, 100, 126, true, false⟩),
  (32, 0x36E1DBF8, .vredxor ⟨97, 109, 126, false, false⟩),
  (32, 0x37673DFA, .fredadd ⟨103, 30, 126, true, false⟩),
  (32, 0x3833BD98, .faddF64 ⟨51, 94, 102, false, false⟩),
  (32, 0x38C27EB6, .faddF32 ⟨66, 63, 45, true, false⟩),
  (32, 0x397E0794, .faddF16 ⟨126, 3, 101, false, false⟩),
  (32, 0x39A13163, .faddB16 ⟨33, 24, 88, true, true⟩),
  (32, 0x3A2C739F, .fsubF64 ⟨44, 57, 103, true, true⟩),
  (32, 0x3AFE59EA, .fsubF32 ⟨126, 44, 122, true, false⟩),
  (32, 0x3B0A3834, .fsubF16 ⟨10, 28, 13, false, false⟩),
  (32, 0x3B995669, .fsubB16 ⟨25, 43, 26, false, true⟩),
  (32, 0x3C7EE73A, .fmulF64 ⟨126, 115, 78, true, false⟩),
  (32, 0x3CBDE94D, .fmulF32 ⟨61, 116, 83, false, true⟩),
  (32, 0x3D5215AA, .fmulF16 ⟨82, 10, 106, true, false⟩),
  (32, 0x3DF46393, .fmulB16 ⟨116, 49, 100, true, true⟩)]
theorem test_decode_words3 : words3.all (fun x => decide (decodeTableWord x.1 x.2.1 = some x.2.2)) = true := by decide +kernel
/-- Words 4: opcode and rulers of R83 and R86, R70 for the two-word forms. -/
def words4 : List (Nat × Nat × Instr) := [
  (32, 0x3E197BC4, .ffmaF64 ⟨25, 61, 113, false, false⟩),
  (32, 0x3EE5A2A9, .ffmaF32 ⟨101, 81, 42, false, true⟩),
  (32, 0x3F79F970, .ffmaF16 ⟨121, 124, 92, false, false⟩),
  (32, 0x3FB3BFE5, .ffmaB16 ⟨51, 95, 121, false, true⟩),
  (32, 0x40142BFC, .fnmaF64 ⟨20, 21, 127, false, false⟩),
  (32, 0x409397CD, .fnmaF32 ⟨19, 75, 115, false, true⟩),
  (32, 0x4153253B, .fnmaF16 ⟨83, 18, 78, true, true⟩),
  (32, 0x41FD7952, .fnmaB16 ⟨125, 60, 84, true, false⟩),
  (32, 0x42138D18, .fminF64 ⟨19, 70, 70, false, false⟩),
  (32, 0x4281CDF3, .fminF32 ⟨1, 102, 124, true, true⟩),
  (32, 0x430D877E, .fminF16 ⟨13, 67, 95, true, false⟩),
  (32, 0x43B7FDBD, .fminB16 ⟨55, 126, 111, false, true⟩),
  (32, 0x446F360C, .fmaxF64 ⟨111, 27, 3, false, false⟩),
  (32, 0x44A5807B, .fmaxF32 ⟨37, 64, 30, true, true⟩),
  (32, 0x45294315, .fmaxF16 ⟨41, 33, 69, false, true⟩),
  (32, 0x45900FD2, .fmaxB16 ⟨16, 7, 116, true, false⟩),
  (32, 0x46727553, .fdivF64 ⟨114, 58, 84, true, true⟩),
  (32, 0x46F384D7, .fdivF32 ⟨115, 66, 53, true, true⟩),
  (32, 0x47708042, .fdivF16 ⟨112, 64, 16, true, false⟩),
  (32, 0x47C3820A, .fdivB16 ⟨67, 65, 2, true, false⟩),
  (32, 0x48632FFA, .fsqrtF64 ⟨99, 23, 126, true, false⟩),
  (32, 0x4880C7FA, .fsqrtF32 ⟨0, 99, 126, true, false⟩),
  (32, 0x49132DF8, .fsqrtF16 ⟨19, 22, 126, false, false⟩),
  (32, 0x49BC9FFA, .fsqrtB16 ⟨60, 79, 126, true, false⟩),
  (32, 0x4A0F8FF8, .frcp ⟨15, 71, 126, false, false⟩),
  (32, 0x4AA9AFFA, .frsq ⟨41, 87, 126, true, false⟩),
  (32, 0x4B438FF8, .fexp2 ⟨67, 71, 126, false, false⟩),
  (32, 0x4BE4C7F8, .flog2 ⟨100, 99, 126, false, false⟩),
  (32, 0x4C718FF8, .fsin ⟨113, 71, 126, false, false⟩),
  (32, 0x4C9F31F8, .fcos ⟨31, 24, 126, false, false⟩)]
theorem test_decode_words4 : words4.all (fun x => decide (decodeTableWord x.1 x.2.1 = some x.2.2)) = true := by decide +kernel
/-- Words 5: opcode and rulers of R83 and R86, R70 for the two-word forms. -/
def words5 : List (Nat × Nat × Instr) := [
  (32, 0x4D05C5F8, .fsincos ⟨5, 98, 126, false, false⟩),
  (32, 0x4DC073FA, .ftanh ⟨64, 57, 126, true, false⟩),
  (32, 0x5003C3CA, .hadd2 ⟨3, 97, 114, true, false⟩),
  (32, 0x50B8533B, .hmul2 ⟨56, 41, 78, true, true⟩),
  (32, 0x514D8266, .hfma2 ⟨77, 65, 25, true, false⟩),
  (32, 0x51B98312, .badd2 ⟨57, 65, 68, true, false⟩),
  (32, 0x5240F07F, .bmul2 ⟨64, 120, 31, true, true⟩),
  (32, 0x52F0E1E2, .bfma2 ⟨112, 112, 120, true, false⟩),
  (32, 0x53768FCA, .b2pack ⟨118, 71, 114, true, false⟩),
  (32, 0x53EB7244, .h2pack ⟨107, 57, 17, false, false⟩),
  (32, 0x54327014, .fcvt ⟨50, 56, false, 20⟩),
  (32, 0x54B612AB, .ncvt ⟨54, 9, false, 171⟩),
  (32, 0x550FE53C, .nexp ⟨15, 114, true, 60⟩),
  (32, 0x585BA554, .ldb ⟨91, 82, 21, 1, 0⟩),
  (32, 0x58A0E24D, .ldbs ⟨32, 113, 4, 3, 1⟩),
  (32, 0x591CBFE1, .ldh ⟨28, 95, 30, 0, 1⟩),
  (32, 0x59F17C5E, .ldhs ⟨113, 62, 5, 3, 2⟩),
  (32, 0x5A6A3859, .ldw ⟨106, 28, 5, 2, 1⟩),
  (32, 0x5AFF82C5, .ldd ⟨127, 65, 12, 1, 1⟩),
  (32, 0x5B195AA2, .ldq ⟨25, 45, 10, 0, 2⟩),
  (32, 0x5C2E04A9, .stb ⟨46, 2, 10, 2, 1⟩),
  (32, 0x5CB8B405, .sth ⟨56, 90, 0, 1, 1⟩),
  (32, 0x5D429E9B, .stw ⟨66, 79, 9, 2, 3⟩),
  (32, 0x5D881DFF, .std ⟨8, 14, 31, 3, 3⟩),
  (32, 0x5E1DF9C0, .stq ⟨29, 124, 28, 0, 0⟩),
  (32, 0x5EA14413, .tagst ⟨33, 34, 1, 0, 3⟩),
  (32, 0x5F632E83, .tagld ⟨99, 23, 8, 0, 3⟩),
  (32, 0x6010D0DF, .cpw ⟨16, 104, 13, 3, 3⟩),
  (32, 0x60D6D1E5, .cpd ⟨86, 104, 30, 1, 1⟩),
  (32, 0x611389DA, .cpq ⟨19, 68, 29, 2, 2⟩)]
theorem test_decode_words5 : words5.all (fun x => decide (decodeTableWord x.1 x.2.1 = some x.2.2)) = true := by decide +kernel
/-- Words 6: opcode and rulers of R83 and R86, R70 for the two-word forms. -/
def words6 : List (Nat × Nat × Instr) := [
  (32, 0x61BFB2A1, .cpws ⟨63, 89, 10, 0, 1⟩),
  (32, 0x6207CD61, .cpds ⟨7, 102, 22, 0, 1⟩),
  (32, 0x62F2128C, .cpqs ⟨114, 9, 8, 3, 0⟩),
  (32, 0x647EFDF8, .tbegin ⟨126, 126, 126, false, false⟩),
  (32, 0x64D0FDF8, .tcommit ⟨5, 0, 126, 126, false, false⟩),
  (32, 0x657EFDF8, .tcancel ⟨126, 126, 126, false, false⟩),
  (32, 0x8017990B, .sadd ⟨11, 102, 33, false, true, true⟩),
  (32, 0x8138210C, .ssub ⟨28, 8, 33, true, false, false⟩),
  (32, 0x8202AFFD, .smul ⟨1, 43, 127, true, false, true⟩),
  (32, 0x83EA8A79, .smulh ⟨117, 34, 79, false, false, true⟩),
  (32, 0x84B47BC2, .smulhn ⟨90, 30, 120, false, true, false⟩),
  (32, 0x854218BA, .sdiv ⟨33, 6, 23, false, true, false⟩),
  (32, 0x86A09E1C, .sdivn ⟨80, 39, 67, true, false, false⟩),
  (32, 0x877302B0, .srem ⟨57, 64, 86, false, false, false⟩),
  (32, 0x88CC0BF8, .sremn ⟨102, 2, 127, false, false, false⟩),
  (32, 0x89057606, .sand ⟨2, 93, 64, true, true, false⟩),
  (32, 0x8A82F0FC, .sor ⟨65, 60, 31, true, false, false⟩),
  (32, 0x8BA9A29A, .sxor ⟨84, 104, 83, false, true, false⟩),
  (32, 0x8C8BAB8B, .sandn ⟨69, 106, 113, false, true, true⟩),
  (32, 0x8D4F60DC, .sshl ⟨39, 88, 27, true, false, false⟩),
  (32, 0x8E33AB87, .sshr ⟨25, 106, 112, true, true, true⟩),
  (32, 0x8F22CFF2, .ssar ⟨17, 51, 126, false, true, false⟩),
  (32, 0x90D6400B, .smin ⟨107, 16, 1, false, true, true⟩),
  (32, 0x91E081B8, .smax ⟨112, 32, 55, false, false, false⟩),
  (32, 0x92ABAD87, .sminn ⟨85, 107, 48, true, true, true⟩),
  (32, 0x93F89262, .smaxn ⟨124, 36, 76, false, true, false⟩),
  (32, 0x940AEBF0, .sclz ⟨5, 58, 126, false, false, false⟩),
  (32, 0x9544E7F0, .spop ⟨34, 57, 126, false, false, false⟩),
  (32, 0x965DED56, .sbfx ⟨46, 123, 42, true, true, false⟩),
  (32, 0x978CA4FA, .sbfi ⟨70, 41, 31, false, true, false⟩)]
theorem test_decode_words6 : words6.all (fun x => decide (decodeTableWord x.1 x.2.1 = some x.2.2)) = true := by decide +kernel
/-- Words 7: opcode and rulers of R83 and R86, R70 for the two-word forms. -/
def words7 : List (Nat × Nat × Instr) := [
  (32, 0x98FDC138, .scmp ⟨126, 112, 39, false, false, false⟩),
  (32, 0x9900A980, .ssel ⟨0, 42, 48, false, false, false⟩),
  (32, 0x9A4703F4, .smov ⟨35, 64, 126, true, false, false⟩),
  (32, 0x9B327E04, .srot ⟨25, 31, 64, true, false, false⟩),
  (32, 0xA043A049, .saddi ⟨33, 104, false, 73⟩),
  (32, 0xA1672CC9, .sandi ⟨51, 75, false, 201⟩),
  (32, 0xA2049942, .sori ⟨2, 38, false, 322⟩),
  (32, 0xA33A2BEA, .sxori ⟨29, 10, true, 490⟩),
  (32, 0xA487B609, .sshli ⟨67, 109, true, 9⟩),
  (32, 0xA5A9CA32, .sshri ⟨84, 114, true, 50⟩),
  (32, 0xA6E13030, .ssari ⟨112, 76, false, 48⟩),
  (32, 0xA7FCA7F8, .scmpi ⟨126, 41, true, 504⟩),
  (32, 0xA87E4D72, .smuli ⟨63, 19, false, 370⟩),
  (32, 0xA99FF814, .scset ⟨79, 126, false, 20⟩),
  (32, 0xAA20D329, .slimz ⟨4, false, 0, 54057⟩),
  (32, 0xABD2E456, .slimk ⟨26, false, 2, 58454⟩),
  (32, 0xAC8340BB, .sldw ⟨65, 80, false, 187⟩),
  (32, 0xADB39D23, .sldd ⟨89, 103, false, 291⟩),
  (32, 0xAEE90D81, .sstw ⟨116, 67, false, 385⟩),
  (32, 0xAF91A9CD, .sstd ⟨72, 106, false, 461⟩),
  (32, 0xB005A6BE, .mand ⟨2, 105, 87, true, true, false⟩),
  (32, 0xB1E56EBE, .mor ⟨114, 91, 87, true, true, false⟩),
  (32, 0xB2A47450, .mxor ⟨82, 29, 10, false, false, false⟩),
  (32, 0xB3234574, .mandn ⟨17, 81, 46, true, false, false⟩),
  (32, 0xB461ABF0, .mnot ⟨48, 106, 126, false, false, false⟩),
  (32, 0xB58E1BF4, .mpop ⟨71, 6, 126, true, false, false⟩),
  (32, 0xB60543F4, .mffs ⟨2, 80, 126, true, false, false⟩),
  (32, 0xB7FD5CF8, .mtest ⟨126, 87, 31, false, false, false⟩),
  (32, 0xC003A7D4, .br ⟨0, 239572⟩),
  (32, 0xC1CC35E8, .jmp ⟨13383144⟩)]
theorem test_decode_words7 : words7.all (fun x => decide (decodeTableWord x.1 x.2.1 = some x.2.2)) = true := by decide +kernel
/-- Words 8: opcode and rulers of R83 and R86, R70 for the two-word forms. -/
def words8 : List (Nat × Nat × Instr) := [
  (32, 0xC211F2D4, .call ⟨1176276⟩),
  (32, 0xC3FD7FF0, .jmpr ⟨126, 95, 126, false, false, false⟩),
  (32, 0xC4FDDFF0, .callr ⟨126, 119, 126, false, false, false⟩),
  (32, 0xC5FD03F0, .ret ⟨126, 64, 126, false, false, false⟩),
  (32, 0xC6F1205B, .split ⟨7, 1122395⟩),
  (32, 0xC7000000, .join ⟨0⟩),
  (32, 0xD0FDF801, .bar ⟨126, 126, false, 1⟩),
  (32, 0xD1FD53F4, .waitp ⟨126, 84, 126, true, false, false⟩),
  (32, 0xD211FBF0, .pclose ⟨8, 126, 126, false, false, false⟩),
  (32, 0xD3BF7BF0, .anset ⟨95, 94, 126, false, false, false⟩),
  (32, 0xD4419C4C, .anwait ⟨32, 103, 9, true, false, false⟩),
  (32, 0xD5FC7AEC, .anarr ⟨126, 30, 93, true, false, false⟩),
  (32, 0xD6FC76F6, .aninit ⟨126, 29, 94, true, true, false⟩),
  (32, 0xD7FCE9FC, .anexp ⟨126, 58, 63, true, false, false⟩),
  (32, 0xD8FDF82F, .fence ⟨126, 126, false, 47⟩),
  (32, 0xD9FDF9D2, .sleep ⟨126, 126, false, 466⟩),
  (32, 0xDA000000, .yield ⟨0⟩),
  (32, 0xDB000000, .nop ⟨0⟩),
  (32, 0xDCFD5FF0, .waitf ⟨126, 87, 126, false, false, false⟩),
  (32, 0xDD49FBF0, .fetch ⟨36, 126, 126, false, false, false⟩),
  (32, 0xDEC417F0, .fetchb ⟨98, 5, 126, false, false, false⟩),
  (32, 0xDFFD3BF4, .wdone ⟨126, 78, 126, true, false, false⟩),
  (32, 0xE0A5F865, .sysrd ⟨82, 126, false, 101⟩),
  (32, 0xE1FC264B, .syswr ⟨126, 9, true, 75⟩),
  (32, 0xE2FDF80A, .trap ⟨126, 126, false, 10⟩),
  (32, 0xE3000000, .eret ⟨0⟩),
  (32, 0xE4FDF882, .brk ⟨126, 126, false, 130⟩),
  (32, 0xE5A7FBF0, .clkrd ⟨83, 126, 126, false, false, false⟩),
  (32, 0xE6000000, .endStrand ⟨0⟩),
  (32, 0xE8BF6130, .kadd ⟨95, 88, 38, false, false, false⟩)]
theorem test_decode_words8 : words8.all (fun x => decide (decodeTableWord x.1 x.2.1 = some x.2.2)) = true := by decide +kernel
/-- Words 9: opcode and rulers of R83 and R86, R70 for the two-word forms. -/
def words9 : List (Nat × Nat × Instr) := [
  (32, 0xE99F2044, .kaddi ⟨79, 72, false, 68⟩),
  (32, 0xEAFC04F6, .klim ⟨126, 1, false, 246⟩),
  (32, 0xEB0FF8F8, .kloop ⟨7, 126, false, 248⟩),
  (32, 0xECFDF80F, .kbar ⟨126, 126, false, 15⟩),
  (32, 0xEDFDF815, .tzero ⟨126, 126, false, 21⟩),
  (32, 0xEE000000, .mfence ⟨0⟩),
  (32, 0xEF000000, .mend ⟨0⟩)]
theorem test_decode_words9 : words9.all (fun x => decide (decodeTableWord x.1 x.2.1 = some x.2.2)) = true := by decide +kernel

/-- The two-word forms: opcodes of the long forms, rulers of R83 and R86. -/
def wordsLong : List (Nat × Nat × Instr) := [
  (64, 0x24F5D580780611F8, .atom ⟨6, 8, 126, false, false, 9, 7, 21, 3, 1, 44, 0⟩),
  (64, 0x09436FC078A8FD98, .ldo ⟨40, 126, 102, false, false, 2, 10, 3, 1, 2, 126, 0⟩),
  (64, 0x073F9FC0797E120C, .sto ⟨126, 9, 3, false, false, 1, 25, 31, 2, 1, 126, 0⟩),
  (64, 0x15A96BA079FECB34, .cprow ⟨126, 101, 77, false, false, 5, 13, 9, 1, 2, 93, 0⟩),
  (64, 0x06D190FD7A7E4307, .xput ⟨126, 33, 65, true, true, 1, 22, 17, 2, 1, 7, 29⟩),
  (64, 0x01655C727AD6FCB5, .xget ⟨86, 126, 45, false, true, 0, 11, 5, 1, 1, 99, 18⟩),
  (64, 0x2E6C88E37B7E7632, .xred ⟨126, 59, 12, true, false, 11, 19, 12, 2, 0, 71, 3⟩),
  (64, 0x24DED29F7BB41B69, .xamo ⟨52, 13, 90, false, true, 9, 6, 30, 3, 1, 20, 31⟩),
  (64, 0x01CA84767C7E8DFA, .xsig ⟨126, 70, 126, true, false, 0, 14, 10, 2, 0, 35, 22⟩),
  (64, 0x00000BA07CFE09FA, .emit ⟨126, 4, 126, true, false, 0, 0, 0, 0, 0, 93, 0⟩),
  (64, 0x2C000000F0D17F58, .cpbox ⟨104, 95, 107, false, false, false, 738197504⟩),
  (64, 0xC0000000F1D17F58, .txa ⟨104, 95, 107, false, false, false, 3221225472⟩),
  (64, 0x00010000F2C3A3F0, .xflow ⟨97, 104, 126, false, false, false, 65536⟩),
  (64, 0x0000007FF3FD8314, .mstart ⟨126, 96, 98, true, false, false, 127⟩),
  (64, 0xA5800000F4FD6B78, .xabort ⟨126, 90, 111, false, false, false, 2776629248⟩),
  (64, 0x0000000BF5FD7368, .tagfill ⟨126, 92, 109, false, false, false, 11⟩),
  (64, 0x00000000F8FC03F0, .tcfg ⟨126, 0, 126, false, false, false, 0⟩),
  (64, 0x00500000F9FC1450, .wload ⟨126, 5, 10, false, false, false, 5242880⟩),
  (64, 0x01F80000FAFC0C20, .mma ⟨126, 3, 4, false, false, false, 33030144⟩),
  (64, 0x01F80000FBFC0C48, .mmar ⟨126, 3, 9, false, false, false, 33030144⟩),
  (64, 0x44300FC0FCFC0830, .drain ⟨126, 2, 6, false, false, false, 1144000448⟩),
  (64, 0x04301000FDFC0830, .tload ⟨126, 2, 6, false, false, false, 70258688⟩)]
theorem test_decode_wordsLong : wordsLong.all (fun x => decide (decodeTableWord x.1 x.2.1 = some x.2.2)) = true := by decide +kernel
/-- The words that the spec prints beside their assembly: 03 (worked encodings), 04, 05, 06, 08 R249 R251, 09, 10 R305, 12, 13, 15, 17. -/
def wordsPrinted : List (Nat × Nat × Instr) := [
  (32, 0x00830208, .vadd ⟨3, 1, 2, false, false⟩),
  (32, 0x3E8A0976, .ffmaF32 ⟨10, 4, 93, true, false⟩),
  (32, 0x5A090E42, .ldw ⟨9, 7, 4, 0, 2⟩),
  (64, 0x00430FC078061010, .atom ⟨6, 8, 4, false, false, 0, 2, 3, 0, 0, 126, 0⟩),
  (32, 0xC01FFFFA, .br ⟨3, 0x7FFFA⟩),
  (32, 0xDB000000, .nop ⟨0⟩),
  (32, 0xC6200008, .split ⟨1, 8⟩),
  (32, 0xAA181440, .slimz ⟨3, false, 0, 0x1440⟩),
  (32, 0x2894021B, .vcmpi ⟨1, 4, 1, false, 0x1B⟩),
  (32, 0xAFC1B9FE, .sstd ⟨96, 110, false, 0x1FE⟩),
  (64, 0x00838FC0797E0C14, .sto ⟨126, 6, 5, false, false, 0, 4, 3, 2, 0, 126, 0⟩),
  (32, 0x647EFDF8, .tbegin ⟨126, 126, 126, false, false⟩),
  (32, 0x657EFDF8, .tcancel ⟨126, 126, 126, false, false⟩),
  (32, 0x6490FDF8, .tcommit ⟨1, 0, 126, 126, false, false⟩),
  (64, 0x09234FC07884FC0C, .ldo ⟨4, 126, 3, false, false, 2, 9, 3, 1, 0, 126, 0⟩),
  (64, 0x00000000F0D17F58, .cpbox ⟨104, 95, 107, false, false, false, 0⟩),
  (32, 0xD3037BF0, .anset ⟨1, 94, 126, false, false, false⟩),
  (32, 0xD2C5FBF0, .pclose ⟨98, 126, 126, false, false, false⟩),
  (32, 0xD1FD8BF0, .waitp ⟨126, 98, 126, false, false, false⟩),
  (32, 0xECFDF801, .kbar ⟨126, 126, false, 1⟩),
  (32, 0xEF000000, .mend ⟨0⟩),
  (32, 0xEE000000, .mfence ⟨0⟩),
  (64, 0x00000000F8FC03F0, .tcfg ⟨126, 0, 126, false, false, false, 0⟩),
  (64, 0x01F80000FAFC0C20, .mma ⟨126, 3, 4, false, false, false, 0x01F80000⟩),
  (64, 0x44300FC0FCFC0830, .drain ⟨126, 2, 6, false, false, false, 0x44300FC0⟩),
  (64, 0x0000007FF3FD8310, .mstart ⟨126, 96, 98, false, false, false, 0x7F⟩),
  (32, 0xDDBDFBF0, .fetch ⟨94, 126, 126, false, false, false⟩),
  (32, 0xDFFD7BF0, .wdone ⟨126, 94, 126, false, false, false⟩),
  (64, 0x00000BA07CFE09F8, .emit ⟨126, 4, 126, false, false, 0, 0, 0, 0, 0, 93, 0⟩),
  (32, 0xDEBD7FF0, .fetchb ⟨94, 95, 126, false, false, false⟩),
  (64, 0x048000E37A7E0C14, .xput ⟨126, 6, 5, false, false, 1, 4, 0, 0, 0, 7, 3⟩),
  (64, 0x00010000F2C3A3F0, .xflow ⟨97, 104, 126, false, false, false, 0x00010000⟩),
  (64, 0xC0000000F1D17F58, .txa ⟨104, 95, 107, false, false, false, 0xC0000000⟩),
  (32, 0x5D00FC90, .stw ⟨0, 126, 9, 0, 0⟩)]
theorem test_decode_wordsPrinted : wordsPrinted.all (fun x => decide (decodeTableWord x.1 x.2.1 = some x.2.2)) = true := by decide +kernel

-- ill-formed terms, one for each check

/-- A field that R82, R85, R87 or R91 fixes has another value. -/
def illFixed1 : List Instr := [
  .vneg ⟨3, 4, 0, false, false⟩, .vneg ⟨3, 4, 126, false, true⟩, .tbegin ⟨126, 126, 126, true, false⟩, .vshli ⟨3, 4, false, 0x20⟩,
  .vmovi ⟨3, 0, false, 5⟩, .vmovi ⟨3, 126, true, 5⟩, .nexp ⟨3, 4, false, 1⟩, .fcvt ⟨3, 4, false, 0b10010101⟩,
  .fclass ⟨1, 4, 3, false, 0⟩, .tcommit ⟨1, 1, 126, 126, false, false⟩, .tcommit ⟨1, 0, 126, 0, false, false⟩,
  .tagst ⟨3, 4, 5, 1, 0⟩, .ldw ⟨3, 4, 25, 0, 2⟩, .stw ⟨3, 4, 25, 0, 1⟩, .cpw ⟨3, 4, 25, 0, 3⟩,
  .atom ⟨4, 6, 8, false, false, 14, 2, 3, 0, 0, 126, 0⟩, .atom ⟨4, 6, 8, false, false, 0, 2, 3, 0, 3, 126, 0⟩,
  .atom ⟨4, 6, 8, true, false, 0, 2, 3, 0, 0, 126, 0⟩, .atom ⟨4, 6, 8, false, false, 0, 2, 3, 0, 0, 126, 1⟩,
  .ldo ⟨4, 6, 8, false, false, 0, 2, 3, 0, 0, 126, 0⟩, .ldo ⟨4, 126, 8, false, false, 3, 2, 3, 0, 0, 126, 0⟩,
  .sto ⟨4, 6, 8, false, false, 0, 2, 3, 0, 0, 126, 0⟩, .sto ⟨126, 6, 8, false, false, 2, 2, 3, 0, 0, 126, 0⟩,
  .cprow ⟨126, 93, 8, false, false, 8, 2, 3, 0, 0, 93, 0⟩, .cprow ⟨126, 93, 8, false, false, 0, 2, 3, 0, 3, 93, 0⟩]
def illFixed2 : List Instr := [
  .xput ⟨3, 4, 5, false, false, 0, 2, 0, 0, 0, 6, 1⟩, .xput ⟨126, 4, 5, false, false, 3, 2, 0, 0, 0, 6, 1⟩,
  .xput ⟨126, 4, 5, false, false, 2, 2, 0, 0, 1, 6, 1⟩, .xget ⟨3, 4, 5, false, false, 0, 2, 0, 0, 0, 6, 1⟩,
  .xred ⟨126, 4, 5, false, false, 8, 2, 0, 0, 0, 6, 1⟩, .xamo ⟨3, 4, 5, false, false, 13, 2, 0, 0, 0, 6, 1⟩,
  .xamo ⟨3, 4, 5, false, false, 14, 2, 0, 0, 0, 6, 1⟩, .xsig ⟨126, 4, 5, false, false, 0, 2, 0, 0, 0, 6, 1⟩,
  .emit ⟨126, 4, 126, false, false, 0, 0, 0, 0, 1, 93, 0⟩, .emit ⟨3, 4, 126, false, false, 0, 0, 0, 0, 0, 93, 0⟩,
  .ssel ⟨91, 92, 93, false, false, true⟩, .mand ⟨113, 114, 115, false, false, true⟩, .smov ⟨91, 92, 0, false, false, false⟩,
  .sclz ⟨91, 92, 93, false, false, false⟩, .scmp ⟨91, 92, 93, false, false, false⟩, .mtest ⟨126, 113, 114, false, false, true⟩,
  .jmpr ⟨126, 93, 126, true, false, false⟩, .waitp ⟨126, 93, 126, false, false, true⟩, .pclose ⟨93, 0, 126, false, false, false⟩,
  .anset ⟨1, 94, 0, false, false, false⟩, .anwait ⟨91, 92, 93, false, false, true⟩, .aninit ⟨91, 92, 93, false, false, false⟩,
  .waitf ⟨126, 3, 126, true, false, false⟩, .fetch ⟨94, 0, 126, false, false, false⟩, .fetchb ⟨94, 95, 0, false, false, false⟩,
  .wdone ⟨0, 94, 126, false, false, false⟩, .clkrd ⟨94, 126, 126, false, true, false⟩, .kadd ⟨1, 2, 3, true, false, false⟩]
def illFixed3 : List Instr := [
  .sshli ⟨91, 92, false, 0x40⟩, .scmpi ⟨91, 92, false, 5⟩, .scset ⟨91, 126, false, 0x20⟩, .scset ⟨91, 0, false, 1⟩,
  .sldw ⟨91, 92, true, 0⟩, .bar ⟨126, 126, false, 16⟩, .bar ⟨0, 126, false, 1⟩, .fence ⟨126, 126, false, 0x80⟩, .fence ⟨126, 126, false, 3⟩,
  .sleep ⟨0, 126, false, 1⟩, .trap ⟨126, 126, false, 0x20⟩, .sysrd ⟨91, 0, false, 1⟩, .syswr ⟨91, 92, false, 1⟩, .kaddi ⟨1, 2, true, 1⟩,
  .klim ⟨0, 1, false, 0⟩, .kloop ⟨1, 0, false, 1⟩, .kbar ⟨126, 126, false, 0x20⟩, .slimz ⟨3, true, 0, 1⟩, .nop ⟨1⟩, .eret ⟨5⟩,
  .cpbox ⟨104, 95, 107, true, false, false, 0⟩, .cpbox ⟨104, 95, 107, false, false, false, 1⟩, .txa ⟨104, 95, 107, false, false, false, 1⟩,
  .xflow ⟨97, 104, 0, false, false, false, 0⟩, .xflow ⟨97, 104, 126, false, false, false, 0xC0000000⟩,
  .mstart ⟨126, 96, 98, false, false, false, 0x100⟩, .xabort ⟨126, 90, 111, false, false, false, 1⟩,
  .tagfill ⟨126, 92, 109, false, false, false, 0x10⟩, .tcfg ⟨126, 0, 126, false, false, false, 1⟩,
  .wload ⟨126, 5, 10, false, false, false, 1⟩, .mma ⟨126, 3, 4, false, false, false, 0⟩, .mmar ⟨126, 3, 4, false, false, false, 1⟩,
  .drain ⟨126, 2, 6, false, false, false, 0x44301FC1⟩, .drain ⟨126, 2, 6, false, false, false, 0x4430D000⟩,
  .tload ⟨126, 2, 6, false, false, false, 1⟩]
theorem test_ill_fixed : (illFixed1 ++ illFixed2 ++ illFixed3).all (fun i => !reservedOk i && !i.wellFormed) = true := by decide +kernel

/-- Every fixed field is right, and a register lies outside the classes of its position (R76-R79, R83). -/
def illClass : List Instr := [
  .vadd ⟨88, 4, 5, false, false⟩, .vadd ⟨112, 4, 5, false, false⟩, .vadd ⟨122, 4, 5, false, false⟩, .vadd ⟨127, 4, 5, false, false⟩,
  .vadd ⟨3, 122, 5, false, false⟩, .vadd ⟨3, 4, 123, false, false⟩, .vadd64 ⟨3, 4, 6, false, false⟩, .vadd64 ⟨2, 5, 6, false, false⟩,
  .vadd64 ⟨2, 4, 120, false, false⟩, .vdiv ⟨120, 4, 5, false, false⟩, .fsincos ⟨126, 4, 126, false, false⟩,
  .vcmp ⟨0, 3, 4, 5, false, false⟩, .ldq ⟨2, 4, 5, 0, 0⟩, .sadd ⟨3, 92, 93, false, false, false⟩, .sadd ⟨91, 3, 93, false, false, false⟩,
  .sadd ⟨91, 92, 120, false, false, false⟩, .emit ⟨126, 93, 126, false, false, 0, 0, 0, 0, 0, 93, 0⟩, .fetchb ⟨94, 3, 126, false, false, false⟩,
  .wdone ⟨126, 3, 126, false, false, false⟩, .cprow ⟨126, 3, 8, false, false, 0, 2, 3, 0, 0, 93, 0⟩]
/-- Every fixed field is right, and a number lies outside the range that its instruction admits. -/
def illRange : List Instr := [
  .vcmp ⟨1, 12, 4, 5, false, false⟩, .vcmpi ⟨1, 12, 4, false, 0⟩, .ldw ⟨3, 4, 26, 0, 0⟩, .ldw ⟨3, 4, 5, 3, 0⟩, .stw ⟨3, 4, 5, 2, 0⟩,
  .tagst ⟨3, 4, 24, 0, 0⟩, .cpw ⟨3, 4, 24, 0, 0⟩, .atom ⟨4, 6, 8, false, false, 0, 26, 3, 0, 0, 126, 0⟩,
  .atom ⟨4, 6, 8, false, false, 0, 2, 3, 0, 2, 126, 0⟩, .atom ⟨120, 6, 8, false, false, 0, 2, 3, 0, 0, 126, 0⟩,
  .atom ⟨4, 6, 8, false, false, 0, 2, 3, 0, 0, 3, 0⟩, .atom ⟨4, 6, 8, false, false, 12, 2, 3, 0, 0, 3, 0⟩,
  .atom ⟨4, 6, 8, false, false, 10, 2, 3, 0, 1, 126, 0⟩, .ldo ⟨4, 126, 8, false, false, 0, 2, 3, 2, 0, 126, 0⟩,
  .sto ⟨126, 6, 8, false, false, 0, 2, 3, 1, 0, 126, 0⟩, .cprow ⟨126, 93, 8, false, false, 0, 24, 3, 0, 0, 93, 0⟩,
  .cprow ⟨126, 93, 8, false, false, 0, 2, 3, 0, 2, 93, 0⟩, .xput ⟨126, 4, 5, false, false, 0, 24, 0, 0, 0, 6, 1⟩,
  .xput ⟨126, 4, 126, false, false, 2, 2, 0, 0, 0, 6, 1⟩, .xget ⟨3, 126, 5, false, false, 0, 2, 0, 2, 0, 6, 1⟩,
  .xred ⟨126, 4, 5, false, false, 10, 2, 0, 0, 1, 6, 1⟩, .xamo ⟨3, 4, 5, false, false, 10, 2, 0, 0, 1, 6, 1⟩,
  .xsig ⟨126, 4, 126, false, false, 0, 2, 0, 1, 0, 6, 1⟩, .txa ⟨111, 95, 107, false, false, false, 0⟩,
  .xflow ⟨97, 126, 126, false, false, false, 0x00010000⟩, .br ⟨19, 0⟩, .scset ⟨91, 126, false, 19⟩, .split ⟨0, 5⟩,
  .slimz ⟨24, false, 0, 1⟩, .cpbox ⟨110, 95, 107, false, false, false, 0⟩, .anset ⟨4, 94, 126, false, false, false⟩]
theorem test_ill_operand : (illClass ++ illRange).all (fun i => reservedOk i && !operandOk i && !i.wellFormed) = true := by decide +kernel
/-- The words that the spec prints are well formed. -/
theorem test_well_formed : (wordsPrinted.map (·.2.2)).all Instr.wellFormed = true := by decide +kernel

-- one step each; every expected value is worked out from the rule or the example that the comment names

def outParty (o : Out) : Party := match o with
  | .next s => (s.party? 0).getD Party.blank
  | _ => Party.blank
/-- Strand 0 after the instruction, issued by slot A of party `p`. -/
def after (i : Instr) (p : Party := party0) : Strand := (outParty (exec i (at0 p))).strand 0
def slotAfter (i : Instr) (p : Party := party0) : Slot := (after i p).slot .a
/-- A lane of a v register after the instruction. -/
def lane (i : Instr) (n k : Nat) (p : Party := party0) : Word := (((after i p).vreg n).toList[k]?).getD 0
/-- The party with v0 and v1 holding the same words in every lane. -/
def two (x y : Word) : Party := with0 fun st => (st.setV 0 (splat x)).setV 1 (splat y)
/-- The party with s0 and s1 holding two values. -/
def twoS (x y : Dword) : Party := with0 fun st => (st.setS 0 x).setS 1 y

-- 06: R189-R194 and the worked example there
theorem test_vadd : (after (.vadd ⟨2, 0, 1, false, false⟩)).vreg 2 = tab fun k => BitVec.ofNat 32 (7 + k.val) := by decide +kernel
theorem test_vadd_wraps : lane (.vadd ⟨2, 0, 1, false, false⟩) 2 9 (two 0xFFFFFFFF 2) = 1 := by decide +kernel
theorem test_vsub_order : lane (.vsub ⟨2, 0, 1, false, false⟩) 2 31 (two 3 5) = 0xFFFFFFFE := by decide +kernel
theorem test_vadds_saturates : lane (.vadds ⟨2, 0, 1, false, false⟩) 2 0 (two 0x40000000 0x40000000) = 0x7FFFFFFF ∧
    lane (.vadds ⟨2, 0, 1, false, false⟩) 2 0 (two 0x3C000000 0x3C000000) = 0x78000000 := by decide +kernel
theorem test_vsubsn_saturates : lane (.vsubsn ⟨2, 0, 1, false, false⟩) 2 0 (two 3 5) = 0 := by decide +kernel
theorem test_vmulh_signed : lane (.vmulh ⟨2, 0, 1, false, false⟩) 2 0 (two 0xFFFFFFFF 3) = 0xFFFFFFFF ∧
    lane (.vmulhn ⟨2, 0, 1, false, false⟩) 2 0 (two 0xFFFFFFFF 3) = 2 := by decide +kernel
theorem test_vabs_min : lane (.vabs ⟨2, 0, 126, false, false⟩) 2 4 (two 0x80000000 0) = 0x80000000 := by decide +kernel
theorem test_vshl_count : lane (.vshl ⟨2, 0, 1, false, false⟩) 2 4 (two 5 32) = 5 := by decide +kernel
theorem test_vsar_sign : lane (.vsar ⟨2, 0, 1, false, false⟩) 2 4 (two 0x80000000 31) = 0xFFFFFFFF ∧
    lane (.vshr ⟨2, 0, 1, false, false⟩) 2 4 (two 0x80000000 31) = 1 := by decide +kernel
theorem test_vbfx : lane (.vbfxn ⟨2, 0, 1, false, false⟩) 2 0 (two 0xFA0 0xC4) = 0x3A ∧
    lane (.vbfxs ⟨2, 0, 1, false, false⟩) 2 0 (two 0xFA0 0xC4) = 0xFFFFFFFA := by decide +kernel
theorem test_vclz_zero : lane (.vclz ⟨2, 0, 126, false, false⟩) 2 0 (two 0 0) = 32 := by decide +kernel
theorem test_vdiv_values : sdivide (7 : Word) 0 = 0xFFFFFFFF ∧ sdivide (0x80000000 : Word) 0xFFFFFFFF = 0x80000000 ∧ sdivide (0xFFFFFFF9 : Word) 2 = 0xFFFFFFFD ∧
    sremain (7 : Word) 0 = 7 ∧ sremain (0x80000000 : Word) 0xFFFFFFFF = 0 ∧ sremain (0xFFFFFFF9 : Word) 2 = 0xFFFFFFFF := by decide +kernel
theorem test_vdiv_marks_empty : (after (.vdiv ⟨2, 0, 1, false, false⟩)).isFull 2 = false ∧
    (after (.vadd ⟨2, 0, 1, false, false⟩)).isFull 2 = true := by decide +kernel
/-- 06, worked example: ranks, scan, exchange. -/
theorem test_vmrank : let p := with0 fun st => st.setM 1 0xF0000000
    lane (.vmrank ⟨2, 113, 126, false, false⟩) 2 28 p = 0 ∧ lane (.vmrank ⟨2, 113, 126, false, false⟩) 2 31 p = 3 := by decide +kernel
theorem test_vscan : let p := with0 fun st => st.setM 2 0x00010001
    lane (.vscan ⟨3, 1, 114, false, false⟩) 3 15 p = 120 ∧ lane (.vscan ⟨3, 1, 114, false, false⟩) 3 16 p = 16 ∧
      lane (.vscan ⟨3, 1, 114, false, false⟩) 3 31 p = 376 := by decide +kernel
theorem test_vxch : lane (.vxch ⟨5, 1, false, 1⟩) 5 0 = 1 ∧ lane (.vxch ⟨5, 1, false, 1⟩) 5 1 = 0 := by decide +kernel
theorem test_vredmax : lane (.vredmax ⟨4, 1, 126, false, false⟩) 4 3 = 31 := by decide +kernel
theorem test_vcmpi : (after (.vcmpi ⟨1, 4, 1, false, 0x1B⟩)).mreg 1 = 0xF0000000 := by decide +kernel
/-- R15: a pair doubled in place. -/
theorem test_vadd64_in_place : let p := with0 fun st => (st.setV 2 (splat 0x80000001)).setV 3 (splat 1)
    lane (.vadd64 ⟨2, 2, 2, false, false⟩) 2 5 p = 2 ∧ lane (.vadd64 ⟨2, 2, 2, false, false⟩) 3 5 p = 3 := by decide +kernel
theorem test_inactive_lane : let p := with0 fun st => st.modSlot .a fun l => { l with m0 := 1 }
    lane (.vadd ⟨0, 0, 0, false, false⟩) 0 0 p = 14 ∧ lane (.vadd ⟨0, 0, 0, false, false⟩) 0 1 p = 7 := by decide +kernel
/-- R79: zr discards. -/
theorem test_zr_destination : (after (.vadd ⟨126, 0, 1, false, false⟩)).v = strand0.v ∧
    (slotAfter (.vadd ⟨126, 0, 1, false, false⟩)).pc = placeVa + 4 := by decide +kernel

-- 07: R219, R221, R222, R215 and the worked example there
def withFmt : Party := with0 fun st => { (st.setS 0 0x3E99999A).setV 3 (splat 0x2900) with fmt := st.fmt.setIfInBounds 0 0xC607 }
theorem test_ncvt_rne : lane (.ncvt ⟨5, 88, false, 0⟩) 5 0 withFmt = 0x2A := by decide +kernel
theorem test_ncvt_rtz : lane (.ncvt ⟨5, 88, false, 5⟩) 5 0 withFmt = 0x2900 := by decide +kernel
theorem test_nexp : lane (.nexp ⟨5, 3, false, 4⟩) 5 0 withFmt = 0x3E900000 := by decide +kernel
theorem test_fcvt_modes : let p := two 0xC0200000 0
    lane (.fcvt ⟨3, 0, false, 0x32⟩) 3 0 p = 0xFFFFFFFD ∧ lane (.fcvt ⟨3, 0, false, 0x31⟩) 3 0 p = 0xFFFFFFFE ∧
      lane (.fcvt ⟨3, 0, false, 0x30⟩) 3 0 p = 0xFFFFFFFE ∧ lane (.fcvt ⟨3, 0, false, 0x33⟩) 3 0 p = 0xFFFFFFFE := by decide +kernel
/-- 3.0 x 10^9 saturates. -/
theorem test_fcvt_saturates : lane (.fcvt ⟨3, 0, false, 0x30⟩) 3 0 (two 0x4F32D05E 0) = 0x7FFFFFFF := by decide +kernel
theorem test_b2pack : lane (.b2pack ⟨6, 0, 1, false, false⟩) 6 0 (two 0xC0200000 0x3E99999A) = 0x3E9AC020 := by decide +kernel
theorem test_fadd : lane (.faddF32 ⟨2, 0, 1, false, false⟩) 2 0 (two 0x3F800000 0x40000000) = 0x40400000 ∧
    lane (.faddF32 ⟨2, 0, 1, false, false⟩) 2 0 (two 0x7F800000 0xFF800000) = 0x7FC00000 := by decide +kernel
/-- One rounding: 1.0 + 2^-24 is a tie, to even. -/
theorem test_fadd_tie : lane (.faddF32 ⟨2, 0, 1, false, false⟩) 2 0 (two 0x3F800000 0x33800000) = 0x3F800000 ∧
    lane (.faddF32 ⟨2, 0, 1, false, false⟩) 2 0 (two 0x3F800001 0x33800000) = 0x3F800002 := by decide +kernel
/-- R207: -0 lies below +0. -/
theorem test_fmin_zero : lane (.fminF32 ⟨2, 0, 1, false, false⟩) 2 0 (two 0 0x80000000) = 0x80000000 := by decide +kernel

-- 05: R153-R161 and the worked example there
theorem test_slimz : (after (.slimz ⟨6, false, 2, 0x89AB⟩)).sreg 6 = 0x000089AB00000000 := by decide +kernel
theorem test_slimk : (after (.slimk ⟨6, false, 1, 0x4567⟩) (with0 fun st => st.setS 6 0x000089AB00000000)).sreg 6 = 0x000089AB45670000 := by decide +kernel
theorem test_sadd_word_mode : (after (.sadd ⟨98, 88, 88, false, false, true⟩) (twoS 0x000089AB45670000 0)).sreg 10 = 0xFFFFFFFF8ACE0000 := by decide +kernel
theorem test_saddi_negative : (after (.saddi ⟨96, 88, false, 0x1FF⟩)).sreg 8 = 7 := by decide +kernel
theorem test_scmpi_flags : (slotAfter (.scmpi ⟨126, 88, false, 0⟩) (twoS 4 0)).flags = ⟨false, false, true, false, false⟩ ∧
    (slotAfter (.scmpi ⟨126, 88, false, 0⟩) (twoS 0 0)).flags = ⟨false, true, true, false, false⟩ := by decide +kernel
theorem test_br : (slotAfter (.br ⟨1, 0x7FFFD⟩)).pc = placeVa + 4 ∧
    (slotAfter (.br ⟨0, 0x7FFFD⟩)).pc = placeVa - 12 := by decide +kernel
theorem test_mpop : (after (.mpop ⟨97, 112, 126, false, false, false⟩)).sreg 9 = 32 := by decide +kernel
theorem test_call : (after (.call ⟨5⟩)).sreg 23 = (placeVa + 4).zeroExtend 64 ∧ (slotAfter (.call ⟨5⟩)).pc = placeVa + 20 := by decide +kernel

-- 04: the first step of the traced divergence; R178 traps
theorem test_split_first : let t := after (.split ⟨1, 8⟩) (with0 fun st => st.setM 1 0xFFFF)
    (t.slot .a).em = 0xFFFF0000 ∧ (t.slot .a).pc = placeVa + 4 ∧ (t.slot .b).em = 0xFFFF ∧ (t.slot .b).pc = placeVa + 32 ∧ t.depth = 0 := by
  decide +kernel
/-- R96: a check that fails performs nothing and stops the strand for a trap. -/
theorem test_bad_operand_writes_nothing : (after (.vadd ⟨88, 0, 1, false, false⟩)).s = strand0.s ∧
    (after (.vadd ⟨88, 0, 1, false, false⟩)).v = strand0.v := by decide +kernel

-- 10: the traced anchor; 04 and 08: a store and a load in the scratchpad
theorem test_aninit : let q := twoS 0x400 0x01000004
    (outParty (exec (.aninit ⟨126, 88, 89, false, false, false⟩) (at0 q))).readScratch 0x400 8 = 0x0001000004000010 ∧
      (outParty (exec (.aninit ⟨126, 88, 89, false, false, false⟩) (at0 q))).readScratch 0x408 8 = 0x40 := by decide +kernel

-- the machine: R497, and a placed instruction
theorem test_cold_reset : isNext (exec (.packageColdReset ⟨3⟩) State.reset) = true := by decide +kernel
theorem test_placed_slimz : ((outParty (step (State.reset.withFetchWord 32 0xAA3289AB))).strand 0).sreg 6 = 0x000089AB00000000 := by decide +kernel
theorem test_placed_reserved_opcode : isNext (step (State.reset.withFetchWord 32 0x00000000)) = true := by decide +kernel
end

end Sys2Proof.Tests
end

section
/-!
SUPPORT. No step stops: an event of the agenda answers a next state wherever it runs, what a fetch gives answers one while its
issuer's party is there, and the selectors of a cycle give the focus to no other issuer.
-/

namespace Sys2Proof.Machine

-- outcomes

/-- The outcome is a next state: no fault, no refusal. -/
def Answers (r : Out) : Prop := ∃ t, r = .next t

@[simp] theorem answers_next (t : State) : Answers (.next t) := ⟨t, rfl⟩

/-- Somebody issues: the focus names a slot or a sequencer whose core holds a party. -/
inductive State.HasIssuer (s : State) : Prop
  | slot (w : SlotRef) (p : Party) (hf : s.focus = .slot w) (hp : s.party? w.core = some p)
  | sequencer (core : Nat) (p : Party) (hf : s.focus = .sequencer core) (hp : s.party? core = some p)

-- the shared shapes of an issue

theorem issue_answers {s : State} (h : s.HasIssuer) (i : Instr) (pre : Ctx → Party → Option Cause) (ready : Ctx → State → Bool)
    (body : Ctx → State → Done) : Answers (issue i pre ready body s) := by
  cases h with
  | sequencer core p hf hp => simp only [issue, hf, answers_next]
  | slot w p hf hp =>
    simp only [issue, hf, hp]
    (repeat' split) <;> exact answers_next _

theorem refusedWord_answers {s : State} (h : s.HasIssuer) (words : Words) (ready : SlotRef → Party → Bool)
    (c : Ctx → Party → Cause) (inStream : Cause) (addr : Dword) (pc : Bool) :
    Answers (refusedWord words ready c inStream addr pc s) := by
  cases h with
  | sequencer core p hf hp => simp only [refusedWord, hf, answers_next]
  | slot w p hf hp =>
    simp only [refusedWord, hf, hp]
    split <;> exact answers_next _

theorem streamIssue_answers {s : State} (h : s.HasIssuer) (i : Instr) (regs : List (BitVec 7 × Bool)) (ready : Nat → Party → Bool)
    (body : Nat → Party → State → SeqDone) : Answers (streamIssue i regs ready body s) := by
  cases h with
  | slot w p hf hp =>
    simp only [streamIssue, hf]
    exact refusedWord_answers (.slot w p hf hp) ..
  | sequencer core p hf hp =>
    simp only [streamIssue, hf, hp]
    (repeat' split) <;> exact answers_next _

/-- R95: SLIMZ and SLIMK run in a strand and in the stream. -/
theorem slim_answers {s : State} (h : s.HasIssuer) (i : Instr) (o : UK) (f : Dword → Dword) : Answers (slim i o f s) := by
  unfold slim
  split
  · exact streamIssue_answers h ..
  · exact issue_answers h ..

theorem execCpbox_answers {s : State} (h : s.HasIssuer) (o : UL) : Answers (execCpbox o s) := by
  unfold execCpbox
  split
  · exact streamIssue_answers h ..
  · exact issue_answers h ..

-- the opcode maps (R93, R94): the meaning of every opcode unfolds to one of the shared shapes

section
variable {s : State} (h : s.HasIssuer) (w v : Word)
include h

theorem laneTable1_answers : ∀ e ∈ laneTable1, Answers (exec (e.2 w v) s) := by
  simp only [laneTable1, List.forall_mem_cons, List.not_mem_nil, false_imp_iff, implies_true, and_self, exec_vadd, exec_vsub,
    exec_vadds, exec_vsubs, exec_vaddsn, exec_vsubsn, exec_vmul, exec_vmulh, exec_vmulhn, exec_vmad, exec_vdiv, exec_vdivn,
    exec_vrem, exec_vremn, exec_vmin, exec_vmax, exec_vminn, exec_vmaxn, exec_vand, exec_vor, exec_vxor, exec_vandn, exec_vshl,
    exec_vshr, exec_vsar, exec_vrot, exec_vabs, exec_vneg, exec_vclz, exec_vpop, exec_vbrev, exec_vsel, execVadd, execVsub,
    execVadds, execVsubs, execVaddsn, execVsubsn, execVmul, execVmulh, execVmulhn, execVmad, execVdiv, execVdivn, execVrem,
    execVremn, execVmin, execVmax, execVminn, execVmaxn, execVand, execVor, execVxor, execVandn, execVshl, execVshr, execVsar,
    execVrot, execVabs, execVneg, execVclz, execVpop, execVbrev, execVsel, lane2, issueParty, lane3, laneProd2, laneProducer,
    lane1, issue_answers h]

theorem laneTable2_answers : ∀ e ∈ laneTable2, Answers (exec (e.2 w v) s) := by
  simp only [laneTable2, List.forall_mem_cons, List.not_mem_nil, false_imp_iff, implies_true, and_self, exec_vbfxn, exec_vbfxs,
    exec_vbfi, exec_vmov, exec_vmrank, exec_vadd64, exec_vsub64, exec_vmul64, exec_vmulw, exec_vmulwn, exec_vshl64,
    exec_vshr64, exec_vsar64, exec_vaddi, exec_vandi, exec_vori, exec_vxori, exec_vshli, exec_vshri, exec_vsari, exec_vmuli,
    exec_vroti, exec_vmovi, exec_vcmp, exec_vcmpi, exec_vcmp64, exec_fcmpF64, exec_fcmpF32, exec_fcmpF16, exec_fcmpB16,
    exec_fclass, exec_vshfl, execVbfxn, execVbfxs, execVbfi, execVmov, execVmrank, execVadd64, execVsub64, execVmul64,
    execVmulw, execVmulwn, execVshl64, execVshr64, execVsar64, execVaddi, execVandi, execVori, execVxori, execVshli, execVshri,
    execVsari, execVmuli, execVroti, execVmovi, execVcmp, execVcmpi, execVcmp64, execFcmpF64, execFcmpF32, execFcmpF16,
    execFcmpB16, execFclass, execVshfl, lane2, issueParty, lane3, lane1, cross1, pair2, widen2, pairShift, laneI, compare2,
    comparePair, cross2, issue_answers h]

theorem laneTable3_answers : ∀ e ∈ laneTable3, Answers (exec (e.2 w v) s) := by
  simp only [laneTable3, List.forall_mem_cons, List.not_mem_nil, false_imp_iff, implies_true, and_self, exec_vxch, exec_vrotl,
    exec_vbcast, exec_vscan, exec_vscanx, exec_vredadd, exec_vredmin, exec_vredmax, exec_vredminn, exec_vredmaxn, exec_vredand,
    exec_vredor, exec_vredxor, exec_fredadd, exec_faddF64, exec_faddF32, exec_faddF16, exec_faddB16, exec_fsubF64,
    exec_fsubF32, exec_fsubF16, exec_fsubB16, exec_fmulF64, exec_fmulF32, exec_fmulF16, exec_fmulB16, exec_ffmaF64,
    exec_ffmaF32, exec_ffmaF16, exec_ffmaB16, exec_fnmaF64, exec_fnmaF32, execVxch, execVrotl, execVbcast, execVscan,
    execVscanx, execVredadd, execVredmin, execVredmax, execVredminn, execVredmaxn, execVredand, execVredor, execVredxor,
    execFredadd, execFaddF64, execFaddF32, execFaddF16, execFaddB16, execFsubF64, execFsubF32, execFsubF16, execFsubB16,
    execFmulF64, execFmulF32, execFmulF16, execFmulB16, execFfmaF64, execFfmaF32, execFfmaF16, execFfmaB16, execFnmaF64,
    execFnmaF32, cross1, issueParty, cross2, pair2, lane2, pair3, lane3, issue_answers h]

theorem laneTable4_answers : ∀ e ∈ laneTable4, Answers (exec (e.2 w v) s) := by
  simp only [laneTable4, List.forall_mem_cons, List.not_mem_nil, false_imp_iff, implies_true, and_self, exec_fnmaF16,
    exec_fnmaB16, exec_fminF64, exec_fminF32, exec_fminF16, exec_fminB16, exec_fmaxF64, exec_fmaxF32, exec_fmaxF16,
    exec_fmaxB16, exec_fdivF64, exec_fdivF32, exec_fdivF16, exec_fdivB16, exec_fsqrtF64, exec_fsqrtF32, exec_fsqrtF16,
    exec_fsqrtB16, exec_frcp, exec_frsq, exec_fexp2, exec_flog2, exec_fsin, exec_fcos, exec_fsincos, exec_ftanh, exec_hadd2,
    exec_hmul2, exec_hfma2, exec_badd2, exec_bmul2, exec_bfma2, execFnmaF16, execFnmaB16, execFminF64, execFminF32,
    execFminF16, execFminB16, execFmaxF64, execFmaxF32, execFmaxF16, execFmaxB16, execFdivF64, execFdivF32, execFdivF16,
    execFdivB16, execFsqrtF64, execFsqrtF32, execFsqrtF16, execFsqrtB16, execFrcp, execFrsq, execFexp2, execFlog2, execFsin,
    execFcos, execFsincos, execFtanh, execHadd2, execHmul2, execHfma2, execBadd2, execBmul2, execBfma2, lane3, issueParty,
    pair2, lane2, pairProducer, laneProd2, laneProducer, laneProd1, issue_answers h]

theorem laneTable5_answers : ∀ e ∈ laneTable5, Answers (exec (e.2 w v) s) := by
  simp only [laneTable5, List.forall_mem_cons, List.not_mem_nil, false_imp_iff, implies_true, and_self, exec_b2pack,
    exec_h2pack, exec_fcvt, exec_ncvt, exec_nexp, exec_ldb, exec_ldbs, exec_ldh, exec_ldhs, exec_ldw, exec_ldd, exec_ldq,
    exec_stb, exec_sth, exec_stw, exec_std, exec_stq, exec_tagst, exec_tagld, exec_cpw, exec_cpd, exec_cpq, exec_cpws,
    exec_cpds, exec_cpqs, exec_tbegin, exec_tcommit, exec_tcancel, exec_atom, exec_ldo, exec_sto, exec_cprow, execB2pack,
    execH2pack, execFcvt, execNcvt, execNexp, execLdb, execLdbs, execLdh, execLdhs, execLdw, execLdd, execLdq, execStb,
    execSth, execStw, execStd, execStq, execTagst, execTagld, execCpw, execCpd, execCpq, execCpws, execCpds, execCpqs,
    execTbegin, execTcommit, execTcancel, execAtom, execLdo, execSto, execCprow, lane2, issueParty, issueParty?, laneLoad,
    laneStore, laneCopy, issue_answers h]

theorem laneTable6_answers : ∀ e ∈ laneTable6, Answers (exec (e.2 w v) s) := by
  simp only [laneTable6, List.forall_mem_cons, List.not_mem_nil, false_imp_iff, implies_true, and_self, exec_xput, exec_xget,
    exec_xred, exec_xamo, exec_xsig, exec_emit, execXput, execXget, execXred, execXamo, execXsig, execEmit, groupInstr,
    issue_answers h]

theorem uniformTable1_answers : ∀ e ∈ uniformTable1, Answers (exec (e.2 w v) s) := by
  simp only [uniformTable1, List.forall_mem_cons, List.not_mem_nil, false_imp_iff, implies_true, and_self, exec_sadd,
    exec_ssub, exec_smul, exec_smulh, exec_smulhn, exec_sdiv, exec_sdivn, exec_srem, exec_sremn, exec_sand, exec_sor,
    exec_sxor, exec_sandn, exec_sshl, exec_sshr, exec_ssar, exec_smin, exec_smax, exec_sminn, exec_smaxn, exec_sclz, exec_spop,
    exec_sbfx, exec_sbfi, exec_scmp, exec_ssel, exec_smov, exec_srot, exec_saddi, exec_sandi, exec_sori, exec_sxori, execSadd,
    execSsub, execSmul, execSmulh, execSmulhn, execSdiv, execSdivn, execSrem, execSremn, execSand, execSor, execSxor,
    execSandn, execSshl, execSshr, execSsar, execSmin, execSmax, execSminn, execSmaxn, execSclz, execSpop, execSbfx, execSbfi,
    execScmp, execSsel, execSmov, execSrot, execSaddi, execSandi, execSori, execSxori, uni2, issueParty, uniProd2, uni1, uniI,
    issue_answers h]

theorem uniformTable2_answers : ∀ e ∈ uniformTable2, Answers (exec (e.2 w v) s) := by
  simp only [uniformTable2, List.forall_mem_cons, List.not_mem_nil, false_imp_iff, implies_true, and_self, exec_sshli,
    exec_sshri, exec_ssari, exec_scmpi, exec_smuli, exec_scset, exec_slimz, exec_slimk, exec_sldw, exec_sldd, exec_sstw,
    exec_sstd, exec_mand, exec_mor, exec_mxor, exec_mandn, exec_mnot, exec_mpop, exec_mffs, exec_mtest, exec_br, exec_jmp,
    exec_call, exec_jmpr, exec_callr, exec_ret, exec_split, exec_join, exec_bar, exec_waitp, exec_pclose, exec_anset,
    execSshli, execSshri, execSsari, execScmpi, execSmuli, execScset, execSlimz, execSlimk, execSldw, execSldd, execSstw,
    execSstd, execMand, execMor, execMxor, execMandn, execMnot, execMpop, execMffs, execMtest, execBr, execJmp, execCall,
    execJmpr, execCallr, execRet, execSplit, execJoin, execBar, execWaitp, execPclose, execAnset, uniI, issueParty, uniLoad,
    uniStore, mask2, mask1, jumpReg, anchorInstr, issue_answers h, slim_answers h]

theorem uniformTable3_answers : ∀ e ∈ uniformTable3, Answers (exec (e.2 w v) s) := by
  simp only [uniformTable3, List.forall_mem_cons, List.not_mem_nil, false_imp_iff, implies_true, and_self, exec_anwait,
    exec_anarr, exec_aninit, exec_anexp, exec_fence, exec_sleep, exec_yield, exec_nop, exec_waitf, exec_fetch, exec_fetchb,
    exec_wdone, exec_sysrd, exec_syswr, exec_trap, exec_eret, exec_brk, exec_clkrd, exec_endStrand, exec_kadd, exec_kaddi,
    exec_klim, exec_kloop, exec_kbar, exec_tzero, exec_mfence, exec_mend, exec_cpbox, exec_txa, exec_xflow, exec_mstart,
    exec_xabort, execAnwait, execAnarr, execAninit, execAnexp, execFence, execSleep, execYield, execNop, execWaitf, execFetch,
    execFetchb, execWdone, execSysrd, execSyswr, execTrap, execEret, execBrk, execClkrd, execEndStrand, execKadd, execKaddi,
    execKlim, execKloop, execKbar, execTzero, execMfence, execMend, execTxa, execXflow, execMstart, execXabort, anchorInstr,
    issueParty, raise, seqOnly, issue_answers h, streamIssue_answers h, execCpbox_answers h]

theorem uniformTable4_answers : ∀ e ∈ uniformTable4, Answers (exec (e.2 w v) s) := by
  simp only [uniformTable4, List.forall_mem_cons, List.not_mem_nil, false_imp_iff, implies_true, and_self, exec_tagfill,
    exec_tcfg, exec_wload, exec_mma, exec_mmar, exec_drain, exec_tload, execTagfill, execTcfg, execWload, execMma, execMmar,
    execDrain, execTload, matrixMultiply, issue_answers h, streamIssue_answers h]

theorem laneTable_answers : ∀ e ∈ laneTable, Answers (exec (e.2 w v) s) := by
  simp only [laneTable, List.forall_mem_append]
  exact ⟨⟨⟨⟨⟨laneTable1_answers h w v, laneTable2_answers h w v⟩, laneTable3_answers h w v⟩, laneTable4_answers h w v⟩,
    laneTable5_answers h w v⟩, laneTable6_answers h w v⟩

theorem uniformTable_answers : ∀ e ∈ uniformTable, Answers (exec (e.2 w v) s) := by
  simp only [uniformTable, List.forall_mem_append]
  exact ⟨⟨⟨uniformTable1_answers h w v, uniformTable2_answers h w v⟩, uniformTable3_answers h w v⟩,
    uniformTable4_answers h w v⟩

end

-- the events of the agenda

theorem serveMail_answers (h : HostId) (owner : Bool) (ready : Nat → State → Bool) (again : Instr) (f : Nat → State → State)
    (s : State) : Answers (serveMail h owner ready again f s) := by
  unfold serveMail
  (repeat' split) <;> exact answers_next _

theorem execPartySave_answers (o : CoreRef) (s : State) : Answers (execPartySave o s) := by
  -- the look at the save area's pages has no part in this: named, so that no check of the proof computes it
  obtain ⟨fault, hf⟩ : ∃ f, f = State.slotFault := ⟨_, rfl⟩
  rw [execPartySave, ← hf]
  (repeat' split) <;> exact answers_next _

/-- Every event of the agenda answers a next state, wherever the machine stands: each branch of its meaning ends in one. -/
theorem exec_answers_of_agendaEvent (i : Instr) (h : Claims.agendaEvent i = true) (s : State) : Answers (exec i s) := by
  cases i
  case claim | handover | releaseOwner | loadFw | stageFw | switchFw | attest | retrain =>
    simp only [exec_claim, exec_handover, exec_releaseOwner, exec_loadFw, exec_stageFw, exec_switchFw, exec_attest,
      exec_retrain, execClaim, execHandover, execReleaseOwner, execLoadFw, execStageFw, execSwitchFw, execAttest, execRetrain,
      serveMail_answers]
  case matrixOpComplete | coreBackedAccess | anchorCountEvent | powerCapCheck | nopCommand | launch | preempt | resume | semsig
    | semwait | ibuf | mapupdate | hostcopy | timestamp | debugCmd | qtailWrite | qbaseWrite | qctlEn | cqheadWrite | fqheadWrite
    | cohparamWrite | holdWrite => exact answers_next _
  -- strands and parties
  case sleepExpiry | producerWriteback | trapDelivery | partyHalt | debugHalt | partyEnd | thermalHoldEnter
    | thermalHoldEnd | droopEvent =>
    simp only [exec_sleepExpiry, exec_producerWriteback, exec_trapDelivery, exec_partyHalt, exec_debugHalt, exec_partyEnd,
      exec_thermalHoldEnter, exec_thermalHoldEnd, exec_droopEvent, execSleepExpiry, execProducerWriteback,
      execTrapDelivery, execPartyHalt, execDebugHalt, execPartyEnd, execThermalHoldEnter, execThermalHoldEnd,
      execDroopEvent]
    (repeat' split) <;> exact answers_next _
  case partySave => exact execPartySave_answers _ _
  -- memory
  case pageWalk | faultService | faultTimeout | readRequest | readResponse | storeDrain | homeStore | storeAcknowledgement
    | atomicRequest | atomicResponse | transactionCommitStep | poisonDetect | driftTick | rebase | rebaseSweep =>
    simp only [exec_pageWalk, exec_faultService, exec_faultTimeout, exec_readRequest, exec_readResponse, exec_storeDrain,
      exec_homeStore, exec_storeAcknowledgement, exec_atomicRequest, exec_atomicResponse, exec_transactionCommitStep,
      exec_poisonDetect, exec_driftTick, exec_rebase, exec_rebaseSweep, execPageWalk, execFaultService, execFaultTimeout,
      execReadRequest, execReadResponse, execStoreDrain, execHomeStore, execStoreAcknowledgement, execAtomicRequest,
      execAtomicResponse, execTransactionCommitStep, execPoisonDetect, execDriftTick, execRebase, execRebaseSweep]
    (repeat' split) <;> exact answers_next _
  -- engine commands, bins, packets
  case addDrainLine | segmentLand | segmentFail | copyCompletion | binTimerExpiry | hashedSteal | packetAccept | collectivePacket
    | packetApply | packetOutcome | outcomeQueryTimer =>
    simp only [exec_addDrainLine, exec_segmentLand, exec_segmentFail, exec_copyCompletion, exec_binTimerExpiry, exec_hashedSteal,
      exec_packetAccept, exec_collectivePacket, exec_packetApply, exec_packetOutcome, exec_outcomeQueryTimer, execAddDrainLine,
      execSegmentLand, execSegmentFail, execCopyCompletion, execBinTimerExpiry, execHashedSteal, execPacketAccept,
      execCollectivePacket, execPacketApply, execPacketOutcome, execOutcomeQueryTimer]
    (repeat' split) <;> exact answers_next _
  -- links and Base Camp
  case flitStart | flitReceive | ackTimeout | moduleCheckEnd | heartbeat | dieAdoption | roleTakeover | commandCompletion | qctlSkip
    | registerWrite | claimWindowExpiry | ownerLinkTimeout | hostLinkChange | hostMemoryAccess | sensorRefresh
    | packageColdReset =>
    simp only [exec_flitStart, exec_flitReceive, exec_ackTimeout, exec_moduleCheckEnd, exec_heartbeat, exec_dieAdoption,
      exec_roleTakeover, exec_commandCompletion, exec_qctlSkip, exec_registerWrite, exec_claimWindowExpiry,
      exec_ownerLinkTimeout, exec_hostLinkChange, exec_hostMemoryAccess, exec_sensorRefresh, exec_packageColdReset,
      execFlitStart, execFlitReceive, execAckTimeout, execModuleCheckEnd, execHeartbeat, execDieAdoption, execRoleTakeover,
      execCommandCompletion, execQctlSkip, execRegisterWrite, execClaimWindowExpiry, execOwnerLinkTimeout, execHostLinkChange,
      execHostMemoryAccess, execSensorRefresh, execPackageColdReset]
    (repeat' split) <;> exact answers_next _
  all_goals exact absurd h Bool.false_ne_true

-- what a fetch gives (R71, R93, R96)

/-- The instruction answers a next state wherever somebody issues it. -/
def Runs (i : Instr) : Prop := ∀ s : State, s.HasIssuer → Answers (exec i s)

theorem runs_illegalOpcode (o : Words) : Runs (.illegalOpcode o) := fun s h => by
  rw [exec_illegalOpcode]
  exact refusedWord_answers h ..

theorem runs_reservedField (o : Words) : Runs (.reservedField o) := fun s h => by
  rw [exec_reservedField]
  exact refusedWord_answers h ..

theorem runs_instructionFetchFault (o : FetchFault) : Runs (.instructionFetchFault o) := fun s h => by
  rw [exec_instructionFetchFault]
  exact refusedWord_answers h ..

theorem decodeWords_runs {w v : Word} {i : Instr} (h : decodeWords w v = .instr i) : Runs i := by
  have table : ∀ e ∈ (if halfBit w then uniformTable else laneTable), Runs (e.2 w v) := by
    intro e he s hs
    split at he
    · exact uniformTable_answers hs w v e he
    · exact laneTable_answers hs w v e he
  unfold decodeWords at h
  split at h
  case h_1 => cases h
  case h_2 f hf =>
    obtain ⟨l₁, l₂, hl, -⟩ := List.lookup_eq_some_iff.mp hf
    have hr := table (opcodeOf w, f) (hl ▸ List.mem_append_cons_self)
    split at h <;> cases h
    exact hr

theorem decodedInstr_runs (w v : Word) : Runs (decodedInstr w v) := by
  unfold decodedInstr
  split
  case h_1 i hi => exact decodeWords_runs hi
  case h_2 => exact runs_illegalOpcode _
  case h_3 => exact runs_reservedField _

theorem State.instrAt_runs {s : State} {core root : Nat} {priv : Bool} {pc : Pc} {i : Instr}
    (h : s.instrAt core root priv pc = some i) : Runs i := by
  unfold State.instrAt at h
  split at h
  · cases h
    exact runs_instructionFetchFault _
  split at h
  case h_1 => cases h
  case h_2 =>
    cases h
    exact runs_instructionFetchFault _
  case h_3 w _ =>
    split at h
    · cases h
      exact decodedInstr_runs w 0
    split at h
    case h_1 => cases h
    case h_2 =>
      cases h
      exact runs_instructionFetchFault _
    case h_3 v _ =>
      cases h
      exact decodedInstr_runs w v

theorem State.candidate_runs {s : State} {p : Party} {ph : Phase} {w : SlotRef} {i : Instr}
    (h : s.candidate p ph w = some i) : Runs i := by
  simp only [State.candidate, Option.ite_none_right_eq_some] at h
  obtain ⟨-, h⟩ := h
  split at h
  case h_1 j hj =>
    obtain ⟨-, h⟩ := Option.ite_none_right_eq_some.mp h
    cases h
    exact State.instrAt_runs hj
  case h_2 => cases h

-- one issue

theorem State.modParty_hasIssuer {s : State} {w : SlotRef} {p : Party} (hf : s.focus = .slot w) (hp : s.party? w.core = some p)
    (f : Party → Party) : (s.modParty w.core f).HasIssuer := by
  rw [State.modParty_eq hp]
  exact .slot w (f p) hf (State.setParty_party?_self ..)

theorem State.execAt_answers {s : State} {w : SlotRef} {p : Party} {i : Instr} (hp : s.party? w.core = some p) (hi : Runs i)
    (ph : Phase) : Answers (s.execAt w i ph) := by
  unfold State.execAt
  dsimp only
  split
  case h_1 => exact hi _ (.slot w p rfl hp)
  case h_2 r _ =>
    obtain ⟨t, ht⟩ := hi _ (State.modParty_hasIssuer (s := { s with focus := .slot w, issued := false }) rfl hp
      (·.modStrand w.strand (·.withRegs r)))
    rw [ht]
    exact answers_next _

theorem State.tryIssue_answers {s : State} {w : SlotRef} {p : Party} {i : Instr} {ph : Phase} {r : Out}
    (hp : s.party? w.core = some p) (hi : Runs i) (h : s.tryIssue w i ph = some r) : Answers r := by
  obtain ⟨t, ht⟩ := State.execAt_answers hp hi ph
  rw [State.tryIssue, ht] at h
  dsimp only at h
  split at h <;> cases h
  exact answers_next _

theorem State.trySequencer_answers {s : State} {core : Nat} {p : Party} {i : Instr} {r : Out}
    (hp : s.party? core = some p) (hi : Runs i) (h : s.trySequencer core i = some r) : Answers r := by
  obtain ⟨t, ht⟩ := hi { s with focus := .sequencer core, issued := false } (.sequencer core p rfl hp)
  rw [State.trySequencer, ht] at h
  dsimp only at h
  split at h <;> cases h
  exact answers_next _

-- the selectors of a cycle (R125, R128, R129)

theorem slotRefs_core {core : Nat} {w : SlotRef} (h : w ∈ slotRefs core) : w.core = core := by
  simp only [slotRefs, List.mem_flatMap, List.mem_cons, List.not_mem_nil, or_false] at h
  obtain ⟨_, -, rfl | rfl⟩ := h <;> rfl

/-- What a place picks, if it picks anything, answers. -/
def PickAnswers (pick : Option (SlotRef × Out)) : Prop := ∀ x ∈ pick, Answers x.2

theorem pickAnswers_none : PickAnswers none := by simp [PickAnswers]

theorem pickAnswers_some {w : SlotRef} {r : Out} (h : Answers r) : PickAnswers (some (w, r)) := by
  rintro x ⟨⟩
  exact h

theorem State.pick_answers {s : State} {q : Party} {core : Nat} (hq : s.party? core = some q) (p : Party) (ph : Phase)
    (only : SlotRef → Bool) : PickAnswers (s.pick p core ph only) := by
  unfold State.pick
  refine List.foldlRecOn (motive := PickAnswers) _ _ pickAnswers_none ?_
  intro best hb w hw
  have hwq : s.party? w.core = some q := slotRefs_core hw ▸ hq
  refine iteInduction (motive := PickAnswers) (fun _ => hb) fun _ =>
    iteInduction (motive := PickAnswers) (fun _ => ?_) fun _ => hb
  split
  case h_1 => exact hb
  case h_2 hi =>
    split
    case h_1 => exact hb
    case h_2 hr => exact pickAnswers_some (State.tryIssue_answers hwq (State.candidate_runs hi) hr)

theorem State.modParty_party?_some {s : State} {d : Nat} {q : Party} (hq : s.party? d = some q) (c : Nat) (f : Party → Party) :
    ∃ t, (s.modParty c f).party? d = some t := by
  unfold State.modParty
  split
  case h_1 p hp =>
    by_cases hd : d = c
    · exact ⟨f p, hd ▸ State.setParty_party?_self ..⟩
    · exact ⟨q, (State.setParty_party?_ne s _ hd).trans hq⟩
  case h_2 => exact ⟨q, hq⟩

theorem State.placePick_answers {s : State} {q : Party} {core : Nat} (hq : s.party? core = some q) (p : Party) (ph : Phase)
    (only : SlotRef → Bool) : PickAnswers (s.placePick p core ph only) := by
  unfold State.placePick
  split
  · exact pickAnswers_none
  split
  case h_1 => exact pickAnswers_none
  case h_2 w r hr =>
    have first : PickAnswers (some (w, r)) := hr ▸ State.pick_answers hq p ph only
    split
    · split
      case h_1 => exact first
      case h_2 x hx =>
        obtain ⟨t, ht⟩ := State.modParty_party?_some hq w.core (·.modSlot w fun l => { l with accAt := some s.now })
        exact hx ▸ State.pick_answers ht p ph _
    · exact first

theorem State.picks_answers {s : State} {q : Party} {core : Nat} (hq : s.party? core = some q) (p : Party) (done : Nat) :
    ∀ x ∈ s.picks p core done, Answers x.out := by
  unfold State.picks
  refine List.foldlRecOn (motive := fun acc : List Pick => ∀ x ∈ acc, Answers x.out) _ _ (by simp) ?_
  intro acc ha k _
  split
  · exact ha
  split
  case h_1 => exact ha
  case h_2 w r hr =>
    intro x hx
    obtain hx | hx := List.mem_append.mp hx
    · exact ha x hx
    · obtain rfl := List.mem_singleton.mp hx
      exact State.placePick_answers hq p _ _ _ hr

theorem firstPick_mem {xs : List Pick} {x : Pick} (h : firstPick xs = some x) : x ∈ xs := by
  have key : ∀ y ∈ firstPick xs, y ∈ xs := by
    refine List.foldlRecOn (motive := fun best : Option Pick => ∀ y ∈ best, y ∈ xs) _ _ (by simp) ?_
    intro best hb x hx
    split
    · exact hb
    · rintro y ⟨⟩
      exact hx
  exact key x h

theorem firstPick_filter_mem {xs : List Pick} {f : Pick → Bool} {x : Pick} (h : firstPick (xs.filter f) = some x) : x ∈ xs :=
  (List.mem_filter.mp (firstPick_mem h)).1

theorem State.haltWith_answers {s : State} {p : Party} {x : Pick} (h : Answers x.out) (xs : List Pick) :
    Answers (s.haltWith p x xs) := by
  obtain ⟨t, ht⟩ := h
  rw [State.haltWith, ht]
  exact answers_next _

theorem State.coreIssue_answers {s : State} {core done : Nat} : ∀ x ∈ s.coreIssue core done, Answers x.1 := by
  unfold State.coreIssue
  split
  case h_1 => simp
  case h_2 p hp =>
    have all := State.picks_answers hp p done
    dsimp only
    split
    case h_1 x hx =>
      rintro y ⟨⟩
      exact all x (firstPick_filter_mem hx)
    split
    case h_1 x hx =>
      rintro y ⟨⟩
      obtain ⟨hbad, -⟩ := List.mem_filter.mp (firstPick_filter_mem hx)
      exact State.haltWith_answers (all x (List.mem_filter.mp hbad).1) _
    split
    case h_1 x hx =>
      rintro y ⟨⟩
      obtain ⟨hbad, -⟩ := List.mem_filter.mp (firstPick_mem hx)
      exact all x (List.mem_filter.mp hbad).1
    split
    · intro y hy
      simp only [Option.mem_def, Option.map_eq_some_iff, Option.bind_eq_some_iff] at hy
      obtain ⟨r, ⟨i, hi, hr⟩, rfl⟩ := hy
      exact State.trySequencer_answers hp (State.instrAt_runs hi) hr
    · simp

theorem State.nextIssue_answers {s : State} : ∀ (cores : List Nat) (turn done : Nat),
    ∀ x ∈ s.nextIssue cores turn done, Answers x.1
  | [], _, _ => by simp [State.nextIssue]
  | core :: rest, turn, done => by
    unfold State.nextIssue
    split
    case h_1 r d hr =>
      rintro x ⟨⟩
      exact State.coreIssue_answers _ hr
    case h_2 => exact State.nextIssue_answers rest (turn + 1) 0

-- events

theorem takeAt_mem {i : Instr} : ∀ {l rest : List Instr} {n : Nat}, takeAt l n = some (i, rest) → i ∈ l
  | j :: t, _, 0, h => by
    cases h
    exact List.mem_cons_self
  | j :: t, _, n + 1, h => by
    simp only [takeAt, Option.map_eq_some_iff] at h
    obtain ⟨⟨i', r⟩, hx, hi⟩ := h
    cases hi
    exact List.mem_cons_of_mem _ (takeAt_mem hx)

/-- A line that leaves L2 rides on a request, which stays an event. -/
theorem State.withEviction_agendaEvent {s : State} {i : Instr} (h : Claims.agendaEvent i = true) :
    Claims.agendaEvent (s.withEviction i).1 = true := by
  unfold State.withEviction
  (repeat' split) <;> exact h

theorem State.choice_agenda (s : State) : s.choice.2.agenda = s.agenda := by
  unfold State.choice
  split <;> rfl

theorem State.runEvent_answers {s : State} (h : ∀ i ∈ s.agenda, Claims.agendaEvent i = true) : Answers s.runEvent := by
  unfold State.runEvent
  dsimp only
  generalize (if _ = s.pend then (_ : Nat) else _) = k
  split
  · exact answers_next _
  split
  case h_1 => exact answers_next _
  case h_2 i rest hi =>
    rw [State.choice_agenda] at hi
    exact exec_answers_of_agendaEvent _ (State.withEviction_agendaEvent (h i (takeAt_mem hi))) _

theorem State.advance_answers {s : State} (h : ∀ i ∈ s.agenda, Claims.agendaEvent i = true) : Answers s.advance := by
  unfold State.advance
  split
  · exact State.runEvent_answers h
  · split
    case h_1 => exact answers_next _
    case h_2 => exact answers_next _
    case h_3 r _ _ _ hr => exact State.nextIssue_answers _ _ _ _ hr

/-- Settles O58: a step is an event of the agenda, an issue, or the end of a cycle; the first two answer a next state by
`State.runEvent_answers` and `State.nextIssue_answers`. -/
theorem noStepStops : Obligations.NoStepStops := by
  unfold Obligations.NoStepStops
  intro s h
  exact State.advance_answers h

end Sys2Proof.Machine
end

section
/-!
SUPPORT. Writes of system registers: a write does to its party what the register maps say, register by register; SYSWR, once its
checks pass, and the steps of the opcode table answer what that write answers.
-/

namespace Sys2Proof.Machine

/-- R172: the registers that a write changes; the other assigned registers accept a write and keep their value. -/
def SysStores (n : Nat) : Prop :=
  n = 0x001 ∨ n = 0x002 ∨ n = 0x008 ∨ n = 0x009 ∨ (0x010 ≤ n ∧ n ≤ 0x012) ∨ n = 0x018 ∨ (0x020 ≤ n ∧ n ≤ 0x02B) ∨ n = 0x02D
    ∨ (0x030 ≤ n ∧ n ≤ 0x03B) ∨ (0x040 ≤ n ∧ n ≤ 0x04F) ∨ (0x067 ≤ n ∧ n ≤ 0x07F)

-- what a write does

/-- Where `put` gives a party, the write answers the state in which the core holds it. -/
def Puts (s : State) (c : Nat) (put : Option Party) (r : SysOut) : Prop := ∀ q, put = some q → r = .ok (s.setParty c q)

theorem puts_some {s t : State} {c : Nat} {q : Party} (h : t = s.setParty c q) : Puts s c (some q) (.ok t) := by
  rintro _ ⟨⟩
  rw [h]

theorem puts_ite {s : State} {c : Nat} {P : Prop} [Decidable P] {a b : Option Party} {x y : SysOut} (ht : P → Puts s c a x)
    (he : ¬P → Puts s c b y) : Puts s c (if P then a else b) (if P then x else y) := by
  split
  · exact ht ‹_›
  · exact he ‹_›

/-- A write that its value or the state forbids puts nothing. -/
theorem puts_ite_none {s : State} {c : Nat} {P : Prop} [Decidable P] {a : Option Party} {x : SysOut} (ht : P → Puts s c a x) :
    Puts s c (if P then a else none) x := by
  split
  · exact ht ‹_›
  · exact fun _ h => nomatch h

/-- The order in which the watchpoint registers are told apart is of no consequence. -/
theorem watch_ite {α : Type} (n : Nat) (base len ctl other : α) :
    (if 0x030 ≤ n ∧ n ≤ 0x03B then
      if (n - 0x030) % 3 = 0 then base else if (n - 0x030) % 3 = 1 then len else ctl
    else other) =
    if n = 0x030 ∨ n = 0x033 ∨ n = 0x036 ∨ n = 0x039 then base
    else if n = 0x031 ∨ n = 0x034 ∨ n = 0x037 ∨ n = 0x03A then len
    else if n = 0x032 ∨ n = 0x035 ∨ n = 0x038 ∨ n = 0x03B then ctl
    else other := by
  by_cases hn : 0x030 ≤ n ∧ n ≤ 0x03B
  · rw [if_pos hn]
    by_cases hbase : (n - 0x030) % 3 = 0
    · rw [if_pos hbase, if_pos (by omega)]
    by_cases hlen : (n - 0x030) % 3 = 1
    · rw [if_neg hbase, if_pos hlen, if_neg (by omega), if_pos (by omega)]
    · rw [if_neg hbase, if_neg hlen, if_neg (by omega), if_neg (by omega), if_pos (by omega)]
  · rw [if_neg hn, if_neg (by omega), if_neg (by omega), if_neg (by omega)]

/-- R141: a count of at most 16 is taken by a barrier at which no arrival is registered. -/
theorem Party.writeBar_eq_ok {p : Party} {n : Nat} {v : Dword} (hcount : (v.extractLsb' 0 5).toNat ≤ 16)
    (hpend : (p.bar n).pend = (p.bar n).expect) :
    p.writeBar n v = .ok (p.setBar n { p.bar n with
      count := (v.extractLsb' 0 5).toNat
      seq := v.getLsbD 8
      pend := (v.extractLsb' 0 5).toNat + if v.getLsbD 8 then 1 else 0 }) := by
  unfold Party.writeBar
  dsimp only
  rw [if_neg (not_or.mpr ⟨by omega, fun h => h hpend⟩)]
  rfl

theorem Flags.ofBits_extractLsb' (v : Dword) :
    Flags.ofBits (v.extractLsb' 0 5) = ⟨v.getLsbD 4, v.getLsbD 3, v.getLsbD 2, v.getLsbD 1, v.getLsbD 0⟩ := by
  simp [Flags.ofBits]

section
variable {s : State} {w : SlotRef} {p : Party} (hp : s.party? w.core = some p)
include hp

/-- Two updates that agree on the strand as it stands put the same. -/
theorem puts_modStrand {f g : Strand → Strand} (h : g (p.strand w.strand) = f (p.strand w.strand)) :
    Puts s w.core (some (p.modStrand w.strand f)) (.ok (s.modStrand w g)) := by
  refine puts_some ?_
  rw [State.modStrand, State.modParty_eq hp, Party.modStrand, h, Party.modStrand]

/-- R261: a length outside 2 to 55 is refused. -/
theorem puts_watchLen (k : Nat) (v : Dword) :
    Puts s w.core
      (if 2 ≤ (v.extractLsb' 0 6).toNat ∧ (v.extractLsb' 0 6).toNat ≤ 55 then
        some (p.modStrand w.strand fun st => st.setWatch k { st.watch k with log2 := v.extractLsb' 0 6 })
      else none)
      (if (v.extractLsb' 0 6).toNat < 2 ∨ 55 < (v.extractLsb' 0 6).toNat then .bad .illegalOperand 0
      else .ok (s.modStrand w fun st => st.setWatch k { st.watch k with log2 := v.extractLsb' 0 6 })) := by
  refine puts_ite_none fun h => ?_
  rw [if_neg (by omega)]
  exact puts_modStrand hp rfl

/-- R261, R263: a watchpoint that is off, or whose scope lies within a cluster, takes no comparator. -/
theorem puts_writeWatch (k : Nat) (v : Dword) (e : ScopeEntry) (at_ : Nat) :
    Puts s w.core
      (if v.getLsbD 0 = false ∨ e.cover.toNat < 2 then
        some (p.replaceWatch w.strand k { (p.strand w.strand).watch k with
          lmask := v.extractLsb' 32 32
          scope := v.extractLsb' 6 5
          act := v.getLsbD 3
          kind := v.extractLsb' 1 2
          en := v.getLsbD 0
          comps := none
          seen := e
          since := at_ } at_)
      else none)
      (s.writeWatch w k v e at_) := by
  refine puts_ite_none fun h => ?_
  unfold State.writeWatch
  rw [hp]
  dsimp only
  rw [if_pos (by simpa using h)]
  exact puts_some (State.modParty_eq hp _)

theorem puts_writeScope {x : Ctx} (hx : x.w = w) (n : Nat) (v : Dword) :
    Puts s w.core (if v.extractLsb' 8 48 = 0 then some (p.setScope n (launchScope n)) else none) (s.writeScope x n v) := by
  refine puts_ite_none fun h => ?_
  unfold State.writeScope
  rw [hx, hp]
  dsimp only
  rw [if_pos h]
  exact puts_some rfl

/-- A WRITE DOES WHAT THE REGISTER MAPS SAY, register by register. One that the register ignores leaves the state as it is. -/
theorem puts_sysWrite (x : Ctx) (hx : x.w = w) (n : Nat) (v : Dword) (hs : ¬SysStores n → s.setParty w.core p = s) :
    Puts s w.core (Claims.sysPut w n v s.nextId p) (s.sysWrite x n v) := by
  unfold Claims.sysPut State.sysWrite
  dsimp only
  rw [hx, watch_ite, hp]
  refine puts_ite (fun _ => puts_modStrand hp rfl) fun h001 => ?_
  refine puts_ite (fun _ => puts_modStrand hp rfl) fun h002 => ?_
  refine puts_ite (fun _ => puts_some (State.modParty_eq hp _)) fun h008 => ?_
  refine puts_ite (fun _ => puts_modStrand hp rfl) fun h009 => ?_
  refine puts_ite (fun _ => puts_modStrand hp (by rw [BitVec.setWidth_eq_extractLsb' (by decide)])) fun h010 => ?_
  refine puts_ite (fun _ => puts_modStrand hp rfl) fun h011 => ?_
  refine puts_ite (fun _ => puts_modStrand hp (by rw [Flags.ofBits_extractLsb'])) fun h012 => ?_
  refine puts_ite (fun _ => puts_modStrand hp rfl) fun h018 => ?_
  refine puts_ite (fun _ => puts_modStrand hp rfl) fun hfmt => ?_
  refine puts_ite (fun _ => puts_modStrand hp rfl) fun hanc => ?_
  refine puts_ite (fun _ => puts_modStrand hp rfl) fun h02D => ?_
  refine puts_ite (fun _ => puts_modStrand hp rfl) fun hbase => ?_
  refine puts_ite (fun _ => puts_watchLen hp _ v) fun hlen => ?_
  refine puts_ite (fun _ => puts_writeWatch hp _ v _ _) fun hctl => ?_
  refine puts_ite (fun _ => puts_ite_none fun ⟨hcount, hpend⟩ => ?_) fun hbar => ?_
  · simp only [Party.writeBar_eq_ok hcount hpend]
    exact puts_some rfl
  refine puts_ite (fun _ => puts_writeScope hp hx _ v) fun hscope => ?_
  have hkeeps : ¬SysStores n := by
    unfold SysStores
    omega
  exact puts_ite_none fun _ => puts_some (hs hkeeps).symm

end

theorem sysWrite_setParty_of_sysPut {s : State} {w : SlotRef} {p q : Party} {n : Nat} {v : Dword} (x : Ctx) (hx : x.w = w)
    (hq : Claims.sysPut w n v s.nextId p = some q) : (s.setParty w.core p).sysWrite x n v = .ok (s.setParty w.core q) := by
  have h := puts_sysWrite (State.setParty_party?_self s w.core p) x hx n v (fun _ => State.setParty_setParty ..) q hq
  rwa [State.setParty_setParty] at h

-- the checks of SYSWR (R141, R172)

theorem sysPut_eq_none_of_not_assigned {n : Nat} (h : sysAssigned n = false) (w : SlotRef) (v : Dword) (at_ : Nat) (p : Party) :
    Claims.sysPut w n v at_ p = none := by
  have hn := h
  simp only [sysAssigned, Bool.or_eq_false_iff, Bool.and_eq_false_iff, decide_eq_false_iff_not, beq_eq_false_iff_ne] at hn
  simp (disch := omega) only [Claims.sysPut, if_neg, h, Bool.false_eq_true, if_false]

theorem sysAssigned_of_sysPut {w : SlotRef} {n at_ : Nat} {v : Dword} {p q : Party} (h : Claims.sysPut w n v at_ p = some q) :
    sysAssigned n = true := by
  cases ha : sysAssigned n with
  | true => rfl
  | false => exact nomatch (sysPut_eq_none_of_not_assigned ha w v at_ p).symm.trans h

/-- R141: a barrier whose configuration is written has no arrival registered. -/
theorem bar_pend_of_sysPut {w : SlotRef} {n at_ : Nat} {v : Dword} {p q : Party} (h : Claims.sysPut w n v at_ p = some q)
    (hn : 0x040 ≤ n ∧ n ≤ 0x04F) : (p.bar (n - 0x040)).pend = (p.bar (n - 0x040)).expect := by
  simp (disch := omega) only [Claims.sysPut, if_neg, if_pos hn, Option.ite_none_right_eq_some] at h
  obtain ⟨⟨-, hpend⟩, -⟩ := h
  exact hpend

theorem syswrPre_eq_none {x : Ctx} {p : Party} {n : Nat} (hpriv : 0x067 ≤ n → n ≤ 0x07F → p.priv = true)
    (ha : sysAssigned n = true) (hf : (p.strand x.w.strand).sysForbidden n = false)
    (hb : 0x040 ≤ n ∧ n ≤ 0x04F → (p.bar (n - 0x040)).pend = (p.bar (n - 0x040)).expect) : syswrPre n x p = none := by
  unfold syswrPre
  dsimp only
  rw [if_neg (by rintro ⟨lo, hi, h⟩; simp [hpriv lo hi] at h), if_neg]
  simpa [ha, hf] using fun lo hi => hb ⟨lo, hi⟩

theorem Strand.sysForbidden_eq_false {st : Strand} {n : Nat} (hdsp : n = 0x001 → st.pairLive = false)
    (htrap : n = 0x010 ∨ n = 0x011 ∨ n = 0x012 → st.inh = true)
    (hwp : ∀ k < 4, n = 0x030 + 3 * k ∨ n = 0x031 + 3 * k → (st.watch k).en = false) : st.sysForbidden n = false := by
  refine Bool.eq_false_iff.mpr fun h => ?_
  simp only [Strand.sysForbidden, Bool.or_eq_true, Bool.and_eq_true, beq_iff_eq, Bool.not_eq_true',
    decide_eq_true_eq, bne_iff_ne] at h
  obtain (⟨hn, hlive⟩ | ⟨hn, hinh⟩) | ⟨⟨⟨lo, hi⟩, hctl⟩, hen⟩ := h
  · simp [hdsp hn] at hlive
  · simp [htrap (or_assoc.mp hn)] at hinh
  · simp [hwp ((n - 0x030) / 3) (by omega) (by omega)] at hen

theorem Party.srcU_bars (p : Party) (w : SlotRef) (r : BitVec 7) : (p.srcU w r).2.bars = p.bars := by
  simp only [Party.srcU]
  (repeat' split) <;> rfl

theorem begun_bars (s : State) (w : SlotRef) (p : Party) (i : Instr) : (Claims.begun s w p i).bars = p.bars := by
  simp [Claims.begun, Party.beginIssue]

-- the instruction, and the steps of the opcode table

/-- A SYSWR that issues answers what the write of its value answers. -/
theorem execSyswr_of_sysWrite {s t : State} {w : SlotRef} {p : Party} {o : UI} (hi : Claims.Issues s w p (.syswr o))
    (hpre : syswrPre o.imm.toNat (p.ctx w (.syswr o)) p = none)
    (hw : (Claims.after s w ((Claims.begun s w p (.syswr o)).srcU w o.a).2).sysWrite (p.ctx w (.syswr o)) o.imm.toNat
      ((Claims.begun s w p (.syswr o)).srcU w o.a).1 = .ok t) : execSyswr o s = .next t := by
  have hc : p.issueFault w (.syswr o) (syswrPre o.imm.toNat (p.ctx w (.syswr o)) p) = none := hpre ▸ hi.checks
  unfold execSyswr
  dsimp only
  rw [issue_passes _ _ _ _ s w p hi.focus hi.party hi.slot hi.operands rfl hi.plain hc]
  have hx : (p.ctx w (.syswr o)).w = w := rfl
  rw [Claims.after, Claims.begun] at hw
  simp only [hx, State.setParty_party?_self, State.setParty_setParty, hw, State.stepTrap_off _ _ _ _ _ hi.unstepped]

/-- R171: SYSWR of a value that its register takes issues, reads the value and leaves what the write makes of the party. -/
theorem syswrWritesTheRegister : Claims.SyswrWritesTheRegister := by
  intro s w p q o hi n hpriv hdsp htrap hw0 hw1 hw2 hw3 x hq
  have hwp : ∀ k < 4, n = 0x030 + 3 * k ∨ n = 0x031 + 3 * k → ((p.strand w.strand).watch k).en = false := by
    intro k hk h
    obtain rfl | rfl | rfl | rfl : k = 0 ∨ k = 1 ∨ k = 2 ∨ k = 3 := by omega
    · exact hw0 h
    · exact hw1 h
    · exact hw2 h
    · exact hw3 h
  have hbars : x.2.bars = p.bars := (Party.srcU_bars ..).trans (begun_bars ..)
  have hpre : syswrPre n (p.ctx w (.syswr o)) p = none := by
    refine syswrPre_eq_none hpriv (sysAssigned_of_sysPut hq) (Strand.sysForbidden_eq_false hdsp htrap hwp) fun hn => ?_
    simpa only [Party.bar, hbars] using bar_pend_of_sysPut hq hn
  rw [exec_syswr]
  exact execSyswr_of_sysWrite hi hpre (sysWrite_setParty_of_sysPut _ rfl hq)

theorem sysEffect_of_sysPut {s : State} {w : SlotRef} {p q : Party} {n : Nat} {v : Dword} (hf : s.focus = .slot w)
    (hp : s.party? w.core = some p) (hn : SysStores n) (hq : Claims.sysPut w n v s.nextId p = some q) :
    sysEffect n v s = .next (s.setParty w.core q) := by
  have hwrite := puts_sysWrite hp ⟨w, (s.slotOf w).pc, (s.slotOf w).pc, ⟨0, 0⟩⟩ rfl n v (absurd hn) q hq
  simp only [sysEffect, hf, hwrite]

theorem registerWriteStepsWriteTheRegister : Claims.RegisterWriteStepsWriteTheRegister := by
  intro s w p q o hf hp
  refine ⟨sysEffect_of_sysPut hf hp ?_, sysEffect_of_sysPut hf hp ?_, fun hn => sysEffect_of_sysPut hf hp ?_,
    sysEffect_of_sysPut hf hp ?_⟩ <;> (unfold SysStores; omega)

/-- Settles O12: SYSWR and the steps of the opcode table answer what `State.sysWrite` does, which is `puts_sysWrite`. -/
theorem systemRegisterWritesWrite : Obligations.SystemRegisterWritesWrite :=
  ⟨syswrWritesTheRegister, registerWriteStepsWriteTheRegister⟩

end Sys2Proof.Machine
end

section
/-!
SUPPORT. Uniform instructions of registers, jumps to registers, and handlers: what an issue that may be made answers, shape by
shape of the uniform instructions; what a delivery and an ERET leave in the strand.
-/

namespace Sys2Proof.Machine

open Claims

-- the issue of an instruction that may issue

section
variable {s : State} {w : SlotRef} {p : Party} {i : Instr}

/-- AN INSTRUCTION THAT MAY ISSUE and whose own check and condition hold does what its body does, and no step trap follows. -/
theorem issue_ok {pre : Ctx → Party → Option Cause} {ready : Ctx → State → Bool} {body : Ctx → State → Done} {t : State}
    {at_ : Option SlotRef} (hi : Issues s w p i) (hpre : pre (p.ctx w i) p = none) (hr : ready (p.ctx w i) s = true)
    (hb : body (p.ctx w i) (after s w (begun s w p i)) = .ok t at_) : issue i pre ready body s = .next t := by
  rw [after, begun] at hb
  rw [issue_passes i pre ready body s w p hi.focus hi.party hi.slot hi.operands hr hi.plain (hpre ▸ hi.checks), hb]
  simp only [State.stepTrap_off _ _ _ _ _ hi.unstepped]

/-- One whose effect is a trap takes it. -/
theorem issue_trap {pre : Ctx → Party → Option Cause} {ready : Ctx → State → Bool} {body : Ctx → State → Done} {t : State}
    {r : TrapInfo} (hi : Issues s w p i) (hpre : pre (p.ctx w i) p = none) (hr : ready (p.ctx w i) s = true)
    (hb : body (p.ctx w i) (after s w (begun s w p i)) = .trap r t) : issue i pre ready body s = .next (t.takeTrap w r) := by
  rw [after, begun] at hb
  rw [issue_passes i pre ready body s w p hi.focus hi.party hi.slot hi.operands hr hi.plain (hpre ▸ hi.checks), hb]

@[simp] theorem Party.ctx_w (p : Party) (w : SlotRef) (i : Instr) : (p.ctx w i).w = w := rfl

theorem after_party? (s : State) (w : SlotRef) (q : Party) : (after s w q).party? w.core = some q :=
  State.setParty_party?_self ..

theorem after_setParty (s : State) (w : SlotRef) (q r : Party) : (after s w q).setParty w.core r = after s w r :=
  State.setParty_setParty ..

theorem after_modParty (s : State) (w : SlotRef) (q : Party) (f : Party → Party) :
    (after s w q).modParty w.core f = after s w (f q) := State.setParty_modParty ..

/-- Where its rule makes a party of the slot's, the instruction has issued and nothing else differs from `s`. -/
def Gives (s : State) (w : SlotRef) (r : Option Party) (out : Out) : Prop := ∀ q, r = some q → out = .next (after s w q)

theorem gives_some {q : Party} {out : Out} (h : out = .next (after s w q)) : Gives s w (some q) out := by
  rintro _ ⟨⟩
  exact h

theorem gives_none (out : Out) : Gives s w none out := fun _ h => nomatch h

/-- An instruction that changes its party alone, once its condition holds. -/
theorem issueParty_gives_of_ready (hi : Issues s w p i) {ready : Ctx → State → Bool} (hr : ready (p.ctx w i) s = true)
    {f : Ctx → Party → Party} {r : Option Party} (h : r = some (f (p.ctx w i) (begun s w p i))) :
    Gives s w r (issue i noPre ready (fun x s => .ok (s.modParty x.w.core (f x)) (some x.w)) s) := by
  subst h
  exact gives_some (issue_ok hi rfl hr (congrArg (Done.ok · _) (after_modParty ..)))

theorem issueParty_gives (hi : Issues s w p i) {f : Ctx → Party → Party} {r : Option Party}
    (h : r = some (f (p.ctx w i) (begun s w p i))) : Gives s w r (issueParty i f s) := issueParty_gives_of_ready hi rfl h

-- the shapes of the uniform instructions (R151-R160)

theorem uni2_gives {o : UR} (hi : Issues s w p i) {u : Bool} {f g : (n : Nat) → BitVec n → BitVec n → BitVec n}
    (h : ∀ n x y, f n x y = g n x y) : Gives s w (some (uni w (begun s w p i) o u g)) (uni2 i o u f s) := by
  obtain rfl : f = g := by
    funext n x y
    exact h n x y
  exact issueParty_gives hi rfl

theorem uni1_gives {o : UR} (hi : Issues s w p i) (u : Bool) (f : (n : Nat) → BitVec n → BitVec n) :
    Gives s w (some (uni1c w (begun s w p i) o u f)) (uni1 i o u f s) := issueParty_gives hi rfl

theorem uniI_gives {o : UI} (hi : Issues s w p i) {f : Dword → Dword → Dword} {g : Dword → Dword}
    (h : ∀ x, f x (o.imm.signExtend 64) = g x) : Gives s w (some (uniImm w (begun s w p i) o g)) (uniI i o f s) := by
  obtain rfl : (fun x => f x (o.imm.signExtend 64)) = g := funext h
  exact issueParty_gives hi rfl

theorem mask2_gives {o : UR} (hi : Issues s w p i) (f : Word → Word → Word) :
    Gives s w (some (masks w (begun s w p i) o f)) (mask2 i o f s) := issueParty_gives hi rfl

theorem mask1_gives {o : UR} (hi : Issues s w p i) {f g : Word → Word} (h : ∀ x, f x = g x) :
    Gives s w (some (mask1c w (begun s w p i) o g)) (mask1 i o f s) := by
  obtain rfl : f = g := funext h
  exact issueParty_gives hi rfl

/-- R95, R159: a SLIMZ or SLIMK of a strand, on the register that its field d names. -/
theorem slim_gives {o : UK} (hi : Issues s w p i) {f : Dword → Dword} {r : Option Party}
    (h : r = some (let x := (begun s w p i).srcU w (sSpec o.d.toNat)
      x.2.dstU w (sSpec o.d.toNat) (f x.1))) : Gives s w r (slim i o f s) := by
  rw [slim, hi.focus]
  exact issueParty_gives hi h

-- values (R98, R155, R160)

theorem cmpFlags_eq_diffFlags {n : Nat} (x y : BitVec n) (f : Flags) : cmpFlags x y f = diffFlags x y f := by
  have hz : (x - y == 0) = (x == y) := by
    rw [Bool.eq_iff_iff, beq_iff_eq, beq_iff_eq, BitVec.sub_eq_iff_eq_add]
    exact iff_of_eq (congrArg (x = ·) (BitVec.zero_add y))
  simp only [cmpFlags, diffFlags, overflow_eq, hz, BitVec.le_def]

theorem uimm_low6 (o : UI) : o.imm.toNat % 64 = (o.imm.extractLsb' 0 6).toNat := by simp

theorem extract_field64 (x y : Dword) : fieldOf x (field64 y).1 (field64 y).2 =
    (x.extractLsb' (y.extractLsb' 0 6).toNat (min (y.extractLsb' 6 7).toNat (64 - (y.extractLsb' 0 6).toNat))).setWidth 64 := by
  rw [fieldOf_eq_extract, field64_eq]

theorem insert_field64 (x y d : Dword) : insertField d x (field64 y).1 (field64 y).2 =
    (let lo := (y.extractLsb' 0 6).toNat
     let u := min (y.extractLsb' 6 7).toNat (64 - lo)
     (d &&& ~~~(BitVec.ofNat 64 (2 ^ u - 1) <<< lo)) ||| ((x &&& BitVec.ofNat 64 (2 ^ u - 1)) <<< lo)) := by
  rw [field64_eq]
  rfl

theorem laneList_map_val : laneList.map Fin.val = List.range 32 := by decide

/-- MFFS: the lowest lane of a mask, read as a number; 32 where there is none. -/
theorem lowLane_eq_find (x : Word) : (match lowLane x with | some l => l.setWidth 32 | none => 32 : Word) =
    BitVec.ofNat 32 (((List.range 32).find? fun k => x.getLsbD k).getD 32) := by
  have hfind : ((List.range 32).find? fun k => x.getLsbD k) = (laneList.find? (inMask x)).map Fin.val := by
    rw [← laneList_map_val, List.find?_map]
    rfl
  rw [hfind, lowLane]
  cases laneList.find? (inMask x) with
  | none => rfl
  | some k => exact BitVec.eq_of_toNat_eq (by simp)

-- what reads and the record of an issue leave in the slot

theorem Party.srcU_slot (p : Party) (w v : SlotRef) (r : BitVec 7) : (p.srcU w r).2.slot v = p.slot v := by
  simp only [Party.slot, Party.srcU_strand]

/-- R159: no s or m register is a queue: its read changes nothing. -/
theorem Party.srcU_sSpec (p : Party) (w : SlotRef) (d : BitVec 5) : (p.srcU w (sSpec d.toNat)).2 = p := by
  have hd : (sSpec d.toNat).toNat = 88 + d.toNat := by
    simp only [sSpec, BitVec.toNat_ofNat]
    omega
  unfold Party.srcU
  by_cases h : d.toNat < 24
  · rw [if_pos (by simp [isS, hd]; omega)]
  · rw [if_neg (by simp [isS, hd]; omega), if_pos (by simp [isM, hd]; omega)]

theorem begun_slot_self (s : State) (i : Instr) (p : Party) {w : SlotRef} (h : w.strand < 16) :
    (begun s w p i).slot w = { (p.slot w).issued (roles i).pipe s.now with pc := (p.ctx w i).next } := by
  have hst := Party.beginIssue_strand_self p (p.ctx w i) (roles i).pipe s.now h
  exact (congrArg (·.slot w.slot) hst).trans (Strand.modSlot_slot_self ..)

/-- R134: an issue leaves its slot's pending EX as it is. -/
theorem begun_exPending (s : State) (w : SlotRef) (p : Party) (i : Instr) :
    ((begun s w p i).slot w).exPending = (p.slot w).exPending := by
  by_cases h : w.strand < 16
  · rw [begun_slot_self s i p h]
    rfl
  · simp [begun, Party.beginIssue, Party.slot, Party.modSlot, Party.modStrand, Party.setStrand, Party.strand, Party.ctx, h]

theorem exReady_of_exKnown (hi : Issues s w p i) {code : Nat} (h : exKnown (begun s w p i) w code = true) :
    exReady code (p.ctx w i) s = true := by
  rw [exKnown, begun_exPending] at h
  have hl : s.slotOf w = p.slot w := by
    simp only [State.slotOf, State.strandOf, hi.party]
    rfl
  rwa [exReady, Party.ctx_w, hl]

/-- An instruction that waits while the EX flag that it reads is pending (R134). -/
theorem gives_of_exKnown (hi : Issues s w p i) {code : Nat} {f : Ctx → Party → Party} {q : Party}
    (h : q = f (p.ctx w i) (begun s w p i)) :
    Gives s w (if exKnown (begun s w p i) w code = true then some q else none)
      (issue i noPre (exReady code) (fun x s => .ok (s.modParty x.w.core (f x)) (some x.w)) s) := by
  split
  · next hex => exact issueParty_gives_of_ready hi (exReady_of_exKnown hi hex) (congrArg some h)
  · exact gives_none _

-- control transfer (R162-R164)

/-- R163: CALL and CALLR are one word long. -/
theorem link_eq_linked (q p : Party) (w : SlotRef) {i : Instr} (h : instrLen i = 4) :
    q.link (p.ctx w i) = linked q w ((p.slot w).pc + 4) := by
  simp only [Party.link, linked, Party.ctx, h]
  rfl

section
variable (hi : Issues s w p i) {a : BitVec 7} (link : Bool) {x : Dword × Party} (hx : (begun s w p i).srcU w a = x)
include hi hx

/-- R164: a target that is not aligned. -/
theorem jumpReg_misaligned (h : x.1.extractLsb' 0 2 ≠ 0) : jumpReg i a link s =
    .next ((after s w x.2).takeTrap w ((p.ctx w i).info { x.2.slot w with pc := (p.slot w).pc } .misalignedFetch x.1)) := by
  refine issue_trap hi rfl rfl ?_
  simp only [Party.ctx_w, after_party?, after_setParty, hx, if_pos h]
  rfl

/-- R164: an aligned target of more than 56 bits. -/
theorem jumpReg_wide (hlow : x.1.extractLsb' 0 2 = 0) (h : x.1.extractLsb' 56 8 ≠ 0) : jumpReg i a link s =
    .next ((after s w x.2).takeTrap w ((p.ctx w i).info { x.2.slot w with pc := (p.slot w).pc } .fetchFault x.1)) := by
  refine issue_trap hi rfl rfl ?_
  simp only [Party.ctx_w, after_party?, after_setParty, hx, if_neg (not_not_intro hlow), if_pos h]
  rfl

/-- R163, R164: any other target is the next PC, and CALLR links. -/
theorem jumpReg_jumps (hlen : instrLen i = 4) (hlow : x.1.extractLsb' 0 2 = 0) (hhigh : x.1.extractLsb' 56 8 = 0) :
    jumpReg i a link s = .next (after s w
      (goto (if link then linked x.2 w ((p.slot w).pc + 4) else x.2) w (x.1.extractLsb' 0 56))) := by
  refine issue_ok (at_ := some w) hi rfl rfl ?_
  simp only [Party.ctx_w, after_party?, after_setParty, hx, if_neg (not_not_intro hlow), if_neg (not_not_intro hhigh),
    link_eq_linked _ _ _ hlen, BitVec.setWidth_eq_extractLsb' (show 56 ≤ 64 by decide)]
  rfl

end

theorem jumpReg_gives (hi : Issues s w p i) (hlen : instrLen i = 4) (a : BitVec 7) (link : Bool) :
    Gives s w (uniformResult.jumped w (p.slot w).pc link ((begun s w p i).srcU w a)) (jumpReg i a link s) := by
  intro q hq
  rw [uniformResult.jumped, Option.ite_none_right_eq_some] at hq
  obtain ⟨⟨hlow, hhigh⟩, hq⟩ := hq
  cases hq
  exact jumpReg_jumps hi link rfl hlen hlow hhigh

/-- JMPR, CALLR and RET are jumps to the register of their field a. -/
theorem exec_eq_jumpReg {o : UR} (h : i = .jmpr o ∨ i = .callr o ∨ i = .ret o) (s : State) :
    instrLen i = 4 ∧ ∃ link, exec i s = jumpReg i o.a link s := by
  obtain rfl | rfl | rfl := h <;> exact ⟨rfl, _, rfl⟩

theorem goto_slot_pc (q : Party) {w : SlotRef} (h : w.strand < 16) (pc : Pc) : ((goto q w pc).slot w).pc = pc :=
  congrArg Slot.pc (Party.modSlot_slot_self q w _ h)

-- system registers (R179, R180)

theorem sysRead_eq_none_of_not_assigned {n : Nat} (h : sysAssigned n = false) (s : State) (p : Party) (w : SlotRef) :
    s.sysRead p w n = none := by
  simp only [sysAssigned, Bool.or_eq_false_iff, Bool.and_eq_false_iff, decide_eq_false_iff_not, beq_eq_false_iff_ne] at h
  simp (disch := omega) only [State.sysRead, if_neg]

theorem sysAssigned_of_sysRead {n : Nat} {v : Dword} {w : SlotRef} (h : s.sysRead p w n = some v) : sysAssigned n = true := by
  cases ha : sysAssigned n with
  | true => rfl
  | false => exact nomatch (sysRead_eq_none_of_not_assigned ha s p w).symm.trans h

theorem after_clk (s : State) (w : SlotRef) (q : Party) (c : Nat) : (after s w q).clk c = s.clk c := rfl

/-- An issue changes no clock: a register reads the same before it. -/
theorem after_sysRead (s : State) (w v : SlotRef) (q p : Party) (n : Nat) : (after s w q).sysRead p v n = s.sysRead p v n := rfl

theorem execSysrd_gives {o : UI} (hi : Issues s w p (.sysrd o)) :
    Gives s w (uniformResult s w (p.slot w).pc (begun s w p (.sysrd o)) (.sysrd o)) (execSysrd o s) := by
  intro q hq
  cases hv : s.sysRead (begun s w p (.sysrd o)) w o.imm.toNat with
  | none => simp [uniformResult, hv] at hq
  | some v =>
    obtain rfl : (begun s w p (.sysrd o)).dstU w o.d v = q := by simpa [uniformResult, hv] using hq
    refine issue_ok (at_ := some w) hi (by simp [sysAssigned_of_sysRead hv]) rfl ?_
    simp only [Party.ctx_w, after_party?, after_setParty, after_sysRead, hv, Option.getD_some]

end

/-- Settles O3: an instruction of each shape gives what the shape's rule makes of the party. -/
theorem uniformInstructionsGiveTheirResult : Obligations.UniformInstructionsGiveTheirResult := by
  intro s w p q i hi
  revert q
  change Gives s w (uniformResult s w (p.slot w).pc (begun s w p i) i) (exec i s)
  cases i with
  -- register arithmetic (R153-R156)
  | sadd _ | ssub _ | smul _ | sand _ | sor _ | sxor _ | sandn _ | sshl _ | sshr _ | ssar _ | smin _ | smax _ | srot _ =>
    exact uni2_gives hi fun _ _ _ => rfl
  | smulh _ => exact uni2_gives hi fun _ => mulHigh_signed
  | smulhn _ => exact uni2_gives hi fun _ => mulHigh_unsigned
  | sminn _ => exact uni2_gives hi fun _ => minU_eq
  | smaxn _ => exact uni2_gives hi fun _ => maxU_eq
  | sclz _ | spop _ => exact uni1_gives hi _ _
  | smov _ =>
    rw [exec_smov, uniformResult]
    split
    · exact gives_none _
    · exact uni1_gives hi _ _
  | sbfx _ =>
    rw [exec_sbfx, execSbfx, uniformResult]
    exact issueParty_gives hi (by simp only [Party.ctx_w, extract_field64])
  | sbfi _ =>
    rw [exec_sbfi, execSbfi, uniformResult]
    exact issueParty_gives hi (by simp only [Party.ctx_w, insert_field64])
  | scmp _ =>
    rw [exec_scmp, execScmp, uniformResult]
    exact issueParty_gives hi (by simp only [Party.ctx_w, Party.srcU_slot, cmpFlags_eq_diffFlags])
  | ssel _ =>
    rw [exec_ssel, execSsel, uniformResult]
    exact issueParty_gives hi (by simp only [Party.ctx_w, Party.srcU_slot])
  -- immediates (R157-R159)
  | saddi _ | sandi _ | sori _ | sxori _ | smuli _ => exact uniI_gives hi fun _ => rfl
  | sshli _ =>
    rw [exec_sshli, execSshli, uniformResult, ← uimm_low6]
    exact uniI_gives hi fun _ => rfl
  | sshri _ =>
    rw [exec_sshri, execSshri, uniformResult, ← uimm_low6]
    exact uniI_gives hi fun _ => rfl
  | ssari _ =>
    rw [exec_ssari, execSsari, uniformResult, ← uimm_low6]
    exact uniI_gives hi fun _ => rfl
  | scmpi _ =>
    rw [exec_scmpi, execScmpi, uniformResult]
    exact issueParty_gives hi (by simp only [Party.ctx_w, Party.srcU_slot, cmpFlags_eq_diffFlags])
  | scset _ =>
    rw [exec_scset, execScset, uniformResult]
    exact gives_of_exKnown hi rfl
  | slimz _ =>
    rw [exec_slimz, execSlimz, uniformResult]
    exact slim_gives hi (by simp only [Party.srcU_sSpec, chunkAt])
  | slimk _ =>
    rw [exec_slimk, execSlimk, uniformResult]
    exact slim_gives hi rfl
  -- masks (R160, R161)
  | mand _ | mor _ | mxor _ | mandn _ => exact mask2_gives hi _
  | mnot _ => exact mask1_gives hi fun _ => rfl
  | mpop _ =>
    rw [exec_mpop, execMpop, uniformResult]
    exact mask1_gives hi fun _ => rfl
  | mffs _ =>
    rw [exec_mffs, execMffs, uniformResult]
    exact mask1_gives hi lowLane_eq_find
  | mtest _ =>
    rw [exec_mtest, execMtest, uniformResult]
    exact issueParty_gives hi (by simp only [Party.ctx_w, Party.srcU_slot, testFlags])
  -- control transfer (R162-R164)
  | br _ =>
    rw [exec_br, execBr, uniformResult]
    exact gives_of_exKnown hi rfl
  | jmp _ =>
    rw [exec_jmp, execJmp, uniformResult]
    exact issueParty_gives hi rfl
  | call _ =>
    rw [exec_call, execCall, uniformResult]
    exact issueParty_gives hi (by rw [link_eq_linked _ _ _ rfl]; rfl)
  | jmpr o => exact jumpReg_gives hi rfl o.a false
  | callr o => exact jumpReg_gives hi rfl o.a true
  | ret o => exact jumpReg_gives hi rfl o.a false
  -- waits and system registers (R168, R169, R173, R179)
  | yield _ =>
    rw [exec_yield, execYield, uniformResult]
    exact issueParty_gives hi rfl
  | nop _ =>
    rw [exec_nop, execNop, uniformResult]
    exact issueParty_gives hi rfl
  | waitf _ =>
    rw [exec_waitf, execWaitf, uniformResult]
    exact issueParty_gives hi rfl
  | sysrd _ => exact execSysrd_gives hi
  | clkrd _ =>
    rw [exec_clkrd, execClkrd, uniformResult]
    exact gives_some (issue_ok (at_ := some w) hi rfl rfl (by simp only [Party.ctx_w, after_modParty, after_clk]))
  | _ => exact gives_none _

/-- Settles O4: the three answers of `jumpReg`. -/
theorem jumpsToRegistersAreChecked : Obligations.JumpsToRegistersAreChecked := by
  intro s w p o i hj hi x trap
  obtain ⟨hlen, link, he⟩ := exec_eq_jumpReg hj s
  rw [he]
  exact ⟨jumpReg_misaligned hi link rfl, jumpReg_wide hi link rfl, fun hlow hhigh =>
    ⟨_, _, jumpReg_jumps hi link rfl hlen hlow hhigh, after_party? .., fun h => goto_slot_pc _ h _⟩⟩

-- delivery (R174)

theorem Party.modStrand_strand_self (p : Party) {i : Nat} (h : i < 16) (f : Strand → Strand) :
    (p.modStrand i f).strand i = f (p.strand i) := Party.setStrand_strand_self _ _ _ h
theorem Party.modStrand_strand_ne (p : Party) {i k : Nat} (h : k ≠ i) (f : Strand → Strand) :
    (p.modStrand i f).strand k = p.strand k := Party.setStrand_strand_ne _ _ h

/-- R174: a live slot is suspended; one that is not live stays so. -/
theorem suspended_st (y : Slot) : (if y.st = .notLive then y else { y with st := .suspended }).st =
    if y.st = .notLive then .notLive else .suspended := by
  split
  · next hst => exact hst
  · rfl

section
variable (p : Party) {w : SlotRef} (t : TrapInfo) (now : Nat) (h : w.strand < 16)
include h

theorem Party.deliver_trap : ((p.deliver w t now).strand w.strand).trap = (p.strand w.strand).record w t := by
  rw [Party.deliver, Party.modStrand_strand_self p h]
  rfl

theorem Party.deliver_inh : ((p.deliver w t now).strand w.strand).inh = true := by
  rw [Party.deliver, Party.modStrand_strand_self p h]
  rfl

/-- The trapping slot runs on at the handler's entry, with every lane of its em, and keeps its em and flags. -/
theorem Party.deliver_slot : (p.deliver w t now).slot w =
    { p.slot w with st := .running, m0 := (p.slot w).em, pc := p.handler, wait := .none, lastAt := some now } := by
  rw [Party.slot, Party.deliver, Party.modStrand_strand_self p h]
  dsimp only
  rw [Strand.modSlot_slot_self, Strand.modSlot_slot_other _ _ (otherSlot_ne _).symm]
  rfl

theorem Party.deliver_otherSlot_st : (((p.deliver w t now).strand w.strand).slot (otherSlot w.slot)).st =
    if ((p.strand w.strand).slot (otherSlot w.slot)).st = .notLive then .notLive else .suspended := by
  rw [Party.deliver, Party.modStrand_strand_self p h]
  dsimp only
  rw [Strand.modSlot_slot_other _ _ (otherSlot_ne _), Strand.modSlot_slot_self]
  exact suspended_st _

end

theorem deliveryWritesTheTrapRecord : Claims.DeliveryWritesTheTrapRecord := by
  intro p w t now h st x y q r
  have hr : r = st.record w t := p.deliver_trap t now h
  have hslot : q.slot w = _ := p.deliver_slot t now h
  rw [hr, hslot]
  exact ⟨⟨rfl, rfl, rfl, rfl, rfl, rfl, rfl, rfl⟩, ⟨rfl, rfl, rfl, rfl, rfl, rfl, rfl, rfl⟩,
    ⟨p.deliver_inh t now h, rfl, rfl, rfl, rfl, rfl⟩, p.deliver_otherSlot_st t now h,
    fun k hk => p.modStrand_strand_ne hk _, rfl, rfl, rfl, rfl, rfl⟩

-- the return (R178, R506)

theorem Strand.leaveHandler_inh (st : Strand) (w : SlotRef) : (st.leaveHandler w).inh = false := by
  unfold Strand.leaveHandler
  dsimp only
  split <;> rfl

theorem Strand.leaveHandler_slot (st : Strand) (w : SlotRef) : (st.leaveHandler w).slot w.slot =
    { st.slot w.slot with pc := st.trap.tepc, m0 := st.trap.m0 &&& (st.slot w.slot).em, flags := st.trap.flags } := by
  unfold Strand.leaveHandler
  dsimp only
  split
  · rw [Strand.modSlot_slot_other _ _ (otherSlot_ne _).symm, Strand.modSlot_slot_self]
    rfl
  · rw [Strand.modSlot_slot_self]
    rfl

theorem Strand.leaveHandler_otherSlot_st (st : Strand) (w : SlotRef) (h : st.trap.olive = true) :
    ((st.leaveHandler w).slot (otherSlot w.slot)).st = st.trap.otherSt := by
  unfold Strand.leaveHandler
  dsimp only
  rw [if_pos h, Strand.modSlot_slot_self]

/-- ERET in the handler leaves it; what it does to the sequencer after a stream fault touches no strand. -/
theorem exec_eret_leavesHandler {s : State} {w : SlotRef} {p : Party} {o : UJ} (hi : Issues s w p (.eret o))
    (hinh : (p.strand w.strand).inh = true) : ∃ q, exec (.eret o) s = .next (after s w q) ∧
      q.strands = ((begun s w p (.eret o)).modStrand w.strand (·.leaveHandler w)).strands := by
  rw [exec_eret, execEret]
  cases hstream : ((begun s w p (.eret o)).strand w.strand).trap.stream with
  | false =>
    refine ⟨_, issue_ok (at_ := none) hi (if_pos hinh) rfl ?_, rfl⟩
    simp [State.strandOf, State.modStrand, after_party?, after_modParty, hstream]
  | true =>
    refine ⟨((begun s w p (.eret o)).modStrand w.strand (·.leaveHandler w)).sequencerIdle,
      issue_ok (at_ := none) hi (if_pos hinh) rfl ?_, rfl⟩
    simp [State.strandOf, State.modStrand, after_party?, after_modParty, hstream]

theorem begun_trap (s : State) (w : SlotRef) (p : Party) (i : Instr) (k : Nat) :
    ((begun s w p i).strand k).trap = (p.strand k).trap :=
  p.beginIssue_strand_keeps _ _ _ k Strand.trap (fun _ _ _ => rfl) fun _ _ => rfl

theorem eretResumesTheSlot : Claims.EretResumesTheSlot := by
  intro s w p o hi hinh h r
  obtain ⟨q, hq, hstrands⟩ := exec_eret_leavesHandler hi hinh
  have hstrand (k : Nat) : q.strand k = ((begun s w p (.eret o)).modStrand w.strand (·.leaveHandler w)).strand k := by
    rw [Party.strand, hstrands]
    rfl
  have hself : q.strand w.strand = ((begun s w p (.eret o)).strand w.strand).leaveHandler w :=
    (hstrand _).trans (Party.modStrand_strand_self _ h _)
  have hr : ((begun s w p (.eret o)).strand w.strand).trap = r := begun_trap ..
  have hem : (((begun s w p (.eret o)).strand w.strand).slot w.slot).em = (p.slot w).em :=
    (congrArg Slot.em (begun_slot_self s (.eret o) p h)).trans rfl
  have hslot := congrArg (·.slot w.slot) hself
  simp only [Strand.leaveHandler_slot, hr, hem] at hslot
  refine ⟨q, hq, ?_, ?_, ?_, ?_, ?_, fun ho => ?_, fun k hk => ?_⟩
  · rw [hself, Strand.leaveHandler_inh]
  · rw [Party.slot, hslot]
  · rw [Party.slot, hslot]
  · rw [Party.slot, hslot]
  · rw [Party.slot, hslot]
  · rw [hself, Strand.leaveHandler_otherSlot_st _ _ (hr ▸ ho), hr]
  · rw [hstrand, Party.modStrand_strand_ne _ hk]
    exact Party.beginIssue_strand_ne _ _ _ _ hk

/-- Settles O9: the record and the slots after a delivery, and after the ERET that ends it. -/
theorem handlersAreEnteredAndLeft : Obligations.HandlersAreEnteredAndLeft :=
  ⟨deliveryWritesTheTrapRecord, eretResumesTheSlot⟩

end Sys2Proof.Machine
end

section
/-!
SUPPORT. Lane instructions of registers: what an issue that may be made answers, shape by shape of the lane instructions, and the
values of the conversions, read as their rules give them.
-/

namespace Sys2Proof.Machine

open Claims

-- the shapes of the lane instructions (R185-R188)

section
variable {s : State} {w : SlotRef} {p : Party} {i : Instr}

theorem lane1_gives {o : LR} (hi : Issues s w p i) {f g : Word → Word} (he : exec i s = lane1 i o f s) (h : ∀ x, f x = g x) :
    Gives s w (some (from1 w (begun s w p i) o.a o.d g)) (exec i s) := by
  rw [he]
  obtain rfl : f = g := funext h
  exact issueParty_gives hi rfl

theorem lane2_gives {o : LR} (hi : Issues s w p i) {f g : Word → Word → Word} (he : exec i s = lane2 i o f s)
    (h : ∀ x y, f x y = g x y) : Gives s w (some (from2 w (begun s w p i) o g)) (exec i s) := by
  rw [he]
  obtain rfl : f = g := funext fun x => funext (h x)
  exact issueParty_gives hi rfl

theorem lane3_gives {o : LR} (hi : Issues s w p i) {f g : Word → Word → Word → Word}
    (he : exec i s = lane3 i o f s) (h : ∀ x y d, f x y d = g x y d) :
    Gives s w (some (from3 w (begun s w p i) o g)) (exec i s) := by
  rw [he]
  obtain rfl : f = g := funext fun x => funext fun y => funext (h x y)
  exact issueParty_gives hi rfl

theorem laneI_gives {o : LI} (hi : Issues s w p i) {f : Word → Word → Word} {g : Word → Word}
    (he : exec i s = laneI i o f (imm32 o) s) (h : ∀ x, f x (imm32 o) = g x) :
    Gives s w (some (from1 w (begun s w p i) o.a o.d g)) (exec i s) := by
  rw [he]
  obtain rfl : (fun x => f x (imm32 o)) = g := funext h
  exact issueParty_gives hi rfl

theorem pair2_gives {o : LR} (hi : Issues s w p i) {f : Dword → Dword → Dword} (he : exec i s = pair2 i o f s) :
    Gives s w (some (pairs2 w (begun s w p i) o f)) (exec i s) := he ▸ issueParty_gives hi rfl

theorem pair3_gives {o : LR} (hi : Issues s w p i) {f : Dword → Dword → Dword → Dword} (he : exec i s = pair3 i o f s) :
    Gives s w (some (pairs3 w (begun s w p i) o f)) (exec i s) := he ▸ issueParty_gives hi rfl

theorem widen2_gives {o : LR} (hi : Issues s w p i) {f g : Word → Word → Dword} (he : exec i s = widen2 i o f s)
    (h : ∀ x y, f x y = g x y) : Gives s w (some (widened w (begun s w p i) o g)) (exec i s) := by
  rw [he]
  obtain rfl : f = g := funext fun x => funext (h x)
  exact issueParty_gives hi rfl

theorem pairShift_gives {o : LR} (hi : Issues s w p i) {f : Dword → Nat → Dword} (he : exec i s = pairShift i o f s) :
    Gives s w (some (pairShifted w (begun s w p i) o f)) (exec i s) :=
  he ▸ issueParty_gives hi (by simp only [pairShifted, low6_eq, Party.ctx_w])

theorem cross1_gives {d a : BitVec 7} (hi : Issues s w p i) {f g : Word → Lanes Word → Lanes Word}
    (he : exec i s = cross1 i d a f s) (h : ∀ m x, f m x = g m x) :
    Gives s w (some (crossed w (begun s w p i) a d g)) (exec i s) := by
  rw [he]
  obtain rfl : f = g := funext fun x => funext (h x)
  exact issueParty_gives hi rfl

theorem cross2_gives {o : LR} (hi : Issues s w p i) {f g : Word → Lanes Word → Lanes Word → Lanes Word}
    (he : exec i s = cross2 i o f s) (h : ∀ m x y, f m x y = g m x y) :
    Gives s w (some (crossed2 w (begun s w p i) o g)) (exec i s) := by
  rw [he]
  obtain rfl : f = g := funext fun x => funext fun y => funext (h x y)
  exact issueParty_gives hi rfl

theorem compare2_gives {o : LC} (hi : Issues s w p i) {f : Word → Word → Bool} (he : exec i s = compare2 i o f s) :
    Gives s w (some (compared w (begun s w p i) o f)) (exec i s) := he ▸ issueParty_gives hi rfl

theorem comparePair_gives {o : LC} (hi : Issues s w p i) {f : Dword → Dword → Bool} (he : exec i s = comparePair i o f s) :
    Gives s w (some (comparedPairs w (begun s w p i) o f)) (exec i s) := he ▸ issueParty_gives hi rfl

/-- An instruction that checks values of its party and then changes that party alone. -/
theorem issueParty?_gives (hi : Issues s w p i) {pre : Ctx → Party → Option Cause} {f : Ctx → Party → Party}
    {r : Option Party} (hpre : pre (p.ctx w i) p = none) (h : r = some (f (p.ctx w i) (begun s w p i))) :
    Gives s w r (issueParty? i pre f s) := by
  subst h
  exact gives_some (issue_ok hi hpre rfl (congrArg (Done.ok · _) (after_modParty ..)))

-- narrow formats (R221, R222)

/-- The record of an issue leaves the format registers as they are. -/
theorem begun_narrowFmt (o : LI) : (begun s w p i).narrowFmt w o = p.narrowFmt w o := by
  unfold Party.narrowFmt
  rw [begun, p.beginIssue_strand_keeps _ _ _ _ Strand.fmt (fun _ _ _ => rfl) fun _ _ => rfl]

theorem narrowPre_eq_none {o : LI} (h : narrowOk w (begun s w p i) o = true) : narrowPre o (p.ctx w i) p = none := by
  simp only [narrowOk, begun_narrowFmt, Bool.and_eq_true, Bool.or_eq_true, decide_eq_true_eq] at h
  obtain ⟨hvalid, hpos⟩ := h
  have hgood : (!(p.narrowFmt w o).valid || (5 ≤ (p.narrowFmt w o).width && 4 ≤ narrowPos o)) = false := by
    simp only [hvalid, Bool.not_true, Bool.false_or, Bool.and_eq_false_iff, decide_eq_false_iff_not]
    omega
  exact if_neg (Bool.eq_false_iff.mp hgood)

end

-- lanes named by number (R198, R199)

/-- A lane that is named modulo the number of lanes. -/
theorem lane_mod_eq_getD (x : Lanes Word) {n m : Nat} (hm : n % 32 = m) :
    x[n % 32]'(Nat.mod_lt _ (by decide)) = x.getD m 0 := by
  subst hm
  simp [Vector.getD, Nat.mod_lt]

theorem immCount_eq (o : LI) : immCount o = count5 o := by simp [immCount, count5]

theorem xor_lane_mod (i : Fin 32) (o : LI) : (i.val ^^^ immCount o) % 32 = i.val ^^^ count5 o := by
  rw [immCount_eq]
  exact Nat.mod_eq_of_lt (Nat.xor_lt_two_pow i.isLt (o.imm.extractLsb' 0 5).isLt)

theorem rotate_lane_mod (i : Fin 32) (o : LI) : (i.val + 32 - immCount o) % 32 = (i.val + (32 - count5 o)) % 32 := by
  have hc : count5 o < 32 := (o.imm.extractLsb' 0 5).isLt
  rw [immCount_eq, Nat.add_sub_assoc (Nat.le_of_lt hc)]

-- classes and conversions (R211, R219)

theorem classFmt_eq {t : BitVec 4} (ht : t ≠ 0) : classFmt t.toNat = if t = 1 then f32 else if t = 2 then f16 else b16 := by
  revert t
  decide

theorem narrowAt_eq (f : Fmt) (pos : Nat) : narrowAt f pos = (container f * pos, container f) := by
  unfold narrowAt container
  split <;> rfl

theorem insertField_eq_placed (f : Fmt) (pos : Nat) (d v : Word) :
    insertField d v (narrowAt f pos).1 (narrowAt f pos).2 = placed f pos d v := by
  apply BitVec.eq_of_getLsbD_eq
  intro k hk
  rw [narrowAt_eq, insertField_getLsbD _ _ _ _ _ hk, placed, maskOf_getLsbD _ _ hk]

theorem width_le_container {f : Fmt} (h : f.valid = true) : f.width ≤ container f := by
  simp only [Fmt.valid, Bool.and_eq_true, decide_eq_true_eq] at h
  obtain ⟨⟨⟨-, hle⟩, -⟩, -⟩ := h
  unfold container
  split <;> omega

theorem fieldOf_toNat (x : Word) (lo u : Nat) : (fieldOf x lo u).toNat = x.toNat / 2 ^ lo % 2 ^ u := by
  rw [fieldOf_eq_extract, BitVec.toNat_setWidth, BitVec.extractLsb'_toNat, Nat.shiftRight_eq_div_pow]
  exact Nat.mod_eq_of_lt (Nat.lt_of_le_of_lt (Nat.le_trans (Nat.mod_le _ _) (Nat.div_le_self _ _)) x.isLt)

theorem fieldOf_narrowAt {f : Fmt} (h : f.valid = true) (pos : Nat) (x : Word) :
    (fieldOf x (narrowAt f pos).1 (narrowAt f pos).2).toNat % 2 ^ f.width =
      x.toNat / 2 ^ (container f * pos) % 2 ^ f.width := by
  rw [narrowAt_eq, fieldOf_toNat, Nat.mod_mod_of_dvd _ (Nat.pow_dvd_pow 2 (width_le_container h))]

theorem low2_imm (o : LI) : o.imm.toNat % 4 = (o.imm.extractLsb' 0 2).toNat := by simp

theorem bitVec2_cases (r : BitVec 2) : r = 0 ∨ r = 1 ∨ r = 2 ∨ r = 3 := by
  revert r
  decide

/-- R57: the lanes whose stochastic-rounding state takes a step. -/
theorem stepsRng_iff (r : BitVec 2) (active : Bool) :
    (decide (r.toNat = 2) && active) = true ↔ r = 2 ∧ active = true := by
  rw [Bool.and_eq_true, decide_eq_true_iff, ← BitVec.toNat_inj]
  rfl

section
variable {s : State} {w : SlotRef} {p : Party}

theorem execFcvt_gives {o : LI} (hi : Issues s w p (.fcvt o)) :
    Gives s w (laneResult w (begun s w p (.fcvt o)) (.fcvt o)) (execFcvt o s) := by
  rw [execFcvt, laneResult]
  exact issueParty_gives hi (by simp only [Party.ctx_w, low2_imm])

/-- NCVT: the container and the steps of the lanes, then each of the four roundings. -/
theorem execNcvt_gives {o : LI} (hi : Issues s w p (.ncvt o)) :
    Gives s w (laneResult w (begun s w p (.ncvt o)) (.ncvt o)) (execNcvt o s) := by
  rw [execNcvt, laneResult]
  split
  · next hok =>
    refine issueParty?_gives hi (narrowPre_eq_none hok) ?_
    obtain hr | hr | hr | hr := bitVec2_cases (o.imm.extractLsb' 0 2) <;>
      simp only [Party.ctx_w, insertField_eq_placed, low2_imm, stepsRng_iff, hr] <;> rfl
  · exact gives_none _

theorem execNexp_gives {o : LI} (hi : Issues s w p (.nexp o)) :
    Gives s w (laneResult w (begun s w p (.nexp o)) (.nexp o)) (execNexp o s) := by
  rw [execNexp, laneResult]
  split
  · next hok =>
    obtain ⟨hvalid, -⟩ := Bool.and_eq_true_iff.mp hok
    exact issueParty?_gives hi (narrowPre_eq_none hok) (by simp only [Party.ctx_w, fieldOf_narrowAt hvalid]; rfl)
  · exact gives_none _

end

/-- Settles O1: an instruction of each shape gives what the shape's rule makes of the party. Where `rfl` is slow
to find the shape that `exec` has, its equation is named. -/
theorem laneInstructionsGiveTheirResult : Obligations.LaneInstructionsGiveTheirResult := by
  intro s w p q i hi
  revert q
  change Gives s w (laneResult w (begun s w p i) i) (exec i s)
  cases i with
  -- 32-bit register forms (R189-R192)
  | vadd _ | vsub _ | vmul _ | vmin _ | vmax _ | vand _ | vor _ | vxor _ =>
    exact lane2_gives hi rfl fun _ _ => rfl
  | vandn _ => exact lane2_gives hi (exec_vandn ..) fun _ _ => rfl
  | vadds _ => exact lane2_gives hi (exec_vadds ..) fun _ _ => satS32_eq _
  | vsubs _ => exact lane2_gives hi (exec_vsubs ..) fun _ _ => satS32_eq _
  | vaddsn _ => exact lane2_gives hi (exec_vaddsn ..) fun _ _ => satN32_eq _
  | vsubsn _ => exact lane2_gives hi (exec_vsubsn ..) fun _ _ => satN32_eq _
  | vmulh _ => exact lane2_gives hi (exec_vmulh ..) mulHigh_signed
  | vmulhn _ => exact lane2_gives hi (exec_vmulhn ..) mulHigh_unsigned
  | vminn _ => exact lane2_gives hi rfl minU_eq
  | vmaxn _ => exact lane2_gives hi rfl maxU_eq
  | vshl _ => exact lane2_gives hi (exec_vshl ..) fun x y => congrArg (x <<< ·) (low5_eq y)
  | vshr _ => exact lane2_gives hi (exec_vshr ..) fun x y => congrArg (x >>> ·) (low5_eq y)
  | vsar _ => exact lane2_gives hi (exec_vsar ..) fun x y => congrArg x.sshiftRight (low5_eq y)
  | vrot _ => exact lane2_gives hi (exec_vrot ..) fun x y => congrArg x.rotateLeft (low5_eq y)
  | vmad _ => exact lane3_gives hi (exec_vmad ..) fun _ _ _ => rfl
  | vabs _ => exact lane1_gives hi (exec_vabs ..) abs_eq_msb
  | vneg _ => exact lane1_gives hi rfl fun x => (BitVec.zero_sub x).symm
  | vclz _ => exact lane1_gives hi (exec_vclz ..) fun _ => rfl
  | vpop _ => exact lane1_gives hi (exec_vpop ..) fun _ => rfl
  | vmov _ => exact lane1_gives hi (exec_vmov ..) fun _ => rfl
  | vbrev _ => exact lane1_gives hi rfl reverseBits_eq_mask
  | vsel _ =>
    rw [exec_vsel, execVsel, laneResult]
    exact issueParty_gives hi rfl
  | vbfxn _ => exact lane2_gives hi (exec_vbfxn ..) extract_unsigned
  | vbfxs _ => exact lane2_gives hi (exec_vbfxs ..) extract_signed
  | vbfi _ => exact lane3_gives hi (exec_vbfi ..) insert_eq_bits
  -- pairs (R194)
  | vadd64 _ | vsub64 _ | vmul64 _ => exact pair2_gives hi rfl
  | vmulw _ => exact widen2_gives hi (exec_vmulw ..) product_signed
  | vmulwn _ => exact widen2_gives hi (exec_vmulwn ..) product_unsigned
  | vshl64 _ | vshr64 _ | vsar64 _ => exact pairShift_gives hi rfl
  -- immediates (R195)
  | vaddi _ | vandi _ | vori _ | vxori _ | vmuli _ => exact laneI_gives hi rfl fun _ => rfl
  | vshli o => exact laneI_gives hi (exec_vshli ..) fun x => congrArg (x <<< ·) (immCount_eq o)
  | vshri o => exact laneI_gives hi (exec_vshri ..) fun x => congrArg (x >>> ·) (immCount_eq o)
  | vsari o => exact laneI_gives hi (exec_vsari ..) fun x => congrArg x.sshiftRight (immCount_eq o)
  | vroti o => exact laneI_gives hi (exec_vroti ..) fun x => congrArg x.rotateLeft (immCount_eq o)
  | vmovi _ =>
    rw [exec_vmovi, execVmovi, laneResult]
    exact issueParty_gives hi rfl
  -- compares into masks (R196, R197, R210, R211)
  | vcmp _ | fcmpF32 _ | fcmpF16 _ | fcmpB16 _ => exact compare2_gives hi rfl
  | vcmp64 _ | fcmpF64 _ => exact comparePair_gives hi rfl
  | vcmpi _ =>
    rw [exec_vcmpi, execVcmpi, laneResult]
    exact issueParty_gives hi rfl
  | fclass o =>
    rw [exec_fclass, execFclass, laneResult]
    by_cases hcc : o.cc = 0
    · rw [if_pos hcc]
      exact issueParty_gives hi (congrArg some (if_pos hcc).symm)
    · rw [if_neg hcc, ← classFmt_eq hcc]
      exact issueParty_gives hi (congrArg some (if_neg hcc).symm)
  -- cross-lane instructions (R193, R198-R201, R212)
  | vmrank _ => exact cross1_gives hi (exec_vmrank ..) fun m x => congrArg tab (funext (rankOf_eq_countP m x))
  | vshfl _ =>
    exact cross2_gives hi (exec_vshfl ..) fun _ x y => congrArg tab (funext fun k => lane_mod_eq_getD x (low5_eq y[k]))
  | vxch o =>
    exact cross1_gives hi (exec_vxch ..) fun _ x => congrArg tab (funext fun k => lane_mod_eq_getD x (xor_lane_mod k o))
  | vrotl o =>
    exact cross1_gives hi (exec_vrotl ..) fun _ x => congrArg tab (funext fun k => lane_mod_eq_getD x (rotate_lane_mod k o))
  | vbcast o => exact cross1_gives hi (exec_vbcast ..) fun _ x => congrArg splat (lane_mod_eq_getD x (immCount_eq o))
  | vscan _ | vscanx _ => exact cross2_gives hi rfl fun _ _ _ => rfl
  | vredadd _ | vredmin _ | vredmax _ | vredand _ | vredor _ | vredxor _ =>
    exact cross1_gives hi rfl fun _ _ => rfl
  | vredminn _ => exact cross1_gives hi rfl fun m x => congrArg (reduceLanes · m x) (funext fun x => funext (minU_eq x))
  | vredmaxn _ => exact cross1_gives hi rfl fun m x => congrArg (reduceLanes · m x) (funext fun x => funext (maxU_eq x))
  | fredadd _ => exact cross1_gives hi (exec_fredadd ..) fun _ _ => rfl
  -- floating point (R206, R207, R216, R217)
  | faddF64 _ | fsubF64 _ | fmulF64 _ | fminF64 _ | fmaxF64 _ => exact pair2_gives hi rfl
  | faddF32 _ | faddF16 _ | faddB16 _ | fsubF32 _ | fsubF16 _ | fsubB16 _ | fmulF32 _ | fmulF16 _ | fmulB16 _ | fminF32 _
    | fminF16 _ | fminB16 _ | fmaxF32 _ | fmaxF16 _ | fmaxB16 _ | hadd2 _ | hmul2 _ | badd2 _ | bmul2 _ | b2pack _
    | h2pack _ => exact lane2_gives hi rfl fun _ _ => rfl
  | ffmaF64 _ | fnmaF64 _ => exact pair3_gives hi rfl
  | ffmaF32 _ | ffmaF16 _ | ffmaB16 _ | fnmaF32 _ | fnmaF16 _ | fnmaB16 _ | hfma2 _ | bfma2 _ =>
    exact lane3_gives hi rfl fun _ _ _ => rfl
  -- conversions (R218-R222)
  | fcvt _ => exact execFcvt_gives hi
  | ncvt _ => exact execNcvt_gives hi
  | nexp _ => exact execNexp_gives hi
  | _ => exact gives_none _

end Sys2Proof.Machine
end
